-- ==== Sys2Proof/Word.lean ====
section
/-! DEFINITION. The word types of the SX-9600 and sparse tables, with their plainest arithmetic (spec/00_scope.md R2, R4). -/

namespace Sys2Proof

/-- A 64-bit register, counter or address as software sees it (R33, R80). -/
abbrev Word := BitVec 64

/-- One byte of memory. -/
abbrev Byte := BitVec 8

/-- A byte string, first byte first (R13: little-endian multi-byte values). -/
abbrev Bytes := List Byte

/-- A status code: class in bits 15:8, code in bits 7:0 (R9). -/
abbrev Status := BitVec 16

/-- A sparse table: entries with strictly rising keys; what an unlisted key reads as is a default given at each use. -/
abbrev Tab (β : Type) := List (Nat × β)

/-- A byte memory in one canonical form: addresses strictly rising, and no entry equal to zero, the value an unlisted address reads as (R463). -/
abbrev Mem := List (Nat × Byte)

end Sys2Proof
end

