-- ==== Sys2Proof/Syntax.lean ====
section
/-! DEFINITION. The commands of the SX-9600, one constructor of Instr per row of spec/opcode_table.json, and their operands. An instruction row carries the context that issues it and the fields of its format (R116); a register row carries the value written; an event row carries what the environment alone knows (a measured rate, a packet, a cell outcome). -/

namespace Sys2Proof

/-- The hardware context that issues an instruction word, and the prefix word's PAY when one stands before it (R118). -/
structure Issue where
  tile : Fin 768
  hw : Fin 8
  pre : Option (BitVec 26)
  deriving DecidableEq, Repr

/-- Format R with the function code the row leaves open (R116). -/
structure RFmt where
  rd : BitVec 6
  rs1 : BitVec 6
  rs2 : BitVec 6
  fn : BitVec 8
  deriving DecidableEq, Repr

/-- Format R whose function code the row fixes. -/
structure R3 where
  rd : BitVec 6
  rs1 : BitVec 6
  rs2 : BitVec 6
  deriving DecidableEq, Repr

/-- Format R whose low function bits the row fixes; `hi` holds FN bits 7:4. -/
structure R4 where
  rd : BitVec 6
  rs1 : BitVec 6
  rs2 : BitVec 6
  hi : BitVec 4
  deriving DecidableEq, Repr

/-- Format I. -/
structure IFmt where
  rd : BitVec 6
  rs1 : BitVec 6
  imm : BitVec 14
  deriving DecidableEq, Repr

/-- Format I of opcode 0x06, whose IMM bits 7:6 the row fixes: count in 5:0, and bits 13:8. -/
structure ShFmt where
  rd : BitVec 6
  rs1 : BitVec 6
  hi : BitVec 6
  count : BitVec 6
  deriving DecidableEq, Repr

/-- Format M. -/
structure MFmt where
  rt : BitVec 6
  rs1 : BitVec 6
  sz : BitVec 2
  sx : BitVec 1
  off : BitVec 11
  deriving DecidableEq, Repr

/-- Format B. -/
structure BFmt where
  rs1 : BitVec 6
  rs2 : BitVec 6
  off : BitVec 14
  deriving DecidableEq, Repr

/-- Format J. -/
structure JFmt where
  rd : BitVec 6
  imm : BitVec 20
  deriving DecidableEq, Repr

/-- Format V. -/
structure VFmt where
  vd : BitVec 5
  vs1 : BitVec 5
  vs2 : BitVec 5
  pm : BitVec 4
  z : BitVec 1
  fn : BitVec 6
  deriving DecidableEq, Repr

/-- Format S. -/
structure SFmt where
  vd : BitVec 5
  rs1 : BitVec 6
  rs2 : BitVec 6
  key : BitVec 8
  rsvd : BitVec 1
  deriving DecidableEq, Repr

/-- Format T. -/
structure TFmt where
  ad : BitVec 3
  fmt : BitVec 4
  ra : BitVec 6
  rb : BitVec 6
  rk : BitVec 6
  clr : BitVec 1
  deriving DecidableEq, Repr

/-- Format X. -/
structure XFmt where
  xd : BitVec 2
  fmt : BitVec 2
  ra : BitVec 6
  rb : BitVec 6
  rn : BitVec 6
  rsvd : BitVec 4
  deriving DecidableEq, Repr

/-- A Frerak packet as it stands on the wire (R338-R340, R349): header fields, tag header, payload, CRC-32C, and what the frame around it shows (source address, hop limit, receiving port, arrival time). -/
structure Pkt where
  version : BitVec 8
  type : BitVec 8
  flags : BitVec 16
  dqpn : BitVec 20
  cepoch : BitVec 12
  psn : BitVec 32
  msn : BitVec 32
  offset : BitVec 40
  path : BitVec 8
  plen : BitVec 16
  key : BitVec 32
  mlen : BitVec 32
  mpos : BitVec 32
  aux : BitVec 32
  txtime : Word
  value : Word
  tag : BitVec 128
  frontier : BitVec 128
  payload : Bytes
  crc : BitVec 32
  srcIp : BitVec 128
  hop : BitVec 8
  port : BitVec 7
  deriving DecidableEq, Repr

/-- Operations of a RoCE v2 packet the device supports (R354), as the base transport header spells them. -/
inductive RoceOp where
  | write | writeImm | readReq | readResp | fetchAdd | cmpSwap | atomicResp | ack | nakSeq | nakAccess | nakOp | rnr | cnp
  deriving DecidableEq, Repr

/-- A RoCE v2 packet of the reliable connected service (R354, R355). `first` and `last` mark its place in its message. -/
structure RocePkt where
  op : RoceOp
  first : Bool
  last : Bool
  dqpn : BitVec 24
  psn : BitVec 24
  va : Word
  rkey : BitVec 32
  dmaLen : BitVec 32
  imm : BitVec 32
  swapAdd : Word
  compare : Word
  payload : Bytes
  deriving DecidableEq, Repr

/-- What a group member reports at a refresh (R38): its UCB_STATE, UCB_TDC, trouble counters and health. -/
structure Member where
  answered : Bool
  state : BitVec 4
  spares : BitVec 5
  tdc : Word
  counts : List (Nat × BitVec 16)
  score : BitVec 10
  conf : BitVec 10
  deriving DecidableEq, Repr

/-- A message between the assemblers of a batch stream (R212, R213). -/
inductive StreamMsg where
  /-- A sample report on its way to the owner of its position. -/
  | report (b : Bytes)
  /-- The owner of block `block` of epoch `epoch` writes its accepted count into the ledger. -/
  | count (epoch : Nat) (block : Nat) (n : Nat)
  /-- An assembler asks for the reports of the accepted positions of one block from rank `lo` to rank `hi` within it. -/
  | request (asker : Nat) (epoch : Nat) (block : Nat) (lo : Nat) (hi : Nat)
  /-- The owner's answer to a request. -/
  | answer (reports : List Bytes)
  deriving DecidableEq, Repr

/-- What the runtime chooses when it launches one software context of a job (R439 step 7): its save area (two halves of 64 KiB that follow each other), the virtual address of its binary and the rest of its first state. -/
structure Launch where
  area : BitVec 48
  va : Word
  ttb : Word
  pkr0 : Word
  pkr1 : Word
  tsBase : BitVec 10
  tsSize : BitVec 10
  xvec : Word
  deriving DecidableEq, Repr

/-- Identity of the media as recovery finds it, for the parts that lie outside the device's own record: each usable target answered (R400, R420 step 1). -/
structure MediaFound where
  /-- Targets that answered, as 16 * channel + target. -/
  targets : List Nat
  planes : BitVec 3
  cwpp : BitVec 4
  pages : BitVec 13
  units : BitVec 16
  luns : BitVec 2
  tgts : BitVec 4
  peLimit : BitVec 32
  retries : BitVec 4
  /-- Factory-bad erase units, by locator. -/
  bad : List Nat
  /-- Targets of another geometry or with no matching profile. -/
  odd : List Nat
  /-- An anchor record decodes; where none does, every page of both anchor blocks is erased. -/
  anchor : Bool
  erased : Bool
  /-- The newer checkpoint loads; the older one does. -/
  newer : Bool
  older : Bool
  /-- The journal mirror reads (R448). -/
  mirror : Bool
  deriving DecidableEq, Repr

/-- What the fuse sequencer reads in one attempt (R504): which blocks pass their CRC, and the blocks' contents. -/
structure Fuses where
  good : List Nat
  blocks : List Bytes
  /-- The values the blocks hold (the manual gives their bytes no layout): identity, speed bin, the factory spare map (tiles whose slot is not their own number, with the slot; retired slots by slot index), and block 3. -/
  serial : Bytes
  stepping : BitVec 8
  mac : BitVec 48
  speedBin : BitVec 8
  map : List (Nat × Nat)
  bad : List Nat
  keyd : List Bytes
  revoked : BitVec 4
  fwMin : BitVec 7
  rtMin : BitVec 7
  deriving DecidableEq, Repr
/-- The commands, one constructor per row of spec/opcode_table.json. -/
inductive Instr where
  /-- ALU functions of R123, selected by FN. -/
  | alu (i : Issue) (f : RFmt)
  /-- ADDI (R125). -/
  | addi (i : Issue) (f : IFmt)
  /-- ANDI (R125). -/
  | andi (i : Issue) (f : IFmt)
  /-- ORI (R125). -/
  | ori (i : Issue) (f : IFmt)
  /-- XORI (R125). -/
  | xori (i : Issue) (f : IFmt)
  /-- SLTI (R125). -/
  | slti (i : Issue) (f : IFmt)
  /-- SLTIU (R125). -/
  | sltiu (i : Issue) (f : IFmt)
  /-- SLLI (R125). -/
  | slli (i : Issue) (f : ShFmt)
  /-- SRLI (R125). -/
  | srli (i : Issue) (f : ShFmt)
  /-- SRAI (R125). -/
  | srai (i : Issue) (f : ShFmt)
  /-- RORI (R125). -/
  | rori (i : Issue) (f : ShFmt)
  /-- LI (R125). -/
  | li (i : Issue) (f : JFmt)
  /-- LIH (R125). -/
  | lih (i : Issue) (f : JFmt)
  /-- LD (R126). -/
  | ld (i : Issue) (f : MFmt)
  /-- ST (R126). -/
  | st (i : Issue) (f : MFmt)
  /-- VLD (R126). -/
  | vld (i : Issue) (f : MFmt)
  /-- VST (R126). -/
  | vst (i : Issue) (f : MFmt)
  /-- BEQ (R127). -/
  | beq (i : Issue) (f : BFmt)
  /-- BNE (R127). -/
  | bne (i : Issue) (f : BFmt)
  /-- BLT (R127). -/
  | blt (i : Issue) (f : BFmt)
  /-- BGE (R127). -/
  | bge (i : Issue) (f : BFmt)
  /-- BLTU (R127). -/
  | bltu (i : Issue) (f : BFmt)
  /-- BGEU (R127). -/
  | bgeu (i : Issue) (f : BFmt)
  /-- JAL (R127). -/
  | jal (i : Issue) (f : JFmt)
  /-- JALR (R127). -/
  | jalr (i : Issue) (f : IFmt)
  /-- SRR (R128). -/
  | srr (i : Issue) (f : IFmt)
  /-- SRW (R128). -/
  | srw (i : Issue) (f : IFmt)
  /-- ECALL (R129). -/
  | ecall (i : Issue) (f : R3)
  /-- BREAK (R129). -/
  | break_ (i : Issue) (f : R3)
  /-- XRET (R129). -/
  | xret (i : Issue) (f : R3)
  /-- RFENCE (R129). -/
  | rfence (i : Issue) (f : R3)
  /-- TLBINV (R129). -/
  | tlbinv (i : Issue) (f : R3)
  /-- VALU functions (R131). -/
  | valu (i : Issue) (f : VFmt)
  /-- VFP functions (R131). -/
  | vfp (i : Issue) (f : VFmt)
  /-- VCMP functions (R131). -/
  | vcmp (i : Issue) (f : VFmt)
  /-- VPERM functions (R133). -/
  | vperm (i : Issue) (f : RFmt)
  /-- VCVT (R134). -/
  | vcvt (i : Issue) (f : VFmt)
  /-- VRED functions (R131). -/
  | vred (i : Issue) (f : VFmt)
  /-- VSCG (R135). -/
  | vscg (i : Issue) (f : SFmt)
  /-- TMMA (R137, R138). -/
  | tmma (i : Issue) (f : TFmt)
  /-- TZERO (R140). -/
  | tzero (i : Issue) (f : R4)
  /-- TLD (R140). -/
  | tld (i : Issue) (f : R4)
  /-- TST (R140). -/
  | tst (i : Issue) (f : R4)
  /-- TRND (R140). -/
  | trnd (i : Issue) (f : R4)
  /-- TRNDF (R140). -/
  | trndf (i : Issue) (f : R4)
  /-- TRNDS (R140). -/
  | trnds (i : Issue) (f : R4)
  /-- TRNDFS (R140). -/
  | trndfs (i : Issue) (f : R4)
  /-- XDOT (R142). -/
  | xdot (i : Issue) (f : XFmt)
  /-- XZERO (R143). -/
  | xzero (i : Issue) (f : R4)
  /-- XRND (R143). -/
  | xrnd (i : Issue) (f : R4)
  /-- XEXP (R143). -/
  | xexp (i : Issue) (f : R4)
  /-- XIMP (R143). -/
  | ximp (i : Issue) (f : R4)
  /-- RPUT (R144). -/
  | rput (i : Issue) (f : RFmt)
  /-- RPUTI (R144). -/
  | rputi (i : Issue) (f : RFmt)
  /-- RGET (R144). -/
  | rget (i : Issue) (f : RFmt)
  /-- RFADD (R144). -/
  | rfadd (i : Issue) (f : RFmt)
  /-- RCAS (R144). -/
  | rcas (i : Issue) (f : RFmt)
  /-- SADD (R144). -/
  | sadd (i : Issue) (f : RFmt)
  /-- SWAIT (R144). -/
  | swait (i : Issue) (f : RFmt)
  /-- QPOST (R144). -/
  | qpost (i : Issue) (f : RFmt)
  /-- EPOST (R144). -/
  | epost (i : Issue) (f : RFmt)
  /-- CALLOC (R148). -/
  | calloc (i : Issue) (f : R3)
  /-- CALLOCN (R148). -/
  | callocn (i : Issue) (f : R3)
  /-- CREF (R148). -/
  | cref (i : Issue) (f : R3)
  /-- CFREE (R148). -/
  | cfree (i : Issue) (f : R3)
  /-- EXIT (R149). -/
  | exit (i : Issue) (f : R4)
  /-- SETTAG (R149). -/
  | settag (i : Issue) (f : R4)
  /-- LAUNCH (R149). -/
  | launch (i : Issue) (f : R4)
  /-- TRMARK (R150). -/
  | trmark (i : Issue) (f : RFmt)
  /-- Remote operation number `op` reaches its target and completes there (R94). -/
  | remoteOpComplete (op : Nat)
  /-- The rejection of remote operation `op` with status `st` returns (R96). -/
  | remoteRejection (op : Nat) (st : Status)
  /-- The wait of software context `sw` is looked at again (R102). -/
  | waitSatisfied (sw : Nat)
  /-- The slice boundary of a context is served (R101). -/
  | sliceBoundary (tile : Fin 768) (hw : Fin 8)
  /-- A tile forms its issue group for the present tick (R121). -/
  | issueGroup (tile : Fin 768)
  /-- The unit releases the results whose release tick has come (R60). -/
  | holdRelease (unit : Nat)
  /-- Entry `idx` of a unit is released late, at the present tick (R67). -/
  | slip (unit : Nat) (idx : Nat) (cause : BitVec 8) (detail : Word)
  /-- The frontier of logical source `src` of a job is published (R53). -/
  | frontierAdvance (src : BitVec 32) (job : BitVec 16)
  /-- A decision point looks for a request to serve (R55). -/
  | decisionPointServe (dp : Nat)
  /-- The stall check of a decision point (R57). -/
  | orderStall (dp : Nat)
  /-- The Gaffer derives one key (R181). -/
  | keyDerive (job : BitVec 16) (slot : BitVec 8) (epoch : Word)
  /-- UCB command 0x01 written to UCB `u` at runtime level (R35). -/
  | quiesce (u : BitVec 12) (timeout : BitVec 16)
  /-- UCB command 0x02. -/
  | resume (u : BitVec 12) (timeout : BitVec 16)
  /-- UCB command 0x03. -/
  | freeze (u : BitVec 12) (timeout : BitVec 16)
  /-- UCB command 0x04. -/
  | unfreeze (u : BitVec 12) (timeout : BitVec 16)
  /-- UCB command 0x05. -/
  | reset (u : BitVec 12) (timeout : BitVec 16)
  /-- A UCB_CMD write that starts no command. -/
  | ucbCmdNone (u : BitVec 12) (cmd : BitVec 8) (timeout : BitVec 16)
  /-- The unit (UCB index) or engine instance (0xF000 plus its code) has drained (R510). -/
  | quiesceDrained (target : Nat)
  /-- The quiesce wait of the unit or engine instance expires (R510). -/
  | quiesceTimeout (target : Nat)
  /-- A UCB_TROUBLE_CLR write; `same` holds the causes that count in the same access (R37). -/
  | ucbTroubleClr (u : BitVec 12) (mask : BitVec 64) (same : BitVec 64)
  /-- The Gaffer gathers group UCB k; the readings of its members in child table order (R38). -/
  | groupRefresh (k : Fin 256) (members : List Member)
  /-- The next member of a group command answers, or does not within TIMEOUT (R38). -/
  | groupCommandForward (k : Fin 256) (answer : Option Status)
  /-- A unit measures its handshake rate in MHz (UCB_HS_RATE). -/
  | hsRateUpdate (u : BitVec 12) (rate : BitVec 16)
  /-- GATHER_READ (R196): Gather READ descriptor reads a list of records into Cullet buffers with CRC checks and replicas. -/
  | gatherRead (d : Nat)
  /-- VERIFY (R195): Gather VERIFY recomputes an input's Merkle root and compares it with the header. -/
  | verify (d : Nat)
  /-- INGEST (R226): Gather INGEST admits live entries from an ingest ring and records them to a Cane file. -/
  | ingest (d : Nat)
  /-- INGEST_TAKE (R227): An ingest ring entry whose SEQ arrives is taken, dropped or admitted with the next admission index. -/
  | ingestTake (d : Nat)
  /-- GATHER_STRAND_READ_DONE (R197): A NAND read of codewords for pending Gather descriptors completes and fills record buffers. -/
  | gatherStrandReadDone (d n : Nat)
  /-- MARVER_PERMUTATION (R205): Marver descriptor maps COUNT positions of an epoch to sample indices by keyed Feistel permutation. -/
  | marverPermutation (code : BitVec 8)
  /-- STREAM_OPEN (R224): Parison descriptor opens a batch stream from a configuration block. -/
  | streamOpen (code : BitVec 8)
  /-- SUBMIT (R224): Parison descriptor delivers sample reports to the stream. -/
  | submit (code : BitVec 8)
  /-- CLOSE (R223): Parison descriptor ends the instance's part of the stream and seals a live recording. -/
  | close (code : BitVec 8)
  /-- REPORT_FORWARD (R212): A sample report or ledger request arrives at its owning assembler over the assembler queue pair. -/
  | reportForward (code : BitVec 8) (m : StreamMsg)
  /-- BATCH_MAKEUP (R213): An assembler makes up and packs batch b once its reports and ledger counts are present. -/
  | batchMakeup (code : BitVec 8) (b : Word)
  /-- BATCH_DELIVERY (R220): Parison begins delivering a shard when credits and the period anchor allow. -/
  | batchDelivery (code : BitVec 8) (b : Word) (k : Nat)
  /-- DELIVERY_COMPLETE (R221): The header RPUTI completes and (b, k) is recorded as delivered. -/
  | deliveryComplete (code : BitVec 8) (b : Word) (k : Nat) (st : Status)
  /-- JPEG (R231): Codec descriptor decodes a JPEG stream into stripes with concealment. -/
  | jpeg (code : BitVec 8)
  /-- PNG (R232): Codec descriptor decodes a PNG datastream into stripes with concealment. -/
  | png (code : BitVec 8)
  /-- INFLATE (R233): Codec descriptor inflates a DEFLATE, zlib or gzip stream. -/
  | inflate (code : BitVec 8)
  /-- WAV (R234): Codec descriptor decodes a RIFF WAVE file. -/
  | wav (code : BitVec 8)
  /-- RECORD (R237): Codec descriptor decodes a Cane record's payload by its CODEC. -/
  | record (code : BitVec 8)
  /-- PROBE (R239): Codec descriptor parses a header and runs pre-allocation checks without decoding. -/
  | probe (code : BitVec 8)
  /-- STRIPE_ALLOC (R242): An engine takes the next output stripe from its pool once a buffer is available. -/
  | stripeAlloc (code : BitVec 8) (d : Nat)
  /-- COMPRESS (R266): Compresses a whole input into a BRL INDEP frame. -/
  | compress (code : BitVec 8)
  /-- DECOMPRESS (R267): Decodes a block range of a BRL INDEP frame. -/
  | decompress (code : BitVec 8)
  /-- BRL_STREAM_OPEN (R273): Opens a history-carrying BRL stream state in either direction. -/
  | brlStreamOpen (code : BitVec 8)
  /-- BRL_STREAM_DATA (R273): Compresses or decompresses a piece of a BRL stream. -/
  | brlStreamData (code : BitVec 8)
  /-- BRL_STREAM_SAVE (R274): Writes a BRL stream's state image, optionally releasing the state. -/
  | brlStreamSave (code : BitVec 8)
  /-- BRL_STREAM_RESTORE (R274): Restores a BRL stream from a checked state image. -/
  | brlStreamRestore (code : BitVec 8)
  /-- BRL_STREAM_CLOSE (R273): Ends a BRL stream, writing END for compress, and frees the state. -/
  | brlStreamClose (code : BitVec 8)
  /-- FRB_ENCODE (R278): Encodes floating values into fixed-ratio FRB blocks. -/
  | frbEncode (code : BitVec 8)
  /-- FRB_DECODE (R278): Decodes FRB blocks into values of TYPE. -/
  | frbDecode (code : BitVec 8)
  /-- TOK_LOAD (R288): Checks a tokenizer image and loads it into a tokenizer slot. -/
  | tokLoad (code : BitVec 8)
  /-- GRAMMAR_LOAD (R307): Checks a grammar image and loads it into a grammar slot. -/
  | grammarLoad (code : BitVec 8)
  /-- UNLOAD (R290): Frees a tokenizer or grammar slot after earlier descriptors naming it. -/
  | unload (code : BitVec 8)
  /-- TOKENIZE (R299): Validates, pre-splits and merges UTF-8 text into tokens with control insertion. -/
  | tokenize (code : BitVec 8)
  /-- DETOKENIZE (R303): Turns tokens into bytes with stop-string holding and matching. -/
  | detokenize (code : BitVec 8)
  /-- GRAMMAR_INIT (R308): Initializes a grammar state block and optionally writes the first mask. -/
  | grammarInit (code : BitVec 8)
  /-- ADVANCE (R309): Advances a grammar by one token, accepting or rejecting it. -/
  | advance (code : BitVec 8)
  /-- MASK (R310): Writes the exact mask of tokens allowed from the grammar state. -/
  | mask (code : BitVec 8)
  /-- WORK_REQUEST_START (R329): The head work request of a send queue starts after pre-start checks, fences and gates. -/
  | workRequestStart (qpn : BitVec 20)
  /-- QP_CONTEXT_FETCH (R318): A non-resident queue-pair context finishes being fetched from HBM. -/
  | qpContextFetch (qpn : BitVec 20)
  /-- QP_HOLD_EXPIRY (R318): A packet held 16 us for a non-resident queue pair is dropped unacknowledged. -/
  | qpHoldExpiry (qpn : BitVec 20)
  /-- WRITE_PACKET (R326): A received Frerak WRITE packet is classified, checked and placed. -/
  | writePacket (p : Pkt)
  /-- WRITE_IMM_PACKET (R332): A received WRITE_IMM packet is placed and may complete the message with notification. -/
  | writeImmPacket (p : Pkt)
  /-- READ_REQ_PACKET (R326): A received READ_REQ is checked and answered with READ_RESP packets. -/
  | readReqPacket (p : Pkt)
  /-- READ_RESP_PACKET (R330): A received READ_RESP places bytes at LOCAL. -/
  | readRespPacket (p : Pkt)
  /-- FETCH_ADD_PACKET (R344): A received FETCH_ADD is applied once and answered with ATOMIC_RESP. -/
  | fetchAddPacket (p : Pkt)
  /-- CMP_SWAP_PACKET (R344): A received CMP_SWAP is applied once and answered with ATOMIC_RESP. -/
  | cmpSwapPacket (p : Pkt)
  /-- ATOMIC_RESP_PACKET (R330): A received ATOMIC_RESP writes the old value and completes the atomic. -/
  | atomicRespPacket (p : Pkt)
  /-- COUNTER_ADD_PACKET (R363): A received COUNTER_ADD adds to a sync counter through a COUNTER region. -/
  | counterAddPacket (p : Pkt)
  /-- ACK_PACKET (R343): A received ACK acknowledges PSNs, gives an RTT sample and updates windows. -/
  | ackPacket (p : Pkt)
  /-- NAK_PACKET (R327): A received NAK fails the work request as violation or failure. -/
  | nakPacket (p : Pkt)
  /-- FAULT_WAIT_PACKET (R335): A received FAULT_WAIT schedules resending after the advertised delay. -/
  | faultWaitPacket (p : Pkt)
  /-- FRONTIER_PACKET (R340): A received FRONTIER updates the queue pair's frontier input. -/
  | frontierPacket (p : Pkt)
  /-- CONNECT_REQ_PACKET (R349): A received CONNECT_REQ is accepted by a LISTEN queue pair or refused. -/
  | connectReqPacket (p : Pkt)
  /-- CONNECT_RESP_PACKET (R346): A received CONNECT_RESP connects the requester or moves it to ERROR. -/
  | connectRespPacket (p : Pkt)
  /-- CLOSE_PACKET (R347): A received CLOSE returns the queue pair to IDLE or LISTEN or fails work in flight. -/
  | closePacket (p : Pkt)
  /-- PROBE_PACKET (R349): A received PROBE is answered with PROBE_RESP. -/
  | probePacket (p : Pkt)
  /-- PROBE_RESP_PACKET (R352): A received PROBE_RESP restores a failed path. -/
  | probeRespPacket (p : Pkt)
  /-- ROCE_V2_PACKET (R354): A received RoCE v2 packet is handled by the reliable-connected rules. -/
  | roceV2Packet (p : RocePkt)
  /-- ACK_TIMER (R343): An ACK is sent within 2 us of a new packet. -/
  | ackTimer (qpn : BitVec 20)
  /-- FRONTIER_TIMER (R340): A risen frontier not carried within 2 us is sent in a FRONTIER packet. -/
  | frontierTimer (qpn : BitVec 20)
  /-- RTO_EXPIRY (R345): A path's retransmission timer expires and the packet is retransmitted or the queue pair fails. -/
  | rtoExpiry (qpn : BitVec 20) (path : Nat)
  /-- PROBE_TIMER (R352): A PROBE is sent on a failed path every 1 ms. -/
  | probeTimer (qpn : BitVec 20) (path : Nat)
  /-- FAULT_WAIT_RESEND (R335): After the FAULT_WAIT delay the faulted and later packets are resent. -/
  | faultWaitResend (qpn : BitVec 20)
  /-- REMOTE_WAIT_TIMEOUT (R335): FAULT_WAIT persisting past WAIT_LIMIT fails the work request and the queue pair. -/
  | remoteWaitTimeout (qpn : BitVec 20)
  /-- CONNECT_RETRY (R346): An unanswered CONNECT_REQ is resent after 1 ms or fails with PEER_UNREACHABLE. -/
  | connectRetry (qpn : BitVec 20)
  /-- IDLE_TEARDOWN (R347): A non-STRICT queue pair idle for IDLE ms is closed. -/
  | idleTeardown (qpn : BitVec 20)
  /-- MR_REGISTER (R323): Transport command registering a memory region and returning its key. -/
  | mrRegister 
  /-- MR_DEREGISTER (R325): Transport command that stops a region index and completes after checked work. -/
  | mrDeregister 
  /-- MR_DEREGISTER_DRAINED (R325): All work that passed the key check finishes and the deregistration completes. -/
  | mrDeregisterDrained 
  /-- QP_CREATE (R359): Transport command creating a Frerak requester, LISTEN or RoCE v2 queue pair. -/
  | qpCreate 
  /-- QP_DESTROY (R358): Transport command flushing work and moving a queue pair to DRAINING. -/
  | qpDestroy 
  /-- QP_DRAIN_DONE (R358): In-flight packets of a DRAINING queue pair end and it becomes FREE. -/
  | qpDrainDone (qpn : BitVec 20)
  /-- QP_RESUME (R336): Transport command retrying or aborting a stalled requester fault. -/
  | qpResume 
  /-- QP_RESET (R358): Transport command flushing work and returning an ERROR queue pair to IDLE. -/
  | qpReset 
  /-- RING_SET (R356): Transport command writing a ring table entry. -/
  | ringSet 
  /-- TAGGED_ADD_ARRIVAL (R368): A tagged add reaches the counter unit and is held pending. -/
  | taggedAddArrival (ctr : BitVec 17) (amt : Word) (tag : BitVec 128) (job : BitVec 16)
  /-- UNTAGGED_ADD_ARRIVAL (R368): An untagged add is applied to VALUE on arrival. -/
  | untaggedAddArrival (ctr : BitVec 17) (amt : Word)
  /-- PENDING_ADD_MERGE (R368): A pending tagged add merges into VALUE once frontiers and pending reads allow. -/
  | pendingAddMerge (ctr : BitVec 17)
  /-- POOL_ENABLE (R372): Writing EN 0 to 1 checks a Cullet pool and rebuilds its state and free list. -/
  | poolEnable (p : Fin 64)
  /-- POOL_DISABLE (R372): Writing EN 1 to 0 disables an idle pool or is refused. -/
  | poolDisable (p : Fin 64)
  /-- ALLOC_WAITER_SERVED (R378): A waiting allocation is served when a buffer frees or quota allows. -/
  | allocWaiterServed (p : Fin 64)
  /-- PORT_ENABLE (R385): PORT_CFG EN set to 1 checks the configuration and enters TRAINING. -/
  | portEnable (p : Fin 96) (v : Word)
  /-- PORT_DISABLE (R385): PORT_CFG EN set to 0 takes the port OFF and idles its lanes. -/
  | portDisable (p : Fin 96)
  /-- RETRAIN (R385): PORT_CMD RETRAIN takes an UP port down and trains it again. -/
  | retrain (p : Fin 96)
  /-- PORT_TRAINING_DONE (R385): Training and alignment succeed and the port enters UP. -/
  | portTrainingDone (p : Fin 96)
  /-- TRAINING_RETRY (R385): 100 ms after a failed attempt training restarts and TRAIN_FAILS counts. -/
  | trainingRetry (p : Fin 96)
  /-- LOSS_OF_LOCK (R385): Loss of alignment or lock returns the port to TRAINING and raises PORT_DOWN. -/
  | lossOfLock (p : Fin 96)
  /-- FEC_WINDOW_END (R388): At each one-second window the port judges and reports degradation. -/
  | fecWindowEnd (p : Fin 96) (cw sym unc : BitVec 32)
  /-- FRAME_RECEIVED (R390): A received frame is steered to management, Frerak or RoCE v2 or dropped. -/
  | frameReceived (p : Fin 96) (f : Bytes) (fcs : Bool) (at_ : Word)
  /-- PFC_REPEAT (R392): The pause is repeated every QUANTA/2 until occupancy falls to XON. -/
  | pfcRepeat (p : Fin 96) (prio : Fin 8) (occ : Nat)
  /-- PFC_FRAME_RECEIVED (R392): A received PFC frame pauses transmission of that priority. -/
  | pfcFrameReceived (p : Fin 96) (f : Bytes)
  /-- PTP_STEP (R396): Writing STEP applies a time correction by slew or at once. -/
  | ptpStep (step : BitVec 64)
  /-- MGMT_TX_GO (R397): MGMT_TX_CTRL GO sends a management frame from HBM. -/
  | mgmtTxGo (v : Word)
  /-- MGMT_TX_DONE (R397): A management frame is sent, BUSY clears and MGMT_TX_TS holds its timestamp. -/
  | mgmtTxDone (at_ : Word)
  /-- MGMT_RING_ENABLE (R539): MGMT_RING_CTRL EN 0 to 1 enables the ring and zeroes HEAD and TAIL. -/
  | mgmtRingEnable 
  /-- SLIP_RING_ENABLE (R79): SLIP_RING_CTRL EN 0 to 1 enables the journal and zeroes HEAD, TAIL and LOST. -/
  | slipRingEnable 
  /-- NAND_READ_DONE (R405): A NAND page read completes and the codeword is decoded or retried up the ladder. -/
  | nandReadDone (loc : Word) (ok : Bool) (bits : Nat)
  /-- NAND_PROGRAM_DONE (R418): A NAND program completes, or fails and the data is reprogrammed elsewhere. -/
  | nandProgramDone (loc : Word) (ok : Bool)
  /-- NAND_ERASE_DONE (R418): A NAND erase completes, or fails and the unit is retired. -/
  | nandEraseDone (loc : Word) (ok : Bool)
  /-- LOG_FLUSH_TIMER (R411): A partly filled map log codeword is programmed 1 ms after its first record. -/
  | logFlushTimer 
  /-- GC_COLLECT (R417): Garbage collection chooses a victim and relocates, logs and erases it. -/
  | gcCollect (lun : Nat)
  /-- MAP_CHECKPOINT (R413): A fuzzy checkpoint of the map is written once the log holds 1 GiB, followed by an anchor. -/
  | mapCheckpoint 
  /-- CHANNEL_RETRAIN (R400): A channel is recalibrated after a 20 degC temperature move. -/
  | channelRetrain (ch : Fin 64)
  /-- TARGET_TIMEOUT (R418): A target silent for 100 ms fails and its units are retired. -/
  | targetTimeout (ch : Fin 64) (tgt : Fin 16)
  /-- MEDIA_RECOVERY (R420): Media recovery rebuilds the map from anchors, checkpoints and log. -/
  | mediaRecovery (r : MediaFound)
  /-- FORMAT (R423): MEDIA_FORMAT GO erases good units, clears the map and writes a new format. -/
  | format (v : Word)
  /-- SPARE_MIN_WRITE (R421): A valid SPARE_MIN write in READY takes effect and may enter READ_ONLY. -/
  | spareMinWrite (v : BitVec 32)
  /-- HI_DRV_ENABLE (R430): A write to HI_DRV grants or clears the host interface by version. -/
  | hiDrvEnable (v : Word)
  /-- TS_GO (R432): GO to a task slot accepts the command with a JSN or completes it HOST_NOT_ENABLED. -/
  | tsGo (slot : Fin 8192)
  /-- READ (R436): Storage command reading LBAs to host memory in JSN order. -/
  | read (slot : Fin 8192)
  /-- WRITE (R436): Storage command writing LBAs into the write buffer, durable with FUA. -/
  | write (slot : Fin 8192)
  /-- FLUSH (R436): Storage command completing when every earlier write and trim is durable. -/
  | flush (slot : Fin 8192)
  /-- TRIM (R436): Storage command unmapping metadata units and whole strands. -/
  | trim (slot : Fin 8192)
  /-- IDENTIFY (R436): Storage command writing the 4,096-byte identify data. -/
  | identify (slot : Fin 8192)
  /-- SELF_TEST (R443): Storage command starting a short or extended self-test or aborting one. -/
  | selfTest (slot : Fin 8192) (failed : Option (BitVec 8))
  /-- GET_LOG (R437): Storage command returning the health, self-test, journal or programs log. -/
  | getLog (slot : Fin 8192)
  /-- POWER_STATE (R514): Storage command entering PS1, PS2 or PS3 or waking to PS0. -/
  | powerState (slot : Fin 8192)
  /-- PROGRAM_LOAD (R438): Job command checking and holding a Voxica binary; `place` is where in HBM the Gaffer holds it. -/
  | programLoad (slot : Fin 8192) (place : BitVec 48)
  /-- PROGRAM_UNLOAD (R438): Job command freeing a loaded program not in use. -/
  | programUnload (slot : Fin 8192)
  /-- JOB_START (R439): Job command checking a descriptor, agreeing fingerprints and launching a job; the runtime's launches in list order, and where in HBM it places the parameter block. -/
  | jobStart (slot : Fin 8192) (l : List Launch) (param : BitVec 48)
  /-- JOB_STOP (R438): Job command ending a job at the next commit point or at once. -/
  | jobStop (slot : Fin 8192)
  /-- JOB_WAIT (R438): Job command completing when a job has ended. -/
  | jobWait (slot : Fin 8192)
  /-- CHECKPOINT (R484): Job command copying the newest complete commit image to host memory. -/
  | checkpoint (slot : Fin 8192)
  /-- SPARE_REMAP (R490): Job command substituting a tested field spare for a logical tile. -/
  | spareRemap (slot : Fin 8192) (ok : Bool)
  /-- LOCKSTEP_PAIR (R493): Job command pairing or unpairing a job with its partner device. -/
  | lockstepPair (slot : Fin 8192)
  /-- GROUP_JOIN (R438): Job command admitting the device to a group and optionally hosting its UCB. -/
  | groupJoin (slot : Fin 8192)
  /-- GROUP_LEAVE (R438): Job command leaving a group. -/
  | groupLeave (slot : Fin 8192)
  /-- JOB_AGREEMENT (R439): Devices write fingerprint entries and device 0 sets the verdict or the wait times out. -/
  | jobAgreement (slot : Fin 8192) (timeout : Bool)
  /-- CRING_ENTRY_WRITE (R435): A completion ring entry waiting for room is written when TAIL advances. -/
  | cringEntryWrite (ring : Fin 64)
  /-- HI_CRING_ENABLE (R435): HI_CRING_CTRL EN 0 to 1 zeroes HEAD and TAIL; EN 0 discards waiting entries. -/
  | hiCringEnable (ring : Fin 64) (v : Word)
  /-- JOURNAL_MIRROR (R448): Journal entries are mirrored to flash within 10 ms of each write. -/
  | journalMirror 
  /-- SELF_TEST_YIELD (R444): A self-test releases its resources within 1 ms of another command or Gather read. -/
  | selfTestYield 
  /-- SELF_TEST_RESUME (R444): A yielded self-test resumes after 10 ms without other work. -/
  | selfTestResume 
  /-- HBM_REFRESH (R452): The controllers refresh a stack, delaying accesses. -/
  | hbmRefresh (stack : Fin 24)
  /-- LEHR_GO (R467): LEHR_CTRL GO checks the range and starts a scrub pass. -/
  | lehrGo (v : Word)
  /-- LEHR_ABORT (R468): LEHR_CTRL ABORT ends the running pass with SCRUB_ABORTED. -/
  | lehrAbort 
  /-- LEHR_PASS_DONE (R468): A scrub pass finishes, sets SUCCESS and optionally adds to its counter. -/
  | lehrPassDone 
  /-- CANARY_TRIP (R491): A canary line completes late, counts and may mark the slot suspect. -/
  | canaryTrip (tile : Fin 768) (path : Fin 4)
  /-- HEALTH_DECAY (R478): Every TICK_H hours the fault mass decays and the score is recomputed. -/
  | healthDecay
  /-- COMMIT_POINT (R481): At a commit batch the job is held, drained and imaged, then agreed and released. -/
  | commitPoint (job : BitVec 16) (b : Word)
  /-- COMMIT_AGREEMENT_RELEASE (R481): All agreement entries match and device 0 writes the release word. -/
  | commitAgreementRelease (job : BitVec 16)
  /-- COMMIT_TIMEOUT (R481): Commit agreement passes AGREE_MS and COMMIT_TIMEOUT is raised. -/
  | commitTimeout (job : BitVec 16)
  /-- COMMIT_SET (R480): Fault command setting commit interval, image areas and regions for a job. -/
  | commitSet 
  /-- RECOVER (R487): Fault command rolling a job back to a commit point and replaying it. -/
  | recover 
  /-- MARGIN (R492): Fault command testing a slot with shortened matched delays. -/
  | margin (failed : BitVec 4)
  /-- LOCKSTEP_DIGEST (R495): A partner digest arrives and is compared, freezing the job on divergence. -/
  | lockstepDigest (key : Nat) (batch : Word) (dg : Bytes)
  /-- LOCKSTEP_TIMEOUT (R495): A digest finds no partner digest within FLT_LS_TIMEOUT and the job freezes. -/
  | lockstepTimeout 
  /-- POWER_ON_RESET (R501): PWR_GOOD low or a supply detector trip asserts a cold reset. -/
  | powerOnReset (cause : BitVec 2)
  /-- RESET_IN_N_PULSE (R502): An accepted RESET_IN_N low pulse asserts a warm or cold reset by RESET_KIND. -/
  | resetInNPulse (kind : Bool)
  /-- BRING_UP (R508): Reset release starts the fixed bring-up sequence. -/
  | bringUp 
  /-- CLK_READY (R507): Clocks and PLLs lock and bring-up continues. -/
  | clkReady 
  /-- FUSE_LOAD (R504): The fuse sequencer loads fuse blocks, retrying after 1 ms or entering FUSE_FAIL. -/
  | fuseLoad (f : Fuses)
  /-- CORE_VR_PG (R507): The core regulator's power-good input rises and the Gaffer boots. -/
  | coreVrPg (v : Bool)
  /-- GAFFER_BOOT (R522): The boot ROM verifies and starts Gaffer firmware from a bank, falling back if invalid. -/
  | gafferBoot 
  /-- FILL_DONE (R463): HBM and tile-store fills complete and FILL_DONE is set. -/
  | fillDone (ok : BitVec 24)
  /-- RUNTIME_LAUNCH (R508): The Gaffer verifies the runtime and releases its launch tile; `l` is what the Gaffer gives the runtime's first context. -/
  | runtimeLaunch (l : Launch)
  /-- BRING_UP_FAILED (R509): A step fails or misses its latest time and bring-up stops with FAULT_N low. -/
  | bringUpFailed (st : Status)
  /-- BLK_RESET (R510): BLK_RESET GO quiesces then resets one engine instance. -/
  | blkReset (v : Word)
  /-- WAKE_EVENT (R515): An enabled wake source fires and the wake sequence starts. -/
  | wakeEvent (src : BitVec 5)
  /-- WAKE_TIMER (R515): WAKE_TIMER expires in PS1 to PS3 and wakes the device. -/
  | wakeTimer 
  /-- WAKE (R516): The device restores supplies, clocks, memory and logic back to PS0. -/
  | wake 
  /-- REL_NAND (R505): PAD_CTRL REL_NAND releases the NAND pads. -/
  | relNand 
  /-- REL_ETH (R505): PAD_CTRL REL_ETH releases the Ethernet pads. -/
  | relEth 
  /-- OP_POINT_EVAL (R535): Every 1 ms the core voltage is lowered or raised by 5 mV against cap and thermal target. -/
  | opPointEval (tj : BitVec 16) (power : BitVec 12)
  /-- PWR_VSET_WRITE (R534): A set-point write takes effect, or is stored until a PACED job ends. -/
  | pwrVsetWrite (v : Word)
  /-- THERMAL_TRIP (R536): TJ_MAX reaching TRIP stops issue and handshakes and sets TRIPPED. -/
  | thermalTrip (tj : BitVec 16)
  /-- THERMAL_TRIP_RELEASE (R536): TJ_MAX falling 10 degC below TRIP restarts handshakes and clears TRIPPED. -/
  | thermalTripRelease (tj : BitVec 16)
  /-- REFCLK_LOSS (R548): A missing REFCLK100 stops issue, handshakes, timestamp and tick and drives FAULT_N. -/
  | refclkLoss 
  /-- REFCLK_RETURN (R548): REFCLK100 returns, CLK_READY rises and issue resumes. -/
  | refclkReturn 
  /-- I3C_CAP_WRITE (R554): The board controller writes BMC_CAP_W over I3C. -/
  | i3cCapWrite (v : BitVec 16)
  /-- I3C_WAKE (R554): A write to the I3C WAKE register is the I3C wake event. -/
  | i3cWake 
  /-- STAGE (R527): Security command checking an image and writing it to the non-booted bank; `ok`: the firmware store takes the write. -/
  | stage (ok : Bool)
  /-- ACTIVATE (R527): Security command selecting the other bank for the next reset; `ok`: the firmware store reads and takes the write. -/
  | activate (ok : Bool)
  /-- COMMIT_SVN (R527): Security command blowing rollback fuses to the booted SVNs. -/
  | commitSvn 
  /-- REVOKE_KEY (R527): Security command blowing a key slot's revocation bit. -/
  | revokeKey 
  /-- ATTEST (R528): Security command building and signing a job attestation report. -/
  | attest 
  /-- GET_VERSION (R529): SPDM request returning supported versions. -/
  | getVersion (m : Bytes)
  /-- GET_CAPABILITIES (R529): SPDM request returning capabilities. -/
  | getCapabilities (m : Bytes)
  /-- NEGOTIATE_ALGORITHMS (R529): SPDM request selecting SLH-DSA-SHAKE-256f and SHAKE256. -/
  | negotiateAlgorithms (m : Bytes)
  /-- GET_DIGESTS (R529): SPDM request returning certificate chain digests of slot 0. -/
  | getDigests (m : Bytes)
  /-- GET_CERTIFICATE (R529): SPDM request returning the slot 0 certificate chain. -/
  | getCertificate (m : Bytes)
  /-- CHALLENGE (R529): SPDM challenge signed with the identity key. -/
  | challenge (m : Bytes)
  /-- GET_MEASUREMENTS (R529): SPDM request returning M0 to M3 or a job's attestation report. -/
  | getMeasurements (m : Bytes)
  /-- REGISTER_WRITE (R6): A write to a register with no row of its own updates fields by their access codes and ranges. -/
  | registerWrite (pa : Word) (v : Word) (priv : BitVec 2)
  /-- HDM_ACCESS (R429): A host read or write over CXL.mem to the HDM window is served from HBM, with poison on an uncorrectable read and an error response on a failed merge. -/
  | hdmAccess (a : Word) (w : Option Bytes) (len : Nat)
  /-- HDM_DECODER_COMMIT (R429): The host commits or releases its HDM decoder for the window, setting or clearing HI_HDM.LOCKED. -/
  | hdmDecoderCommit (commit : Bool)
  /-- CXL_LINK_TRAINING (R426): The CXL link trains, in CXL 4.0 or PCIe 7.0 fall-back mode, or goes down, setting LINK_CXL and deciding whether GOs and HDM accesses can reach the device. -/
  | cxlLinkTraining (up : Bool) (cxl : Bool) (lanes : BitVec 5) (gtps : BitVec 8)
  /-- PERST_N (R546): PERST_N falling holds the CXL link in reset without resetting the device, and rising lets it train. -/
  | perstN (level : Bool)
  /-- PFC_PAUSE_EXPIRY (R392): The pause time given by a received PFC frame runs out and transmission of that priority resumes. -/
  | pfcPauseExpiry (p : Fin 96) (prio : Fin 8)
  /-- IDE_KM (R425): An IDE_KM request over the DOE mailbox installs or changes the link encryption keys. -/
  | ideKm (m : Bytes)
  /-- SECURE_SESSION (R529): SPDM secure session messages set up or end a secure session with keys kept in the Gaffer. -/
  | secureSession (m : Bytes)
  deriving DecidableEq, Repr

end Sys2Proof
end

