-- ==== Sys2Proof/Machine/Codes.lean ====
section
/-! DEFINITION. Status codes by class (R9-R11): protection (R108), decode (R254), compression (R283), text (R317), transport (R360), media (R424), memory (R470), host (R451), stream (R230), faults (R500). -/

namespace Sys2Proof.Machine

/-- SUCCESS (R9). -/
def stOk : Status := 0x0000
def stOutOfBounds : Status := 0x0101
def stKeyMismatch : Status := 0x0102
def stRightsDenied : Status := 0x0103
def stPkeyDenied : Status := 0x0104
def stPrivilege : Status := 0x0105
def stMalformed : Status := 0x0106
def stUnbound : Status := 0x0107
def stMasterFrozen : Status := 0x0108
def stPageNotPresent : Status := 0x0109
def stTableMalformed : Status := 0x010A
def stIllegal : Status := 0x010B
def stMisaligned : Status := 0x010C
def stSeqtag : Status := 0x010D
def stStepOverflow : Status := 0x010E

def stPeerUnreachable : Status := 0x0501
def stQpFatal : Status := 0x0502
def stQpStateInvalid : Status := 0x0503
def stUntaggedQp : Status := 0x0504
def stVersionUnsupported : Status := 0x0505
def stServiceRefused : Status := 0x0506
def stSequenceError : Status := 0x0507
def stRemoteWaitTimeout : Status := 0x0508
def stLocalFaultAborted : Status := 0x0509
def stWrFlushed : Status := 0x050A
def stOpUnsupported : Status := 0x050B
def stMrIndexBusy : Status := 0x050C
def stQpInUse : Status := 0x050D
def stCommandInvalid : Status := 0x050E
def stRemoteAborted : Status := 0x050F

def stUncSector : Status := 0x0701
def stAddrMismatch : Status := 0x0702
def stUncWord : Status := 0x0703
def stScrubRange : Status := 0x0704
def stScrubAborted : Status := 0x0705
def stHbmTraining : Status := 0x0706
def stInterleave : Status := 0x0707

def stHostNotEnabled : Status := 0x0801
def stOpcodeInvalid : Status := 0x0802
def stFieldInvalid : Status := 0x0803
def stDataAccess : Status := 0x0804
def stJobDescInvalid : Status := 0x0805
def stJobDescInconsistent : Status := 0x0806
def stDeviceBusy : Status := 0x0807
def stPaceUnreachable : Status := 0x0808
def stBinaryUnsupported : Status := 0x0809
def stProgramLimit : Status := 0x080A
def stProgramInUse : Status := 0x080B
def stJobNotFound : Status := 0x080C
def stSelfTestBusy : Status := 0x080D
def stSelfTestFailed : Status := 0x080E
def stCommandAborted : Status := 0x080F
def stJournalRange : Status := 0x0810
def stCheckpointSmall : Status := 0x0811
def stGroupInvalid : Status := 0x0812

def stResidue : Status := 0x0A01
def stFlag : Status := 0x0A02
def stCanary : Status := 0x0A03
def stOrderStall : Status := 0x0A04
def stOrderDefect : Status := 0x0A05
def stOrderCollision : Status := 0x0A06
def stInterrupted : Status := 0x0A07
def stQuiesceTimeout : Status := 0x0A08
def stNoFieldSpare : Status := 0x0A09
def stSlotNotSpare : Status := 0x0A0A
def stRemapState : Status := 0x0A0B
def stSpareTest : Status := 0x0A0C
def stCommitSmall : Status := 0x0A0D
def stCommitHeld : Status := 0x0A0E
def stCommitTimeout : Status := 0x0A0F
def stRecoveryInvalid : Status := 0x0A10
def stRecoveryFailed : Status := 0x0A11
def stRecoveryUnsupported : Status := 0x0A12
def stLockstepInvalid : Status := 0x0A13
def stLockstepDiverged : Status := 0x0A14
def stLockstepTimeout : Status := 0x0A15
def stMarginFailed : Status := 0x0A16
def stFaultCommand : Status := 0x0A17

end Sys2Proof.Machine
end

