-- ==== Sys2Proof/Config.lean ====
section
/-! DEFINITION. What an implementation fixes and the manual leaves open: free values (opaque, so no proof can see a value of one) and the constants of one SX-9600. -/

namespace Sys2Proof.Config

/-- A free byte (log 4): what the manual calls undefined where the machine goes on (R146, R241, R267, R280). -/
opaque freeByte : Nat → Byte

/-- A free word (log 4). -/
opaque freeWord : Nat → Word

/-- A free choice between two outcomes the manual both allows (log 4): R90, R502, R511. -/
opaque freeBool : Nat → Bool

/-- The epoch of a batch of a job that has opened no batch stream, which R180 and R206 leave without an assignment (log 14). -/
opaque freeEpoch : Nat → Nat

/-- The device's unique secret (R525), 32 bytes that no register returns: index 0-31 (log 5). -/
opaque deviceSecret : Nat → Byte

/-- The randomizer of a hedged SLH-DSA signature (FIPS 205), which R519 leaves open: byte k of signature number n (log 5). -/
opaque signRandom : Nat → Nat → Byte

/-- A byte of a message whose layout only an outside standard fixes (DSP0274, IDE_KM), at position k of reply number n (log 6). -/
opaque replyByte : Nat → Nat → Byte

/-- SHAKE256 of the boot ROM code, fixed at manufacture (R524): byte k (log 5). -/
opaque bootRomDigest : Nat → Byte

/-- Populated HBM flat bytes: 421,875,000 granules of 4 KiB (R26). -/
def hbmSize : Nat := 0x019254D38000

/-- Populated bytes of one stack (R26, R452). -/
def stackSize : Nat := 0x10C388D000

/-- Handshake period of REFCLK100 in ns (R547): one idle step's time. -/
def refPeriodNs : Nat := 10

/-- Configured reference clock frequency in kHz (R547). -/
def refclkKhz : Nat := 100000

end Sys2Proof.Config
end

