-- ==== Sys2Proof/Machine/Tab.lean ====
section
/-! DEFINITION. Operations over sparse tables, byte memories and byte strings: the canonical form (keys strictly rising, no entry at the default), reads, writes, whole-range copies, and little-endian conversion (R2). -/

namespace Sys2Proof.Machine

/-- What key `k` of a table reads as; an unlisted key reads as `d`. -/
def tabGet {β : Type} (d : β) : Tab β → Nat → β
  | [], _ => d
  | (j, v) :: r, k => if j = k then v else tabGet d r k

/-- The table without key `k`. -/
def tabErase {β : Type} (m : Tab β) (k : Nat) : Tab β := m.filter fun e => e.1 ≠ k

/-- Put an entry at its place in rising key order. -/
def tabInsert {β : Type} : Tab β → Nat → β → Tab β
  | [], k, v => [(k, v)]
  | (j, w) :: r, k, v => if k < j then (k, v) :: (j, w) :: r else (j, w) :: tabInsert r k v

/-- Write key `k`: storing the default removes the entry, so equal tables are equal data. -/
def tabSet {β : Type} [DecidableEq β] (d : β) (m : Tab β) (k : Nat) (v : β) : Tab β :=
  if v = d then tabErase m k else tabInsert (tabErase m k) k v

/-- Keys strictly rising above `lo`. -/
def tabSorted {β : Type} : Option Nat → Tab β → Bool
  | _, [] => true
  | none, (k, _) :: r => tabSorted (some k) r
  | some j, (k, _) :: r => decide (j < k) && tabSorted (some k) r

/-- The canonical form: keys strictly rising and no entry equal to the default. -/
def tabWf {β : Type} [DecidableEq β] (d : β) (m : Tab β) : Bool :=
  tabSorted none m && m.all fun e => e.2 ≠ d

/-- Canonical form of a byte memory whose unlisted bytes read as zero (R463). -/
def memWf (m : Mem) : Bool := tabWf 0 m

/-- An entry that may be absent. -/
def kvGet {β : Type} : List (Nat × β) → Nat → Option β
  | [], _ => none
  | (j, v) :: r, k => if j = k then some v else kvGet r k

/-- Set an entry that may be absent. -/
def kvSet {β : Type} (m : List (Nat × β)) (k : Nat) (v : β) : List (Nat × β) := tabInsert (tabErase m k) k v

/-- Remove an entry. -/
def kvDel {β : Type} (m : List (Nat × β)) (k : Nat) : List (Nat × β) := tabErase m k

/-- Change an entry where it is present. -/
def kvUpd {β : Type} (m : List (Nat × β)) (k : Nat) (f : β → β) : List (Nat × β) :=
  m.map fun e => if e.1 = k then (e.1, f e.2) else e

/-- Cells of `[base, base + len)`, renumbered from zero. -/
def memSlice (m : Mem) (base len : Nat) : Mem :=
  (m.filter fun c => decide (base ≤ c.1 ∧ c.1 < base + len)).map fun c => (c.1 - base, c.2)

/-- The canonical memory that reads as `m`: of two entries with one address the first counts. -/
def memNorm (m : Mem) : Mem := m.foldr (fun c t => tabSet 0 t c.1 c.2) []

/-- `m` itself where it has the canonical form, else the canonical memory that reads as it. -/
def memCanon (m : Mem) : Mem := if memWf m then m else memNorm m

/-- Replace `[base, base + len)` by the first `len` bytes of `src`, whose unlisted bytes are zero. -/
def memBlit (m : Mem) (base len : Nat) (src : Mem) : Mem :=
  (m.filter fun c => decide (c.1 < base)) ++
  (memCanon (src.filter fun c => decide (c.1 < len))).map (fun c => (base + c.1, c.2)) ++
  (m.filter fun c => decide (base + len ≤ c.1))

/-- Cells of `src` moved up by `off`. -/
def memShift (src : Mem) (off : Nat) : Mem := src.map fun c => (off + c.1, c.2)

/-- A byte string as sparse cells from offset `i`. -/
def memOfBytes (i : Nat) : Bytes → Mem
  | [] => []
  | b :: r => if b = 0 then memOfBytes (i + 1) r else (i, b) :: memOfBytes (i + 1) r

/-- The first `n` bytes of a sparse memory from offset `i`, as a byte string. -/
def memBytes (m : Mem) (i : Nat) : Nat → Bytes
  | 0 => []
  | n + 1 => tabGet 0 m i :: memBytes m (i + 1) n

/-- Write a byte string at an address. -/
def memWrite (m : Mem) (base : Nat) (b : Bytes) : Mem := memBlit m base b.length (memOfBytes 0 b)

/-- Little-endian value of a byte string (R2). -/
def leNat : Bytes → Nat
  | [] => 0
  | b :: r => b.toNat + 256 * leNat r

/-- `n` little-endian bytes of a number (R2). -/
def leBytes : Nat → Nat → Bytes
  | 0, _ => []
  | n + 1, x => BitVec.ofNat 8 x :: leBytes n (x / 256)

/-- `n` big-endian bytes of a number. -/
def beBytes (n x : Nat) : Bytes := (leBytes n x).reverse

/-- Big-endian value of a byte string. -/
def beNat (b : Bytes) : Nat := leNat b.reverse

/-- Little-endian number of `n` bytes of a sparse memory at `i`. -/
def memNat (m : Mem) (i n : Nat) : Nat := leNat (memBytes m i n)

/-- Bits `lo` to `lo + w - 1` of a number. -/
def bitsAt (x lo w : Nat) : Nat := (x >>> lo) % 2 ^ w

/-- Bit `i` of a number. -/
def bitOf (x i : Nat) : Bool := x.testBit i

/-- A bit as a number. -/
def b2n (b : Bool) : Nat := if b then 1 else 0

/-- Number of `n` zero bytes. -/
def zeros (n : Nat) : Bytes := List.replicate n 0

/-- The bytes of an ASCII string. -/
def ascii (t : String) : Bytes := t.toList.map fun c => BitVec.ofNat 8 c.toNat

/-- The slice of a byte string from `i`, `n` bytes, zero-padded. -/
def sub (b : Bytes) (i n : Nat) : Bytes := let t := (b.drop i).take n; t ++ zeros (n - t.length)

/-- Little-endian number in a byte string. -/
def subNat (b : Bytes) (i n : Nat) : Nat := leNat ((b.drop i).take n)

/-- Pad a byte string with zeros to a multiple of `k`. -/
def padTo (k : Nat) (b : Bytes) : Bytes := b ++ zeros ((k - b.length % k) % k)

/-- Ceiling of a quotient. -/
def ceilDiv (a b : Nat) : Nat := (a + b - 1) / b

/-- Replace one element of a list. -/
def listSet {α : Type} (l : List α) (i : Nat) (v : α) : List α := l.set i v

/-- Ascending numbers `lo .. lo + n - 1`. -/
def rangeFrom (lo n : Nat) : List Nat := (List.range n).map (lo + ·)

end Sys2Proof.Machine
end

