-- ==== Sys2Proof/Machine/Hash.lean ====
section
/-! DEFINITION. CRC-32C (R189), CRC-32 and Adler-32 (the PNG, gzip and zlib checks the decoders use), SHAKE256 (FIPS 202), and the SCG generator (R179, R183, R185). -/

namespace Sys2Proof.Machine

/-- One bit of a reflected CRC register with reversed polynomial `poly`. -/
def crcBit (poly c : Nat) : Nat := if c % 2 = 1 then (c / 2).xor poly else c / 2

/-- `n` bits of a reflected CRC register. -/
def crcBits (poly : Nat) : Nat → Nat → Nat
  | 0, c => c
  | n + 1, c => crcBits poly n (crcBit poly c)

/-- Feed bytes into a reflected CRC register. -/
def crcFeed (poly : Nat) (c : Nat) (b : Bytes) : Nat := b.foldl (fun c x => crcBits poly 8 (c.xor x.toNat)) c

/-- CRC-32C of a byte string (R189): reversed polynomial 0x82F63B78, initial value and final XOR all ones. -/
def crc32c (b : Bytes) : Nat := (crcFeed 0x82F63B78 0xFFFFFFFF b).xor 0xFFFFFFFF

/-- CRC-32 of ISO 3309, as PNG chunks and gzip members use it. -/
def crc32 (b : Bytes) : Nat := (crcFeed 0xEDB88320 0xFFFFFFFF b).xor 0xFFFFFFFF

/-- Adler-32 of a zlib stream. -/
def adler32 (b : Bytes) : Nat :=
  let r := b.foldl (fun (p : Nat × Nat) x => let a := (p.1 + x.toNat) % 65521; (a, (p.2 + a) % 65521)) (1, 0)
  r.2 * 65536 + r.1

/-- Rotate a 64-bit lane left. -/
def rotl64 (x n : Nat) : Nat := if n % 64 = 0 then x else ((x <<< (n % 64)) % 2 ^ 64).lor (x >>> (64 - n % 64))

/-- Rotate a 32-bit word left. -/
def rotl32 (x n : Nat) : Nat := if n % 32 = 0 then x else ((x <<< (n % 32)) % 2 ^ 32).lor (x >>> (32 - n % 32))

/-- Rotation offsets of Keccak's rho step, lane x + 5 y. -/
def keccakRho : List Nat := [0, 1, 62, 28, 27, 36, 44, 6, 55, 20, 3, 10, 43, 25, 39, 41, 45, 15, 21, 8, 18, 2, 61, 56, 14]

/-- Round constants of Keccak-f[1600]. -/
def keccakRc : List Nat :=
  [0x0000000000000001, 0x0000000000008082, 0x800000000000808A, 0x8000000080008000, 0x000000000000808B, 0x0000000080000001,
   0x8000000080008081, 0x8000000000008009, 0x000000000000008A, 0x0000000000000088, 0x0000000080008009, 0x000000008000000A,
   0x000000008000808B, 0x800000000000008B, 0x8000000000008089, 0x8000000000008003, 0x8000000000008002, 0x8000000000000080,
   0x000000000000800A, 0x800000008000000A, 0x8000000080008081, 0x8000000000008080, 0x0000000080000001, 0x8000000080008008]

/-- One round of Keccak-f[1600] on 25 lanes. -/
def keccakRound (a : List Nat) (rc : Nat) : List Nat :=
  let g := fun (l : List Nat) i => l.getD i 0
  let c := (List.range 5).map fun x => (List.range 5).foldl (fun t y => t.xor (g a (x + 5 * y))) 0
  let d := (List.range 5).map fun x => (g c ((x + 4) % 5)).xor (rotl64 (g c ((x + 1) % 5)) 1)
  let a1 := (List.range 25).map fun i => rotl64 ((g a i).xor (g d (i % 5))) (g keccakRho i)
  -- lane (x, y) of the permuted state comes from lane (x + 3 y, x)
  let b := (List.range 25).map fun i => let x := i % 5; let y := i / 5; g a1 ((x + 3 * y) % 5 + 5 * x)
  let e := (List.range 25).map fun i =>
    let x := i % 5; let y := i / 5
    (g b i).xor (((2 ^ 64 - 1).xor (g b ((x + 1) % 5 + 5 * y))).land (g b ((x + 2) % 5 + 5 * y)))
  match e with
  | [] => []
  | h :: t => (h.xor rc) :: t

/-- The 24 rounds of Keccak-f[1600]. -/
def keccakF (a : List Nat) : List Nat := keccakRc.foldl keccakRound a

/-- XOR a 136-byte block into the first 17 lanes. -/
def keccakAbsorb (a : List Nat) (blk : Bytes) : List Nat :=
  keccakF ((List.range 25).map fun i => (a.getD i 0).xor (if i < 17 then subNat blk (8 * i) 8 else 0))

/-- Cut a byte string into blocks of `k` bytes; `fuel` bounds the count. -/
def blocksOf (k : Nat) : Nat → Bytes → List Bytes
  | 0, _ => []
  | f + 1, b => if b.isEmpty then [] else b.take k :: blocksOf k f (b.drop k)

/-- SHAKE256 padding of a message to whole 136-byte blocks (FIPS 202). -/
def shakePad (m : Bytes) : Bytes :=
  let r := 136 - m.length % 136
  if r = 1 then m ++ [0x9F] else m ++ [0x1F] ++ zeros (r - 2) ++ [0x80]

/-- Squeeze `n` blocks of 136 bytes. -/
def shakeSqueeze : Nat → List Nat → Bytes
  | 0, _ => []
  | n + 1, a => ((List.range 17).flatMap fun i => leBytes 8 (a.getD i 0)) ++ shakeSqueeze n (keccakF a)

/-- SHAKE256 of a message with `n` bytes of output. -/
def shake256 (n : Nat) (m : Bytes) : Bytes :=
  let p := shakePad m
  let a := (blocksOf 136 (p.length / 136) p).foldl keccakAbsorb (List.replicate 25 0)
  (shakeSqueeze (ceilDiv n 136) a).take n

/-- SHAKE256 with the 32 bytes every digest of the device uses. -/
def shake (m : Bytes) : Bytes := shake256 32 m

/-- Key of purpose `p`, seed and epoch `e` (R179): bytes 0 to 15 of SHAKE256 (seed, e, p). -/
def scgKey (seed : Bytes) (e p : Nat) : Bytes := (shake (sub seed 0 32 ++ leBytes 8 e ++ leBytes 2 p)).take 16

/-- The 128-bit counter of R183. -/
def scgCounter (purpose subject draw : Nat) : Nat :=
  (purpose % 2 ^ 16) * 2 ^ 112 + (subject % 2 ^ 64) * 2 ^ 48 + draw % 2 ^ 48

/-- One round of SCG (R185) with base words `b0`, `b1`. -/
def scgRound (b0 b1 r : Nat) (x : Nat × Nat × Nat × Nat) : Nat × Nat × Nat × Nat :=
  let r0 := (b0 + r * 0x9E3779B9) % 2 ^ 32
  let r1 := (b1 + r * 0xBB67AE85) % 2 ^ 32
  let p := 0xA5C34F1B * x.1
  let q := 0xE7D18B29 * x.2.2.1
  (((q >>> 32).xor x.2.2.2).xor r0, rotl32 (q % 2 ^ 32) 13, ((p >>> 32).xor x.2.1).xor r1, rotl32 (p % 2 ^ 32) 5)

/-- The ten rounds of SCG from round `r`. -/
def scgRounds (k0 k1 k2 k3 : Nat) : Nat → Nat → Nat × Nat × Nat × Nat → Nat × Nat × Nat × Nat
  | 0, _, x => x
  | n + 1, r, x => scgRounds k0 k1 k2 k3 n (r + 1) (if r % 2 = 0 then scgRound k0 k1 r x else scgRound k2 k3 r x)

/-- SCG (R185): the 128-bit output for a 16-byte key and a 128-bit counter. -/
def scg (key : Bytes) (ctr : Nat) : Nat :=
  let y := scgRounds (subNat key 0 4) (subNat key 4 4) (subNat key 8 4) (subNat key 12 4) 10 0
    (bitsAt ctr 0 32, bitsAt ctr 32 32, bitsAt ctr 64 32, bitsAt ctr 96 32)
  y.1 + y.2.1 * 2 ^ 32 + y.2.2.1 * 2 ^ 64 + y.2.2.2 * 2 ^ 96

end Sys2Proof.Machine
end

