-- ==== Sys2Proof/Machine/Inflate.lean ====
section
/-! DEFINITION. The inflater of the codec complex: DEFLATE, zlib and gzip streams (R233), with the position of the first error (R245, R246) and the input byte behind each output byte (R248). -/

namespace Sys2Proof.Machine

/-- Input bytes of a decoder. -/
abbrev Arr := Array Byte
/-- Byte i of an input, zero past its end. -/
def ab (a : Arr) (i : Nat) : Nat := (a.getD i 0).toNat
/-- Little-endian number of n bytes at i. -/
def aLe (a : Arr) (i n : Nat) : Nat := (List.range n).foldr (fun k t => ab a (i + k) + 256 * t) 0
/-- Big-endian number of n bytes at i. -/
def aBe (a : Arr) (i n : Nat) : Nat := (List.range n).foldl (fun t k => 256 * t + ab a (i + k)) 0
/-- Bytes `[i, j)` of an input as a list. -/
def aSub (a : Arr) (i j : Nat) : Bytes := (a.extract i j).toList
/-- Bit p of an input, least significant bit of each byte first. -/
def bitLsb (a : Arr) (p : Nat) : Nat := ab a (p / 8) / 2 ^ (p % 8) % 2
/-- n bits from bit p, first bit least significant. -/
def bitsLsb (a : Arr) (p n : Nat) : Nat := (List.range n).foldl (fun t k => t + bitLsb a (p + k) * 2 ^ k) 0

/-- A canonical Huffman code: number of codes of each length, and symbols in code order. -/
structure Huff where
  count : Array Nat
  syms : Array Nat
  /-- Unused code space in units of 2^-15; negative when over-subscribed. -/
  left : Int
/-- Build the canonical code of a list of code lengths. -/
def mkHuff (lens : List Nat) : Huff :=
  let count := (List.range 16).map fun l => (lens.filter (· = l)).length
  let syms := (List.range 15).flatMap fun l => lens.zipIdx.filterMap fun e => if e.1 = l + 1 then some e.2 else none
  let left := (List.range 15).foldl (fun (t : Int) l => 2 * t - (count.getD (l + 1) 0 : Int)) 1
  { count := count.toArray, syms := syms.toArray, left := left }
/-- A code that RFC 1951 decoders accept: complete, or a single code of one bit. -/
def huffOk (h : Huff) (lens : List Nat) : Bool := h.left = 0 || (decide (0 < h.left) && (lens.filter (· ≠ 0)).length ≤ 1 && (lens.all (· ≤ 1)))

/-- Outcome of decoding one symbol. -/
inductive SymR where
  | ok (sym pos : Nat)
  | trunc
  | bad
/-- Decode one symbol at bit `p`; `stop` is the end of the input in bits. -/
def symGo (a : Arr) (stop : Nat) (h : Huff) : Nat → Nat → Nat → Nat → Nat → Nat → SymR
  | 0, _, _, _, _, _ => .bad
  | f + 1, len, p, code, first, index =>
    if stop ≤ p then .trunc
    else
      let code := 2 * code + bitLsb a p
      let n := h.count.getD len 0
      if code < first + n then .ok (h.syms.getD (index + (code - first)) 0) (p + 1)
      else symGo a stop h f (len + 1) (p + 1) code (2 * (first + n)) (index + n)
/-- Decode one symbol. -/
def symAt (a : Arr) (stop : Nat) (h : Huff) (p : Nat) : SymR := symGo a stop h 15 1 p 0 0 0

/-- Base lengths and extra bits of length symbols 257 to 285 (RFC 1951). -/
def lenBase : List Nat := [3, 4, 5, 6, 7, 8, 9, 10, 11, 13, 15, 17, 19, 23, 27, 31, 35, 43, 51, 59, 67, 83, 99, 115, 131, 163, 195, 227, 258]
def lenExtra : List Nat := [0, 0, 0, 0, 0, 0, 0, 0, 1, 1, 1, 1, 2, 2, 2, 2, 3, 3, 3, 3, 4, 4, 4, 4, 5, 5, 5, 5, 0]
/-- Base distances and extra bits of distance symbols 0 to 29 (RFC 1951). -/
def distBase : List Nat :=
  [1, 2, 3, 4, 5, 7, 9, 13, 17, 25, 33, 49, 65, 97, 129, 193, 257, 385, 513, 769, 1025, 1537, 2049, 3073, 4097, 6145, 8193, 12289, 16385, 24577]
def distExtra : List Nat := [0, 0, 0, 0, 1, 1, 2, 2, 3, 3, 4, 4, 5, 5, 6, 6, 7, 7, 8, 8, 9, 9, 10, 10, 11, 11, 12, 12, 13, 13]
/-- Order in which code-length code lengths stand (RFC 1951). -/
def clOrder : List Nat := [16, 17, 18, 0, 8, 7, 9, 6, 10, 5, 11, 4, 12, 3, 13, 2, 14, 1, 15]

/-- An inflation in progress. -/
structure Inf where
  out : Array Byte := #[]
  /-- Input byte that holds the last bit of the code behind each output byte. -/
  src : Array Nat := #[]
  /-- Next bit. -/
  pos : Nat
  /-- First error: status and the bit where the failing code began. -/
  err : Option (Status × Nat) := none
  /-- Ordinal of the present block. -/
  blk : Nat := 0
  /-- More output than the limit. -/
  overLim : Bool := false
  fin : Bool := false

/-- Stop with an error. -/
def infErr (x : Inf) (st : Status) (p : Nat) : Inf := { x with err := some (st, p) }
/-- Ended by an error or by the limit. -/
def infDone (x : Inf) : Bool := x.err.isSome || x.overLim
/-- Append one output byte. -/
def infPut (x : Inf) (b : Byte) (s : Nat) : Inf := { x with out := x.out.push b, src := x.src.push s }
/-- Copy `n` bytes from `d` back; `base` is where the history of this stream begins in the output. -/
def infCopy (x : Inf) (d s : Nat) : Nat → Inf
  | 0 => x
  | n + 1 => infCopy (infPut x (x.out.getD (x.out.size - d) 0) s) d s n

/-- Decode the symbols of one block: literals, lengths and distances. -/
def infBlock (a : Arr) (stop base limit : Nat) (lit dist : Huff) : Nat → Inf → Inf
  | 0, x => x
  | f + 1, x =>
    let p := x.pos
    match symAt a stop lit p with
    | .trunc => infErr x 0x020B p
    | .bad => infErr x 0x020C p
    | .ok sym q =>
      if sym < 256 then
        if limit ≤ x.out.size then { x with overLim := true }
        else infBlock a stop base limit lit dist f { infPut x (BitVec.ofNat 8 sym) ((q - 1) / 8) with pos := q }
      else if sym = 256 then { x with pos := q }
      else if 285 < sym then infErr x 0x020C p
      else
        let k := sym - 257
        let e := lenExtra.getD k 0
        let len := lenBase.getD k 0 + bitsLsb a q e
        let p2 := q + e
        if stop < p2 then infErr x 0x020B p
        else match symAt a stop dist p2 with
          | .trunc => infErr x 0x020B p2
          | .bad => infErr x 0x020C p2
          | .ok ds r =>
            if 29 < ds then infErr x 0x020C p2
            else
              let de := distExtra.getD ds 0
              let d := distBase.getD ds 0 + bitsLsb a r de
              let z := r + de
              if stop < z then infErr x 0x020B p2
              else if x.out.size - base < d ∨ 32768 < d then infErr x 0x020C p2
              else
                let room := limit - x.out.size
                let y := infCopy x d ((z - 1) / 8) (min len room)
                if room < len then { y with overLim := true }
                else infBlock a stop base limit lit dist f { y with pos := z }

/-- Read the code lengths of a dynamic block: lengths, next bit, or the bit where reading failed with its status. -/
def clRead (a : Arr) (stop : Nat) (h : Huff) (need : Nat) : Nat → List Nat → Nat → Except (Status × Nat) (List Nat × Nat)
  | 0, _, p => .error (0x020C, p)
  | f + 1, acc, p =>
    if acc.length = need then .ok (acc, p)
    else match symAt a stop h p with
      | .trunc => .error (0x020B, p)
      | .bad => .error (0x020C, p)
      | .ok sym q =>
        if sym < 16 then clRead a stop h need f (acc ++ [sym]) q
        else
          let e := if sym = 16 then 2 else if sym = 17 then 3 else 7
          let n := bitsLsb a q e + (if sym = 18 then 11 else 3)
          let v := if sym = 16 then acc.getLast?.getD 0 else 0
          if stop < q + e then .error (0x020B, p)
          else if (sym = 16 ∧ acc = []) ∨ need < acc.length + n then .error (0x020C, p)
          else clRead a stop h need f (acc ++ List.replicate n v) (q + e)
/-- Fixed codes (RFC 1951). -/
def fixedLit : Huff := mkHuff (List.replicate 144 8 ++ List.replicate 112 9 ++ List.replicate 24 7 ++ List.replicate 8 8)
def fixedDist : Huff := mkHuff (List.replicate 32 5)
/-- A stored block: its bytes. -/
def infStored (a : Arr) (limit : Nat) : Nat → Inf → Inf
  | 0, x => x
  | n + 1, x =>
    if limit ≤ x.out.size then { x with overLim := true }
    else infStored a limit n { infPut x (a.getD (x.pos / 8) 0) (x.pos / 8) with pos := x.pos + 8 }
/-- One block from its header. -/
def infOne (a : Arr) (stop base limit : Nat) (x : Inf) : Inf :=
  let p := x.pos
  if stop < p + 3 then infErr x 0x020B p
  else
    let fin := bitLsb a p = 1
    let ty := bitsLsb a (p + 1) 2
    let y := { x with pos := p + 3 }
    let z :=
      if ty = 0 then
        let q := (p + 3 + 7) / 8
        if stop / 8 < q + 4 then infErr y 0x020B p
        else
          let n := aLe a q 2
          if n + aLe a (q + 2) 2 ≠ 65535 then infErr y 0x020C p
          else
            let have_ := min n (stop / 8 - (q + 4))
            let w := infStored a limit have_ { y with pos := 8 * (q + 4) }
            if have_ < n ∧ !infDone w then infErr w 0x020B w.pos else w
      else if ty = 1 then infBlock a stop base limit fixedLit fixedDist (stop + 1) y
      else if ty = 2 then
        let hl := bitsLsb a (p + 3) 5 + 257
        let hd := bitsLsb a (p + 8) 5 + 1
        let hc := bitsLsb a (p + 13) 4 + 4
        let q := p + 17 + 3 * hc
        if stop < q then infErr y 0x020B p
        else if 286 < hl ∨ 30 < hd then infErr y 0x020C p
        else
          let cl := (List.range hc).map fun k => bitsLsb a (p + 17 + 3 * k) 3
          let lens := (List.range 19).map fun s => ((clOrder.zip cl).find? fun e => e.1 = s).map (·.2) |>.getD 0
          let h := mkHuff lens
          if h.left ≠ 0 then infErr y 0x020C p
          else match clRead a stop h (hl + hd) 321 [] q with
            | .error (st, e) => infErr y st e
            | .ok (ls, r) =>
              let ll := ls.take hl
              let dl := ls.drop hl
              let lh := mkHuff ll
              let dh := mkHuff dl
              if ll.getD 256 0 = 0 ∨ !huffOk lh ll ∨ !(huffOk dh dl || dl.all (· = 0)) then infErr y 0x020C p
              else infBlock a stop base limit lh dh (stop + 1) { y with pos := r }
      else infErr y 0x020C p
    { z with fin := fin && !infDone z }
/-- All blocks of a DEFLATE stream. -/
def infLoop (a : Arr) (stop base limit : Nat) : Nat → Inf → Inf
  | 0, x => x
  | f + 1, x =>
    let y := infOne a stop base limit x
    if infDone y || y.fin then y else infLoop a stop base limit f { y with blk := y.blk + 1 }
/-- Inflate from byte `i` up to byte `j`, appending to `x.out` and never past `limit` bytes in all. -/
def inflateAt (a : Arr) (i j limit : Nat) (x : Inf) : Inf :=
  infLoop a (8 * j) x.out.size limit (8 * j + 1) { x with pos := 8 * i, blk := 0, fin := false }
/-- First byte after the bits read. -/
def infEnd (x : Inf) : Nat := (x.pos + 7) / 8

/-- Outcome of a byte-stream decode. -/
structure StreamOut where
  out : Array Byte
  /-- First error: status, byte offset, gzip member, block, bit. -/
  err : Option (Status × Nat × Nat × Nat × Nat) := none
  overLim : Bool := false
  trailing : Bool := false

/-- Result of an inflation as a stream outcome. -/
def infOut (x : Inf) (member : Nat) : StreamOut :=
  { out := x.out, overLim := x.overLim, err := x.err.map fun e => (e.1, e.2 / 8, member, x.blk, e.2 % 8) }

/-- zlib header: status, or none when it is good (R233). -/
def zlibHeader (a : Arr) (i j : Nat) : Option Status :=
  if j < i + 2 then some 0x020B
  else
    let cmf := ab a i
    let flg := ab a (i + 1)
    if cmf % 16 ≠ 8 ∨ 7 < cmf / 16 ∨ (256 * cmf + flg) % 31 ≠ 0 then some 0x0202
    else if flg / 32 % 2 = 1 then some 0x0201
    else none
/-- A zlib stream in `[i, j)` (RFC 1950). -/
def zlibDecode (a : Arr) (i j limit : Nat) : StreamOut :=
  match zlibHeader a i j with
  | some st => { out := #[], err := some (st, i, 0, 0, 0) }
  | none =>
    let x := inflateAt a (i + 2) j limit { pos := 0 }
    if infDone x then infOut x 0
    else
      let e := infEnd x
      if j < e + 4 then { out := x.out, err := some (0x020B, e, 0, x.blk, 0) }
      else if aBe a e 4 ≠ adler32 x.out.toList then { out := x.out, err := some (0x020D, e, 0, x.blk, 0) }
      else { out := x.out }

/-- End of a zero-terminated field that starts at `i`. -/
def zEnd (a : Arr) (j : Nat) : Nat → Nat → Option Nat
  | 0, _ => none
  | f + 1, i => if j ≤ i then none else if ab a i = 0 then some (i + 1) else zEnd a j f (i + 1)
/-- gzip member header at `i`: where the data begins, or a status and its offset (RFC 1952, R233). -/
def gzipHeader (a : Arr) (i j : Nat) : Except (Status × Nat) Nat :=
  if j < i + 10 then .error (0x020B, i)
  else if ab a i ≠ 0x1F ∨ ab a (i + 1) ≠ 0x8B ∨ ab a (i + 2) ≠ 8 ∨ 31 < ab a (i + 3) then .error (0x0202, i)
  else
    let flg := ab a (i + 3)
    let p0 := i + 10
    let p1 := if flg / 4 % 2 = 1 then (if j < p0 + 2 then none else some (p0 + 2 + aLe a p0 2)) else some p0
    let p2 := p1.bind fun p => if flg / 8 % 2 = 1 then zEnd a j (j + 1) p else some p
    let p3 := p2.bind fun p => if flg / 16 % 2 = 1 then zEnd a j (j + 1) p else some p
    match p3 with
    | none => .error (0x020B, i)
    | some p =>
      if flg / 2 % 2 = 1 then
        if j < p + 2 then .error (0x020B, i)
        else if aLe a p 2 ≠ crc32 (aSub a i p) % 65536 then .error (0x020D, p)
        else .ok (p + 2)
      else if j < p then .error (0x020B, i) else .ok p
/-- Members of a gzip stream one after another. -/
def gzipGo (a : Arr) (j limit : Nat) : Nat → Nat → Nat → Array Byte → StreamOut
  | 0, _, _, out => { out := out }
  | f + 1, i, m, out =>
    match gzipHeader a i j with
    | .error (st, p) => { out := out, err := some (st, p, m, 0, 0) }
    | .ok d =>
      let base := out.size
      let x := inflateAt a d j limit { pos := 0, out := out }
      if infDone x then infOut x m
      else
        let e := infEnd x
        let piece := (x.out.extract base x.out.size).toList
        if j < e + 8 then { out := x.out, err := some (0x020B, e, m, x.blk, 0) }
        else if aLe a e 4 ≠ crc32 piece then { out := x.out, err := some (0x020D, e, m, x.blk, 0) }
        else if aLe a (e + 4) 4 ≠ piece.length % 2 ^ 32 then { out := x.out, err := some (0x020D, e + 4, m, x.blk, 0) }
        else if e + 8 = j then { out := x.out }
        else if ab a (e + 8) = 0x1F ∧ ab a (e + 9) = 0x8B ∧ e + 10 ≤ j then gzipGo a j limit f (e + 8) (m + 1) x.out
        else { out := x.out, trailing := true }
/-- A gzip stream in `[i, j)`. -/
def gzipDecode (a : Arr) (i j limit : Nat) : StreamOut := gzipGo a j limit (j + 1) i 0 #[]
/-- A byte stream by VARIANT (R236): 0 raw DEFLATE, 1 zlib, 2 gzip. -/
def streamDecode (variant : Nat) (a : Arr) (i j limit : Nat) : StreamOut :=
  if variant = 0 then infOut (inflateAt a i j limit { pos := 0 }) 0
  else if variant = 1 then zlibDecode a i j limit
  else gzipDecode a i j limit

end Sys2Proof.Machine
end

