-- ==== Sys2Proof/Machine/Brl.lean ====
section
/-! DEFINITION. The BRL format (R255-R262, R266-R269): the greedy compressor, the token decoder and block, frame and stream checks, as functions of bytes. -/

namespace Sys2Proof.Machine

/-- A failure: status, byte offset from IN, original position, block ordinal, stored and computed check values (R265, R269). -/
structure BrlErr where
  st : Status
  off : Nat
  out : Option Nat := none
  block : Option Nat := none
  want : Nat := 0
  got : Nat := 0
  /-- The status names no position in the input. -/
  noOff : Bool := false
  deriving DecidableEq, Repr

/-! ## Compressor (R258-R261) -/

/-- The shortest extension of u (R259). -/
def brlExt (u : Nat) : Bytes :=
  if u < 128 then [BitVec.ofNat 8 u]
  else if u < 16384 then [BitVec.ofNat 8 (128 + u % 128), BitVec.ofNat 8 (u / 128)]
  else [BitVec.ofNat 8 (128 + u % 128), BitVec.ofNat 8 (128 + u / 128 % 128), BitVec.ofNat 8 (u / 16384)]
/-- A literal token for data [i, j). -/
def brlLit (a : Arr) (i j : Nat) : Bytes :=
  let n := j - i
  if n = 0 then []
  else (if n < 128 then [BitVec.ofNat 8 (n - 1)] else 127#8 :: brlExt (n - 128)) ++ aSub a i j
/-- A copy token (R258, R259). -/
def brlCopy (len d : Nat) : Bytes :=
  let m := min 63 (len - 4)
  let ext := if 67 ≤ len then brlExt (len - 67) else []
  if d ≤ 256 then BitVec.ofNat 8 (128 + m) :: ext ++ [BitVec.ofNat 8 (d - 1)] else BitVec.ofNat 8 (192 + m) :: ext ++ leBytes 3 (d - 1)
/-- The hash of four bytes (R260). -/
def brlHash (a : Arr) (p : Nat) : Nat := aLe a p 4 * 0x9E3779B1 % 2 ^ 32 / 2 ^ 16
/-- Candidates below q, largest first: at most `k` positions of hash h, down to `low`. -/
def brlCands (a : Arr) (h low : Nat) : Nat → Nat → List Nat
  | 0, _ => []
  | q + 1, k => if k = 0 ∨ q < low then [] else if brlHash a q = h then q :: brlCands a h low q (k - 1) else brlCands a h low q k
/-- Length of the agreement of q and p below `stop`; fuel bounds the count. -/
def brlMatch (a : Arr) (p q : Nat) : Nat → Nat → Nat
  | 0, l => l
  | f + 1, l => if ab a (q + l) = ab a (p + l) then brlMatch a p q f (l + 1) else l
/-- best(p) of R260. -/
def brlBest (a : Arr) (n low p be : Nat) : Nat × Nat :=
  if be < p + 4 then (0, 0)
  else
    let cs := if n = 0 then (if low + 1 ≤ p then [p - 1] else []) else brlCands a (brlHash a p) low p (2 ^ n)
    let b := cs.foldl (fun (b : Nat × Nat) q => let l := brlMatch a p q (be - p) 0; if b.1 < l then (l, p - q) else b) (0, 0)
    if b.1 < 4 then (0, 0) else b
/-- The greedy parse of a block (R260); `win` is the window of a stream, none for INDEP. -/
def brlParse (a : Arr) (n bs be : Nat) (win : Option Nat) : Nat → Nat → Nat → Bytes → Bytes
  | 0, _, lit, acc => acc ++ brlLit a lit be
  | f + 1, p, lit, acc =>
    if be ≤ p then acc ++ brlLit a lit be
    else
      let low := match win with
        | none => bs
        | some w => p - w
      let b := brlBest a n low p be
      if b.1 = 0 then brlParse a n bs be win f (p + 1) lit acc
      else brlParse a n bs be win f (p + b.1) (p + b.1) (acc ++ brlLit a lit p ++ brlCopy b.1 b.2)
/-- A whole block: header and payload (R257, R261). -/
def brlBlock (a : Arr) (n bs be : Nat) (win : Option Nat) : Bytes :=
  let orig := aSub a bs be
  let tok := brlParse a n bs be win (be - bs + 1) bs bs []
  let p : Nat × Bytes := if orig.all (· = orig.headD 0) then (2, orig.take 1) else if tok.length < orig.length then (0, tok) else (1, orig)
  leBytes 4 p.2.length ++ leBytes 4 orig.length ++ [BitVec.ofNat 8 p.1, 0, 0, 0] ++ leBytes 4 (crc32c orig) ++ p.2
/-- Blocks of [bs, be) at block size z. -/
def brlBlocks (a : Arr) (n z be : Nat) (win : Option Nat) : Nat → Nat → List Bytes
  | 0, _ => []
  | f + 1, bs => if be ≤ bs then [] else brlBlock a n bs (min be (bs + z)) win :: brlBlocks a n z be win f (bs + z)
/-- A frame header (R255). -/
def brlHeader (mode blog wlog len crc blocks : Nat) : Bytes :=
  let h := ascii "BRLF" ++ [1, BitVec.ofNat 8 mode, BitVec.ofNat 8 blog, BitVec.ofNat 8 wlog] ++ leBytes 8 len ++ leBytes 4 crc ++ leBytes 4 blocks ++ zeros 4
  h ++ leBytes 4 (crc32c h)
/-- The block table (R256). -/
def brlTable : Nat → List Bytes → Bytes
  | _, [] => []
  | o, b :: r => leBytes 8 o ++ brlTable (o + b.length) r
/-- The INDEP frame of an input (R256, R266). -/
def brlFrame (a : Arr) (level blog : Nat) : Bytes :=
  let bs := brlBlocks a level (2 ^ blog) a.size none (a.size + 1) 0
  brlHeader 0 blog blog a.size (if a.size = 0 then 0 else crc32c a.toList) bs.length ++ brlTable (32 + 8 * bs.length) bs ++ bs.flatMap id
/-- The END block (R257). -/
def brlEnd (len crc blocks : Nat) : Bytes :=
  let p := leBytes 8 len ++ leBytes 4 crc ++ leBytes 4 blocks
  leBytes 4 16 ++ leBytes 4 0 ++ [0xFF, 0, 0, 0] ++ leBytes 4 (crc32c p) ++ p

/-! ## Token decoder (R258, R259, R268) -/

/-- Read an extension at i, payload end j: value and next position; the status of a failure. -/
def brlExtRead (a : Arr) (j : Nat) : Nat → Nat → Nat → Nat → Except Status (Nat × Nat)
  | 0, _, _, _ => .error 0x0301
  | f + 1, i, k, u =>
    if j ≤ i then .error 0x0304
    else
      let b := ab a i
      let v := u + b % 128 * 2 ^ (7 * k)
      if b < 128 then (if b = 0 ∧ 0 < k then .error 0x0301 else .ok (v, i + 1))
      else if k = 2 then .error 0x0301
      else brlExtRead a j f (i + 1) (k + 1) v
/-- Append a copy, byte by byte. -/
def brlPutCopy (d : Nat) : Nat → Arr → Arr
  | 0, o => o
  | n + 1, o => brlPutCopy d n (o.push (o.getD (o.size - d) 0))
/-- Decode the tokens of [i, j): `out` holds the history and what the block produced so far, `base` where the block begins in it, `hist` how much history before `base` counts. -/
def brlTokens (a : Arr) (j osize base hist win : Nat) : Nat → Nat → Arr → Except (Status × Nat × Nat) Arr
  | 0, i, o => .error (0x0304, i, o.size - base)
  | f + 1, i, o =>
    let made := o.size - base
    if j ≤ i then (if made < osize then .error (0x0304, j, made) else .ok o)
    else
      let c := ab a i
      let isLit := decide (c < 128)
      let m := if isLit then c else c % 64
      let ext := if m = (if isLit then 127 else 63) then brlExtRead a j 3 (i + 1) 0 0 else .ok (0, i + 1)
      match ext with
      | .error st => .error (st, i, made)
      | .ok (u, p) =>
        if isLit then
          let n := if m = 127 then 128 + u else m + 1
          if j < p + n then .error (0x0304, i, made)
          else if osize < made + n then .error (0x0303, i, made)
          else brlTokens a j osize base hist win f (p + n) (o ++ a.extract p (p + n))
        else
          let l := if m = 63 then 67 + u else m + 4
          let w := if c < 192 then 1 else 3
          if j < p + w then .error (0x0304, i, made)
          else
            let d := aLe a p w + 1
            if osize < made + l then .error (0x0303, i, made)
            else if min (hist + made) win < d then .error (0x0302, i, made)
            else brlTokens a j osize base hist win f (p + w) (brlPutCopy d l o)

/-! ## Blocks and frames (R267, R268) -/

/-- A block decoded at an offset of the input: its bytes and the offset after it. -/
structure BrlOk where
  data : Arr
  next : Nat
/-- Steps 7 to 12 for one block at offset o (R267): `size` is what R256 requires of OSIZE, or none for a stream; `hist` is the history; `pos` the original position, `k` the ordinal. -/
def brlBlockAt (a : Arr) (o k pos zmax : Nat) (size : Option Nat) (chain : Nat → Option (Status × Nat)) (hist : Arr) (win : Nat) : Except BrlErr BrlOk :=
  let er := fun (st : Status) (off : Nat) => (Except.error { st := st, off := off, out := some pos, block := some k } : Except BrlErr BrlOk)
  if a.size < o + 16 then er 0x0304 o
  else
    let cs := aLe a o 4
    let os := aLe a (o + 4) 4
    let ty := ab a (o + 8)
    if 2 < ty then er 0x0301 (o + 8)
    else if !(match size with
        | some z => decide (os = z)
        | none => decide (0 < os ∧ os ≤ zmax)) then er 0x0306 (o + 4)
    else if (ty = 1 ∧ cs ≠ os) ∨ (ty = 2 ∧ cs ≠ 1) then er 0x0306 o
    else
      match chain cs with
      | some e => er e.1 e.2
      | none =>
        let p := o + 16
        if a.size < p + cs then er 0x0304 p
        else
          let r : Except (Status × Nat × Nat) Arr :=
            if ty = 1 then .ok (a.extract p (p + cs))
            else if ty = 2 then .ok (Array.replicate os (a.getD p 0))
            else (brlTokens a (p + cs) os hist.size hist.size win (cs + 1) p hist).map fun x => x.extract hist.size x.size
          match r with
          | .error e => .error { st := e.1, off := e.2.1, out := some (pos + e.2.2), block := some k }
          | .ok d =>
            let c := crc32c d.toList
            if c ≠ aLe a (o + 12) 4 then .error { st := 0x0305, off := o + 12, out := some pos, block := some k, want := aLe a (o + 12) 4, got := c }
            else .ok { data := d, next := p + cs }
/-- A frame header as read. -/
structure BrlHdr where
  mode : Nat
  blog : Nat
  wlog : Nat
  len : Nat
  crc : Nat
  blocks : Nat
/-- Steps 1 to 3 (R267): `mode` is the mode required. -/
def brlHdrAt (a : Arr) (mode : Nat) : Except BrlErr BrlHdr :=
  let er := fun (off : Nat) => (Except.error { st := 0x0306, off := off } : Except BrlErr BrlHdr)
  if a.size < 32 then .error { st := 0x0304, off := 0 }
  else
    let c := crc32c (aSub a 0 0x1C)
    if c ≠ aLe a 0x1C 4 then .error { st := 0x0305, off := 0x1C, want := aLe a 0x1C 4, got := c }
    else
      let bl := ab a 6
      let wl := ab a 7
      let len := aLe a 8 8
      let n := aLe a 0x14 4
      let h : BrlHdr := { mode := ab a 5, blog := bl, wlog := wl, len := len, crc := aLe a 0x10 4, blocks := n }
      if aSub a 0 4 ≠ ascii "BRLF" then er 0
      else if ab a 4 ≠ 1 then er 4
      else if h.mode ≠ mode then er 5
      else if bl < 12 ∨ 20 < bl then er 6
      else if mode = 0 then
        if wl ≠ bl then er 7
        else if 2 ^ 40 < len then er 8
        else if n ≠ ceilDiv len (2 ^ bl) then er 0x14
        else if aLe a 0x18 4 ≠ 0 then er 0x18
        else .ok h
      else if wl < 12 ∨ 20 < wl then er 7
      else if len ≠ 2 ^ 64 - 1 then er 8
      else if h.crc ≠ 0 then er 0x10
      else if n ≠ 0 then er 0x14
      else if aLe a 0x18 4 ≠ 0 then er 0x18
      else .ok h

/-- What decoding a range of a frame gave: verified bytes, input used, and the failure with its undefined output length. -/
structure BrlRun where
  data : Arr := #[]
  used : Nat := 0
  err : Option BrlErr := none
  blur : Nat := 0
/-- OSIZE that R256 requires of block k. -/
def brlOsize (h : BrlHdr) (k : Nat) : Nat := min (2 ^ h.blog) (h.len - k * 2 ^ h.blog)
/-- Decode blocks k .. k + n - 1 of an INDEP frame (steps 7 to 12). -/
def brlRange (a : Arr) (h : BrlHdr) (first last : Nat) : Nat → Nat → BrlRun → BrlRun
  | 0, _, x => x
  | f + 1, k, x =>
    let ent := fun i => aLe a (32 + 8 * i) 8
    let o := ent k
    let chain := fun cs =>
      if k = 0 ∧ o ≠ 32 + 8 * h.blocks then some ((0x0306 : Status), 32)
      else if k + 1 < last ∧ ent (k + 1) ≠ o + 16 + cs then some ((0x0306 : Status), 32 + 8 * (k + 1))
      else none
    match brlBlockAt a o k (k * 2 ^ h.blog) (2 ^ h.blog) (some (brlOsize h k)) chain #[] (2 ^ 40) with
    | .error e => { x with err := some e, blur := brlOsize h k }
    | .ok b => brlRange a h first last f (k + 1) { x with data := x.data ++ b.data, used := b.next }
/-- Decode FIRST_BLOCK and COUNT of a frame; `cap` is the room for output (R267). -/
def brlDecode (a : Arr) (first count cap : Nat) : BrlRun :=
  match brlHdrAt a 0 with
  | .error e => { err := some e }
  | .ok h =>
    let n := if count = 0 then h.blocks - first else count
    if h.blocks < first + n ∨ (h.blocks ≠ 0 ∧ h.blocks ≤ first) ∨ (h.blocks = 0 ∧ first ≠ 0) then { err := some { st := 0x030D, off := 0x14 } }
    else if a.size < 32 + 8 * h.blocks then { err := some { st := 0x0304, off := 32 } }
    else if h.blocks = 0 then
      (if h.crc = 0 then { used := 32 } else { used := 32, err := some { st := 0x0305, off := 0x10, want := h.crc, got := 0 } })
    else
      let bytes := min h.len ((first + n) * 2 ^ h.blog) - first * 2 ^ h.blog
      if cap < bytes then { err := some { st := 0x0307, off := 8 } }
      else
        let r := brlRange a h first (first + n) n first { used := min a.size (aLe a (32 + 8 * first) 8) }
        if r.err.isSome ∨ n ≠ h.blocks then r
        else
          let c := crc32c r.data.toList
          if c = h.crc then r else { r with err := some { st := 0x0305, off := 0x10, want := h.crc, got := c } }

end Sys2Proof.Machine
end

