-- ==== Sys2Proof/Machine/Flags.lean ====
section
/-! DEFINITION. Register access codes (R6), ranges (R559), saturating and wrapping counters (R4), and the comparison flags of the Voxica compares (R123, R131). The device keeps no arithmetic condition flags (R132). -/

namespace Sys2Proof.Machine

/-- Field `[lo, lo + w)` of a written word. -/
def fld (v : Word) (lo w : Nat) : BitVec w := (v >>> lo).setWidth w
/-- RW field with a range (R559): a value outside leaves the field unchanged. -/
def rwIn {w : Nat} (old new : BitVec w) (lo hi : Nat) : BitVec w :=
  if lo ≤ new.toNat ∧ new.toNat ≤ hi then new else old
/-- W1C field: a bit an event sets in the same access stays set (R6, R559). -/
def w1c {w : Nat} (old written event : BitVec w) : BitVec w := (old &&& ~~~written) ||| event
/-- W1C of one flag. -/
def w1cB (old : Bool) (written : Bool) : Bool := old && !written
/-- W1S field (R6). -/
def w1s {w : Nat} (old written : BitVec w) : BitVec w := old ||| written
/-- RC field: the value read, and the value left, which is the event's contribution (R6). -/
def rcRead {w : Nat} (old event : BitVec w) : BitVec w × BitVec w := (old, event)
/-- Counter that saturates at all ones (R4). -/
def satAdd {w : Nat} (c : BitVec w) (n : Nat) : BitVec w := BitVec.ofNat w (min (2 ^ w - 1) (c.toNat + n))
/-- Place a field's value in a 64-bit word. -/
def put {w : Nat} (v : BitVec w) (lo : Nat) : Word := (v.setWidth 64) <<< lo
/-- Place a flag in a 64-bit word. -/
def putB (b : Bool) (lo : Nat) : Word := if b then (1#64) <<< lo else 0
/-- Signed value of a w-bit element. -/
def sInt (w x : Nat) : Int := if 2 * (x % 2 ^ w) < 2 ^ w then (x % 2 ^ w : Int) else (x % 2 ^ w : Int) - 2 ^ w
/-- Low w bits of an integer. -/
def ofInt (w : Nat) (x : Int) : Nat := (x % (2 ^ w : Int)).toNat
/-- Clamp an integer to the signed range of w bits. -/
def satInt (w : Nat) (x : Int) : Int := max (-(2 ^ (w - 1) : Int)) (min (2 ^ (w - 1) - 1 : Int) x)

end Sys2Proof.Machine
end

