-- ==== Sys2Proof/Machine/Ecc.lean ====
section
/-! DEFINITION. The HBM sector code (R456-R458) and the tile-store word code (R461, R462). Cells hold data; a sector or word that was damaged also holds an error pattern, and because both codes are linear the syndrome of a read is that of the pattern. -/

namespace Sys2Proof.Machine

/-- Multiply by alpha in GF(2^8) with polynomial 0x11D (R457). -/
def gfX (a : Nat) : Nat := if a < 128 then 2 * a else (2 * a).xor 0x11D

/-- `n` steps of shift-and-add multiplication. -/
def gfMulN : Nat → Nat → Nat → Nat
  | 0, _, _ => 0
  | n + 1, a, b => (if b % 2 = 1 then a else 0).xor (gfMulN n (gfX a) (b / 2))

/-- Product in GF(2^8). -/
def gfMul (a b : Nat) : Nat := gfMulN 8 a b

/-- alpha to the power `n`. -/
def gfPow : Nat → Nat
  | 0 => 1
  | n + 1 => gfX (gfPow n)

/-- Inverse of a non-zero element: its 254th power. -/
def gfInv (a : Nat) : Nat := (List.range 253).foldl (fun t _ => gfMul t a) a

/-- Value of a polynomial given by (power, coefficient) pairs at alpha^i. -/
def gfEval (p : List (Nat × Byte)) (i : Nat) : Nat :=
  p.foldl (fun t e => t.xor (gfMul e.2.toNat (gfPow (e.1 * i % 255)))) 0

/-- The generator (x + alpha^0) ... (x + alpha^7), lowest coefficient first (R457). -/
def rsGen : List Nat :=
  (List.range 8).foldl (fun g i =>
    let r := gfPow i
    List.zipWith Nat.xor (0 :: g) ((g.map fun c => gfMul c r) ++ [0])) [1]

/-- Remainder of a message, highest coefficient first, by the generator: the LFSR form, register highest first. -/
def rsRem (m : Bytes) : List Nat :=
  m.foldl (fun r b =>
    let f := b.toNat.xor (r.getD 0 0)
    List.zipWith (fun c g => c.xor (gfMul f g)) (r.drop 1 ++ [0]) ((rsGen.take 8).reverse)) (List.replicate 8 0)

/-- The eight check bytes of a sector at sector address `sa` (R457): check byte k is the coefficient of x^k. -/
def sectorCheck (sa : Nat) (d : Bytes) : Bytes :=
  (rsRem ((leBytes 5 sa).reverse ++ d.reverse)).reverse.map (BitVec.ofNat 8)

/-- Outcome of reading a sector (R458) or a word (R462). -/
inductive EccOut where
  | clean
  /-- Corrected: the pattern left after the correction (empty unless the read was miscorrected). -/
  | corrected (left : List (Nat × Byte))
  | mismatch
  | uncorrectable
  deriving DecidableEq, Repr

/-- Position whose locator is the non-zero element `x`, 0 to 254. -/
def gfLog (x : Nat) : Nat := ((List.range 255).find? fun i => gfPow i = x).getD 255

/-- XOR one error value into a pattern. -/
def patXor (p : List (Nat × Byte)) (pos : Nat) (v : Byte) : List (Nat × Byte) :=
  tabSet 0 p pos ((tabGet 0 p pos) ^^^ v)

/-- Decide a located error set: an address position is a mismatch, one beyond the codeword is uncorrectable. -/
def rsDecide (p : List (Nat × Byte)) (errs : List (Nat × Nat)) : EccOut :=
  if errs.any fun e => decide (77 ≤ e.1) then .uncorrectable
  else if errs.any fun e => decide (72 ≤ e.1) then .mismatch
  else .corrected (errs.foldl (fun q e => patXor q e.1 (BitVec.ofNat 8 e.2)) p)

/-- Decode the syndromes of an error pattern (positions 0-76, R458). -/
def rsDecode (p : List (Nat × Byte)) : EccOut :=
  let s := (List.range 8).map (gfEval p)
  let g := fun i => s.getD i 0
  if s.all (· = 0) then .clean
  else
    let q := gfMul (g 1) (gfInv (g 0))
    if g 0 ≠ 0 && g 1 ≠ 0 && (List.range 7).all (fun i => decide (g (i + 1) = gfMul (g i) q)) then
      rsDecide p [(gfLog q, g 0)]
    else
      let det := (gfMul (g 1) (g 1)).xor (gfMul (g 0) (g 2))
      if det = 0 then .uncorrectable
      else
        let di := gfInv det
        -- locator x^2 + l1 x + l2 from the first two recurrences
        let l1 := gfMul di ((gfMul (g 1) (g 2)).xor (gfMul (g 0) (g 3)))
        let l2 := gfMul di ((gfMul (g 2) (g 2)).xor (gfMul (g 1) (g 3)))
        let rec2 := (List.range 6).all fun k => decide (g (k + 2) = (gfMul l1 (g (k + 1))).xor (gfMul l2 (g k)))
        let roots := (List.range 255).filter fun i =>
          let x := gfPow i
          decide (((gfMul x x).xor (gfMul l1 x)).xor l2 = 0)
        match rec2, roots with
        | true, [i, j] =>
          let x := gfPow i
          let y := gfPow j
          let v := gfMul (gfInv (x.xor y)) ((g 1).xor (gfMul y (g 0)))
          rsDecide p [(i, v), (j, (g 0).xor v)]
        | _, _ => .uncorrectable

/-- Number of 1 bits of a byte value. -/
def weight8 (n : Nat) : Nat := ((List.range 8).filter fun i => n.testBit i).length

/-- The 56 byte values of weight 3, ascending (R461). -/
def w3 : List Nat := (List.range 256).filter fun n => weight8 n = 3

/-- The 56 byte values of weight 5, ascending (R461). -/
def w5 : List Nat := (List.range 256).filter fun n => weight8 n = 5

/-- Columns of the 64 data bits (R461). -/
def tsDataCols : List Nat := w3 ++ w5.take 8

/-- Columns of the 19 address bits (R461). -/
def tsAddrCols : List Nat := (w5.drop 8).take 19

/-- XOR of the columns of the set bits. -/
def xorCols (cols : List Nat) (x : Nat) : Nat :=
  (cols.zipIdx).foldl (fun t c => if x.testBit c.2 then t.xor c.1 else t) 0

/-- The stored check byte of word `w` with data `d` (R461). -/
def tsCheck (w d : Nat) : Nat := (xorCols tsDataCols d).xor (xorCols tsAddrCols w)

/-- Syndrome of a word whose error pattern is `e`: data bits 63:0 and check bits 71:64 (R462). -/
def tsSyn (e : BitVec 72) : Nat := (xorCols tsDataCols (e.toNat % 2 ^ 64)).xor (e.toNat / 2 ^ 64)

/-- The data or check bit a syndrome names. -/
def tsBit (syn : Nat) : Option Nat := (tsDataCols ++ [1, 2, 4, 8, 16, 32, 64, 128]).findIdx? (· = syn)

/-- Outcome of reading a word with error pattern `e` (R462). -/
def tsDecode (e : BitVec 72) : EccOut :=
  let syn := tsSyn e
  if syn = 0 then .clean
  else if (tsBit syn).isSome then .corrected []
  else if tsAddrCols.contains syn then .mismatch
  else .uncorrectable

/-- The pattern left after the correction of R462. -/
def tsLeft (e : BitVec 72) : BitVec 72 :=
  match tsBit (tsSyn e) with
  | some i => e ^^^ (1#72 <<< i)
  | none => e

end Sys2Proof.Machine
end

