-- ==== Sys2Proof/Machine/StateVox.lean ====
section
/-! DEFINITION. State records of the Voxica side: software contexts, logical tiles, remote operations, engine descriptors, decision points and jobs (spec 02, 03, 04, 06, 12, 15). -/

namespace Sys2Proof.Machine

/-- A 128-bit sequence tag (R47): BATCH 127:64, PHASE 63:56, ITEM 55:32, STEP 31:4, ORIGIN 3:0. -/
abbrev Tag := BitVec 128

/-- What a software context waits for (R94, R149, R365, R378; a full queue: R111, R321, R149). -/
inductive Wait where
  /-- Nothing: the context issues. -/
  | idle
  /-- SWAIT on counter `k` with threshold `thr`. -/
  | swait (k : Nat) (thr : Word)
  /-- RFENCE. -/
  | rfence
  /-- EXIT, with its completion counter. -/
  | exit (cc : Option Nat)
  /-- A Cullet wait on pool `p` for register `rd`; `nb` for CALLOCN. -/
  | pool (p rd : Nat) (nb : Bool)
  /-- EPOST to a full descriptor queue of the engine with this code. -/
  | queueFull (code : Nat)
  /-- A post to a full send queue. -/
  | sendFull (qpn : Nat)
  /-- LAUNCH to a tile that holds 256 saved contexts. -/
  | launchFull (tile : Nat)
  deriving DecidableEq, Repr

/-- A cached translation (R90): the page's virtual base, its size in bytes and the leaf entry. -/
structure TlbEntry where
  va : Nat
  size : Nat
  leaf : Nat
  deriving DecidableEq, Repr

/-- One software context: the architectural state of R80-R82 and what the device keeps about it (R94, R100-R104). -/
structure Ctx where
  /-- The model's own number of this software context, never reused. -/
  sw : Nat := 0
  /-- Its ordinal on its tile (R482, R494; log 20). -/
  ord : Nat := 0
  g : Tab Word := []
  p : Tab (BitVec 128) := []
  v : Tab (BitVec 1024) := []
  a : Tab (BitVec 96) := []
  x : Tab (BitVec 640) := []
  pc : Word := 0
  batch : Word := 0
  phase : BitVec 8 := 0
  item : BitVec 24 := 0
  /-- STEP of the next instruction, 0 to 2^28 (the last value is the overflow of R49). -/
  step : Nat := 0
  retired : Word := 0
  retiredRt : Word := 0
  job : BitVec 16 := 0
  ttb : Word := 0
  pkr0 : Word := 0
  pkr1 : Word := 0
  tsBase : BitVec 10 := 0
  tsSize : BitVec 10 := 0
  xvec : Word := 0
  xpc : Word := 0
  xcause : BitVec 8 := 0
  xstatus : Status := 0
  xaddr : Word := 0
  rerrStatus : Status := 0
  rerrMore : Bool := false
  rerrStep : BitVec 28 := 0
  priv : BitVec 2 := 0
  profile : Word := 0
  wait : Wait := .idle
  /-- A slice boundary was reached with a non-empty run queue (R101). -/
  sliceDue : Bool := false
  /-- gd results still to arrive (R94): register and operation. -/
  pend : List (Nat × Nat) := []
  tlb : List TlbEntry := []
  /-- Device physical addresses of the two 64 KiB halves of its save area (R100). -/
  areaLo : Nat := 0
  areaHi : Nat := 0
  /-- Release ticks of its registers under PACED (R60): g 0-63, v 64-95, p 96-111, a 112-119, x 120-123, the window 124. -/
  rel : Tab Nat := []
  deriving DecidableEq, Repr

/-- A software context that is saved in memory (R100, R102). -/
structure Saved where
  sw : Nat
  ord : Nat := 0
  areaLo : Nat
  areaHi : Nat
  wait : Wait := .idle
  /-- Frontier while saved (R53): the tag of the instruction after the wait. -/
  tag : Tag := 0
  job : BitVec 16 := 0
  priv : BitVec 2 := 0
  deriving DecidableEq, Repr

/-- A descriptor in an engine's queue (R109-R111), with what the posting context held at issue. -/
structure Desc where
  va : Nat
  engine : Nat
  op : Nat
  length : Nat
  ccEn : Bool
  cc : Nat
  statusAddr : Nat
  tag : Tag
  ttb : Nat
  pkr0 : Word
  pkr1 : Word
  priv : BitVec 2
  job : BitVec 16
  tile : Nat
  sw : Nat
  /-- Under PACED: the tick at which it was ready (R60). -/
  ready : Nat := 0
  /-- Serial number of the descriptor, the model's own. -/
  id : Nat := 0
  active : Bool := false
  /-- A Marver, Gather, stripe or stream engine's progress: numbers whose meaning the engine gives. -/
  prog : List Nat := []
  /-- Output decided and still to be stored, for a descriptor that waits for buffers. -/
  held : Bytes := []
  /-- Buffers it holds (stripe handles, in order). -/
  bufs : List Word := []
  /-- Virtual address and count of the 8-byte entries it has written for them. -/
  entVa : Nat := 0
  entCnt : Nat := 0
  deriving DecidableEq, Repr

/-- An operation whose result a hold buffer keeps under PACED (R60, R61). -/
structure Hold where
  release : Nat
  cls : Nat
  batch : Word
  /-- Descriptor whose completion is held (R60): engine code, descriptor, status, RESULT. -/
  fin : Option (Nat × Desc × Status × Word) := none
  /-- Remote operation whose completion is held (R147). -/
  op : Option Nat := none
  /-- The result is ready. -/
  ready : Bool := true
  deriving DecidableEq, Repr

/-- An open issue group under PACED (R120): the context, its slots taken and the registers it wrote. -/
structure Group where
  hw : Nat
  tick : Nat
  slots : List Nat := []
  wrote : List Nat := []
  closed : Bool := false
  deriving DecidableEq, Repr

/-- A logical tile (R17, R102, R121). -/
structure Tile where
  hws : List (Nat × Ctx) := []
  runq : List Saved := []
  waiting : List Saved := []
  hold : List Hold := []
  group : Option Group := none
  last : Nat := 0
  /-- Contexts saved by a freeze, in hardware-context order, for RESUME (R475). -/
  frozen : List (Nat × Saved) := []
  /-- Software contexts launched since the tile last held none: the next ordinal to give (log 20). -/
  launched : Nat := 0
  deriving DecidableEq, Repr

/-- The kinds of remote operation of R93. -/
inductive OpKind where
  | rput | rputi | rget | rfadd | rcas | sadd | qpost
  deriving DecidableEq, Repr

/-- The packet of another device that an atomic answers (R344): queue pair, PSN, MSN, path, and this side's CEPOCH when it came. -/
structure RspTo where
  qpn : Nat
  psn : BitVec 32
  msn : BitVec 32
  path : BitVec 8
  cepoch : BitVec 12
  deriving DecidableEq, Repr

/-- A remote operation issued and not yet forgotten (R93-R96, R146). -/
structure RemoteOp where
  owner : Nat
  tile : Nat
  job : BitVec 16
  priv : BitVec 2
  tag : Tag
  kind : OpKind
  /-- Queue pair of a remote route. -/
  qpn : Option Nat := none
  /-- Target pieces of a local route: device physical address and length. -/
  pieces : List (Nat × Nat) := []
  /-- Destination pieces of RGET. -/
  dst : List (Nat × Nat) := []
  /-- Tile-store bytes of the source (RPUT) or destination (RGET) when the local operand lies in the window. -/
  win : Option Nat := none
  /-- Source pieces of RPUT and RPUTI when the source is a virtual address. -/
  src : List (Nat × Nat) := []
  len : Nat := 0
  data : Mem := []
  /-- The window source did not read (R462). -/
  fail : Status := 0
  rd : Nat := 0
  rc : Option Nat := none
  val : Word := 0
  cmp : Word := 0
  ctr : Nat := 0
  /-- Its effect is made and its completion is held (R147): status and old value. -/
  result : Option (Status × Word) := none
  /-- At its decision point, waiting to be served in tag order (R55). -/
  arrived : Bool := false
  done : Bool := false
  /-- Its completion is held until this tick (R147). -/
  release : Option Nat := none
  /-- It came in a packet, which it answers. -/
  rsp : Option RspTo := none
  deriving DecidableEq, Repr

/-- A request waiting at a decision point (R54-R56). -/
structure DpReq where
  src : Nat
  tag : Tag
  job : BitVec 16
  strict : Bool
  /-- Timestamp at which it arrived, for R57. -/
  since : Word
  /-- The remote operation to apply, or none. -/
  op : Option Nat := none
  /-- The bytes to append to ring `ring`, when it is an append. -/
  ring : Nat := 0
  entry : Bytes := []
  /-- The queue pair and MSN whose notification the append is (R332). -/
  msg : Option (Nat × BitVec 32) := none
  stalled : Bool := false
  deriving DecidableEq, Repr

/-- A frontier published by a source (R53). -/
structure Front where
  job : BitVec 16
  tag : Tag
  deriving DecidableEq, Repr

/-- A tagged add that the counter unit keeps apart from VALUE (R368). -/
structure PendAdd where
  ctr : Nat
  tag : Tag
  amt : Word
  job : BitVec 16
  deriving DecidableEq, Repr

/-- One entry of a job's key table (R177). -/
structure KeyEnt where
  purpose : BitVec 16
  seed : BitVec 8
  mode : BitVec 8
  epoch : Word
  deriving DecidableEq, Repr

/-- A derived key held by the device (R181). -/
structure KeyHeld where
  slot : Nat
  epoch : Nat
  key : Bytes
  deriving DecidableEq, Repr

/-- A Cane file as its object entry and header give it (R190, R408). -/
structure CaneFile where
  obj : Word
  metaFirst : Nat := 0
  metaUnits : Nat := 0
  dataFirst : Nat := 0
  dataStrands : Nat := 0
  records : Nat := 0
  dataBytes : Nat := 0
  root : Bytes := []
  deriving DecidableEq, Repr

/-- One input of a job (R439): its primary file and replicas, in descriptor order. -/
structure JobInput where
  obj : Word
  root : Bytes
  copies : List CaneFile
  deriving DecidableEq, Repr

/-- Commit configuration of a job number (R480, R499). -/
structure CommitCfg where
  k : Nat
  imgA : Nat
  imgB : Nat
  cap : Nat
  regions : List (Nat × Nat)
  deriving DecidableEq, Repr

/-- A running job (R438, R439, R480). -/
structure Job where
  num : BitVec 16
  strict : Bool
  paced : Bool
  mult : Nat
  sliceLog2 : Nat
  consumers : Nat
  vcore : Nat
  period : Word
  thermal : Nat
  crcPolicy : Nat
  seeds : List Bytes
  devices : Nat
  self : Nat
  agreeQpn : Nat
  agreeKey : BitVec 32
  agreeMs : Nat
  programs : List Nat
  inputs : List JobInput
  keys : List KeyEnt
  budgets : List Nat
  placement : Bytes
  units : List Nat
  ctrs : List (Nat × Nat)
  quotaCtx : Nat
  quotaQp : Nat
  quotaEng : Nat
  paramVa : Word
  fpB : Bytes
  fpT : Bytes
  t0 : Word
  held : List KeyHeld := []
  commit : Option CommitCfg := none
  /-- The last commit point taken, skipped or rolled back past. -/
  lastCommit : Option Word := none
  /-- An agreement that is waited for (R481 step 5, R487 step 4): its batch, KIND, when it began, and whether its timeout was raised. -/
  agree : Option (Word × Nat × Word × Bool) := none
  /-- This device's entry is written; the device's own access in progress. -/
  agWrote : Bool := false
  agSink : Option Nat := none
  /-- RECOVER commands accepted for the job (R440). -/
  epoch : Nat := 0
  /-- A replay in progress (R487): its target, the highest delivered horizon, and the tick at which the recovery began. -/
  replay : Option (Word × Nat × Nat) := none
  /-- A slip event was raised since the last commit point (R67). -/
  slipSeen : Bool := false
  firstBatch : Word := 0
  delivered : Word := 0
  substitutions : Nat := 0
  /-- Stop at the next commit point (R438). -/
  stopAt : Bool := false
  /-- Program hashes in the order of R75: the parameter block's, then each binary's. -/
  hashes : List Bytes := []
  deriving DecidableEq, Repr

/-- The record of a job that ended (R438). -/
structure ExitRec where
  num : BitVec 16
  status : Status
  delivered : Word
  firstNot : Word
  fpB : Bytes
  fpT : Bytes
  substitutions : Nat
  /-- What an attestation report still says of it (R528): ORDER, PACE, C, seed commitment, hashes, roots, final spare map digest. -/
  strict : Bool
  paced : Bool
  consumers : Nat
  seedCommit : Bytes
  hashes : List Bytes
  roots : List Bytes
  spare : Bytes
  deriving DecidableEq, Repr

end Sys2Proof.Machine
end

