-- ==== Sys2Proof/Machine/StateEng.lean ====
section
/-! DEFINITION. State records of the engines: BRL stream states (spec 09), tokenizer and grammar slots (spec 10), batch streams of Parison and live recordings (spec 07). -/

namespace Sys2Proof.Machine

/-- A history-carrying BRL stream state (R271-R275). -/
structure BrlStream where
  gen : BitVec 32 := 0
  opened : Bool := false
  complex : Nat := 0
  job : BitVec 16 := 0
  dir : Bool := false
  blockLog2 : Nat := 0
  windowLog2 : Nat := 0
  level : Nat := 0
  /-- 0 awaiting the frame header, 1 open, 2 ENDED, 3 FAILED. -/
  phase : Nat := 0
  totalIn : Nat := 0
  totalOrig : Nat := 0
  runCrc : Nat := 0
  blocks : Nat := 0
  hist : Bytes := []
  deriving DecidableEq, Repr

/-- A tokenizer or grammar slot (R289, R290): where its image lies and through which translation the engine reads it. -/
structure TokSlot where
  gen : BitVec 16 := 0
  loaded : Bool := false
  job : BitVec 16 := 0
  va : Nat := 0
  len : Nat := 0
  ttb : Nat := 0
  pkr0 : Word := 0
  pkr1 : Word := 0
  priv : BitVec 2 := 0
  /-- FFFD policy for invalid UTF-8. -/
  fffd : Bool := false
  bounded : Bool := false
  deriving DecidableEq, Repr

/-- Configuration of a batch stream (R224). -/
structure StreamCfg where
  b : Nat := 0
  c : Nat := 0
  n : Nat := 0
  first : Nat := 0
  policy : Nat := 0
  tail : Nat := 0
  pack : Nat := 0
  tokenBytes : Nat := 0
  g : Nat := 0
  rows : Nat := 0
  rowLen : Nat := 0
  imgH : Nat := 0
  imgW : Nat := 0
  pixBytes : Nat := 0
  place : Nat := 0
  oversize : Nat := 0
  padToken : Nat := 0
  sepToken : Nat := 0
  a : Nat := 0
  e : Nat := 0
  assemblers : List (Nat × Nat) := []
  /-- Ring route, BASE, credit route, credit address. -/
  rings : List (Nat × Nat × Nat × Nat) := []
  entryBytes : Nat := 0
  deriving DecidableEq, Repr

/-- A sample report held by its owner (R208, R209), with what its poster held. -/
structure Report where
  bytes : Bytes
  tag : Tag := 0
  priv : BitVec 2 := 0
  ttb : Nat := 0
  pkr0 : Word := 0
  pkr1 : Word := 0
  tile : Nat := 0
  sw : Nat := 0
  job : BitVec 16 := 0
  /-- Release tick of the SUBMIT that carried it (R560). -/
  ready : Nat := 0
  /-- Order of arrival, and the batch it was given to, for FREE (R225). -/
  ord : Nat := 0
  batch : Nat := 0
  deriving DecidableEq, Repr

/-- A shard of a packed batch: ring entry header, the bytes behind it, and the immediate (R216, R219). -/
structure Shard where
  header : Bytes
  body : Bytes
  imm : Word
  deriving DecidableEq, Repr

/-- A batch made up and packed (R214-R219). -/
structure Batch where
  b : Nat
  shards : List Shard
  /-- Release tick of its packing under PACED (R560). -/
  release : Nat := 0
  /-- Positions of its samples, for the durability rule of R228. -/
  positions : List Nat := []
  deriving DecidableEq, Repr

/-- A delivery in progress: batch, consumer, phase (0 data and records, 1 header), the remote access it waits for, and under PACED the tick it is released at. -/
structure Sending where
  b : Nat
  k : Nat
  phase : Nat := 0
  sink : Option Nat := none
  release : Nat := 0
  deriving DecidableEq, Repr

/-- A Parison instance's part of a stream. -/
structure Stream where
  opened : Bool := false
  cfg : StreamCfg := {}
  job : BitVec 16 := 0
  priv : BitVec 2 := 0
  ttb : Nat := 0
  pkr0 : Word := 0
  pkr1 : Word := 0
  tile : Nat := 0
  sw : Nat := 0
  tag : Tag := 0
  /-- Reports owned here, by epoch * N + position. -/
  reports : List (Nat × Report) := []
  nextOrd : Nat := 0
  /-- The ledger: accepted count by (epoch, block). -/
  ledger : List ((Nat × Nat) × Nat) := []
  /-- Blocks whose count this owner has written. -/
  counted : List (Nat × Nat) := []
  /-- Accepted reports fetched from other owners, by epoch * N + position. -/
  fetched : List (Nat × Report) := []
  /-- Requests for reports sent: epoch, block, first rank within it. -/
  asked : List (Nat × Nat × Nat) := []
  /-- Payloads being fetched over remote routes: key of the report, remote access. -/
  pulls : List (Nat × Nat) := []
  /-- Credit reads in progress over remote routes: consumer, remote access. -/
  credits : List (Nat × Nat) := []
  batches : List Batch := []
  sending : List Sending := []
  /-- (b, k) recorded as delivered (R221, R486). -/
  delivered : List (Nat × Nat) := []
  /-- Batches delivered before a recovery, to be made up again without being sent (R486). -/
  again : List Nat := []
  halted : Option Status := none
  /-- CLOSE was issued here; its descriptor's number. -/
  closing : Option Nat := none
  deriving DecidableEq, Repr

/-- A live recording (R228). -/
structure Recording where
  obj : Word
  job : BitVec 16
  metaFirst : Nat := 0
  metaUnits : Nat := 0
  dataFirst : Nat := 0
  dataStrands : Nat := 0
  count : Nat := 0
  dataBytes : Nat := 0
  /-- Index entries: offset and TOTAL_LEN. -/
  index : List (Nat × Nat) := []
  leaves : List Bytes := []
  /-- Bytes of the last block written, as far as it is filled. -/
  tail : Bytes := []
  /-- Entries of the ingest ring taken (R226). -/
  taken : Nat := 0
  failed : Bool := false
  sealed_ : Bool := false
  deriving DecidableEq, Repr

/-- A commit image in its area (R483), with what of it has no byte layout in the manual: the contexts in order with their tiles, their segments in progress, and the parts of the job's stream (log 36). -/
structure CommitImg where
  job : BitVec 16
  base : Nat
  cap : Nat
  /-- Area B. -/
  second : Bool
  batch : Word
  /-- STATE is 1. -/
  complete : Bool
  length : Nat := 0
  /-- Directory as written: kind, ID, offset, length. -/
  dir : List (Nat × Nat × Nat × Nat) := []
  ctxs : List (Nat × Saved) := []
  segs : List (Nat × Tag × Bytes) := []
  streams : List (Nat × Stream) := []
  launched : List (Nat × Nat) := []
  deriving DecidableEq, Repr

end Sys2Proof.Machine
end

