-- ==== Sys2Proof/Machine/StateUnit.lean ====
section
/-! DEFINITION. State records of the unit tree: unit control blocks, silicon records and the pace, order, memory, Lehr, fault, power and global registers (spec 01, 02, 16, 17, 18, 20). -/

namespace Sys2Proof.Machine

/-- Unit states of UCB_STATE: 0 OFF, 1 RESETTING, 2 READY, 3 RUNNING, 4 QUIESCING, 5 QUIESCED, 6 FROZEN, 7 FAILED, 8 RETIRED. -/
inductive UState where
  | off | resetting | ready | running | quiescing | quiesced | frozen | failed | retired
  deriving DecidableEq, Repr

/-- A unit control block's own registers (R30-R38). -/
structure Ucb where
  st : UState := .resetting
  cmd : BitVec 8 := 0
  timeout : BitVec 16 := 0x03E8
  busy : Bool := false
  collide : Bool := false
  status : Status := 0
  last : BitVec 8 := 0
  tdc : Word := 0
  /-- Measured handshake rate in MHz (UCB_HS_RATE). -/
  rate : BitVec 16 := 0
  /-- Start of the command in progress, for its TIMEOUT. -/
  since : Word := 0
  deriving DecidableEq, Repr

/-- Trouble counters, their SAT flags and the health record of one piece of silicon or shared hardware (R22, R37, R478). -/
structure Silicon where
  count : Tab (BitVec 16) := []
  sat : BitVec 64 := 0
  mass : Nat := 0
  score : Nat := 1000
  /-- Canary trips in the second of timestamp `trSec` (R491). -/
  trips : Nat := 0
  trSec : Nat := 0
  trDone : Bool := false
  deriving DecidableEq, Repr

/-- States of a physical slot (R18): the codes of UCB_SLOT_STATE. -/
inductive SlotState where
  | mapped | fieldSpare | factoryRetired | fieldRetired
  deriving DecidableEq, Repr

/-- A group UCB hosted by this device (R38). -/
structure GroupRec where
  g : BitVec 8
  children : List Word
  /-- Aggregates of the last refresh. -/
  spares : BitVec 5 := 0
  tdc : Word := 0
  counts : Tab (BitVec 16) := []
  score : BitVec 10 := 0
  conf : BitVec 10 := 0
  refresh : Word := 0
  st : UState := .ready
  /-- Next child a forwarded command goes to, and the first failure met. -/
  next : Nat := 0
  firstFail : Status := 0
  deriving DecidableEq, Repr

/-- Pace and order registers (R78, R79, R57-R59). -/
structure Pace where
  mult : BitVec 6 := 16
  lock : Bool := false
  tick : Word := 0
  running : Bool := false
  t0 : Word := 0
  period : Word := 0
  slips : BitVec 48 := 0
  ringBase : BitVec 36 := 0
  ringSize : BitVec 5 := 16
  ringEn : Bool := false
  ringHead : Word := 0
  ringTail : Word := 0
  ringLost : BitVec 48 := 0
  stallLimit : BitVec 32 := 100000
  stalled : Bool := false
  tdcStrict : Bool := false
  collided : Bool := false
  deriving DecidableEq, Repr

/-- Memory registers (R455) and error counters (16, "Error counters"). -/
structure MemRegs where
  /-- STACK_R0 to STACK_R23. -/
  ilv : List (BitVec 5) := (List.range 24).map fun r => BitVec.ofNat 5 (4 * (r % 6) + r / 6)
  fillDone : Bool := false
  locked : Bool := false
  stackOk : BitVec 24 := 0
  corr : Tab (BitVec 48) := []
  unc : Tab (BitVec 48) := []
  mism : Tab (BitVec 48) := []
  deriving DecidableEq, Repr

/-- Lehr registers and the pass in progress (R467, R468). -/
structure Lehr where
  start : BitVec 42 := 0
  len : BitVec 42 := 0
  writeback : Bool := true
  goIgnored : Bool := false
  share : BitVec 4 := 1
  sampleLog2 : BitVec 5 := 0
  ctr : BitVec 17 := 0
  ctrEn : Bool := false
  busy : Bool := false
  status : Status := 0
  sectors : BitVec 40 := 0
  corr : BitVec 40 := 0
  unc : BitVec 40 := 0
  mism : BitVec 40 := 0
  /-- Range and sampling of the running pass, as checked at GO. -/
  pass : Nat × Nat × Nat := (0, 0, 0)
  /-- LEHR_FAIL entries in read order: the registers' 64-bit values, at most 16. -/
  fails : List Word := []
  deriving DecidableEq, Repr

/-- Fault registers (R498) and the lock-step unit (R493-R495). -/
structure Fault17 where
  cmdAddr : BitVec 41 := 0
  busy : Bool := false
  status : Status := 0
  result : BitVec 32 := 0
  /-- FLT_SUSPECT, by slot index (864 bits). -/
  suspect : BitVec 864 := 0
  decayShift : BitVec 5 := 4
  tickH : BitVec 8 := 24
  hyst : BitVec 10 := 50
  confH : BitVec 16 := 720
  /-- FLT_HW weights by cause; an unlisted cause has the default of R477. -/
  weights : List (Nat × BitVec 16) := []
  canaryLimit : BitVec 16 := 16
  /-- Powered hours of the device's silicon (R478), in whole health ticks. -/
  hours : Nat := 0
  /-- The command in progress: its JSN, and its block while a SPARE_REMAP or its test holds it (R488). -/
  jsn : Nat := 0
  block : Option Bytes := none
  trcBase : BitVec 36 := 0
  lsState : BitVec 3 := 0
  lsJob : BitVec 16 := 0
  lsQpn : Nat := 0
  lsSlot : Nat := 0
  lsTile : BitVec 10 := 0
  lsOrd : BitVec 8 := 0
  lsKind : Bool := false
  lsSegment : BitVec 40 := 0
  lsBatch : Word := 0
  lsTimeout : BitVec 32 := 1000
  /-- Segments in progress (R494): software context, tag of the first instruction, records so far. -/
  segs : List (Nat × BitVec 128 × Bytes) := []
  /-- Digests of this device that wait for the partner's (R495): key, BATCH of the first tag, digest. -/
  own : List (Nat × Word × Bytes) := []
  /-- Digests the partner sent. -/
  peer : List (Nat × Word × Bytes) := []
  /-- The partner's FP_B is equal: the pairing waits for the next commit point (R493). -/
  lsAgreed : Bool := false
  deriving DecidableEq, Repr

/-- Reset, bring-up and power registers (18), pins (R505) and the always-on island. -/
structure Power where
  /-- RST_STATUS. -/
  warm : Bool := false
  source : BitVec 2 := 0
  fuseFail : Bool := false
  fuseTries : BitVec 2 := 0
  stage : BitVec 4 := 0
  status : Status := 0
  warmCount : BitVec 16 := 0
  /-- Bring-up has failed (R509). -/
  failed : Bool := false
  /-- A reset is asserted (its source still active). -/
  asserted : Bool := true
  /-- PWR_CTRL. -/
  state : BitVec 2 := 0
  target : BitVec 2 := 0
  entering : Bool := false
  wakePending : Bool := false
  /-- Step of the wake sequence of R516 in progress, 0 for none. -/
  wakeStep : Nat := 0
  /-- Slot of the POWER_STATE command that waits for its state. -/
  psSlot : Option Nat := none
  ret : BitVec 18 := 0
  holdNand : Bool := true
  holdEth : Bool := true
  autoNand : Bool := true
  autoEth : Bool := false
  wakeEn : BitVec 4 := 0
  wakeSeen : BitVec 5 := 0
  wakeTimer : BitVec 32 := 0
  /-- Timestamp at entry to the state, for the WAKE_TIMER. -/
  entered : Word := 0
  /-- BLK_RESET. -/
  brTarget : BitVec 8 := 0
  brBusy : Bool := false
  /-- Instance under reset. -/
  brCur : BitVec 8 := 0
  brTimeout : BitVec 16 := 0x03E8
  brStatus : Status := 0
  brSince : Word := 0
  /-- Pins. -/
  pwrGood : Bool := false
  coreVrEn : Bool := false
  coreVrPg : Bool := false
  clkReady : Bool := false
  fuseOk : Bool := false
  /-- NAND CE_N high and WP_N low (no program or erase can reach the flash). -/
  nandSafe : Bool := true
  refclk : Bool := true
  /-- Saved contexts and stores of PS3 (R514 step 4) lie in memory. -/
  ps3Saved : Bool := false
  deriving DecidableEq, Repr

/-- Global registers (R533-R538). -/
structure Global where
  stepping : BitVec 8 := 0
  speedBin : BitVec 8 := 0
  serial : Bytes := []
  macBase : BitVec 48 := 0
  tripped : Bool := false
  faultAssert : Bool := false
  capW : BitVec 12 := 0
  bmcCapW : BitVec 12 := 0
  vset : BitVec 10 := 750
  target : BitVec 11 := 850
  powerW : BitVec 12 := 0
  vcore : BitVec 10 := 750
  limit : BitVec 2 := 0
  capUnmet : Bool := false
  tjMax : BitVec 16 := 0
  trip : BitVec 16 := 1100
  /-- Junction temperature of each compute die (R81 TEMP), signed 0.1 degC. -/
  dieTemp : Tab (BitVec 16) := []
  evtSeen : BitVec 11 := 0
  unrouted : BitVec 48 := 0
  deriving DecidableEq, Repr

end Sys2Proof.Machine
end

