-- ==== Sys2Proof/Machine/StateHost.lean ====
section
/-! DEFINITION. State records of the host interface (spec 15): task slots, completion rings, the journal, programs, jobs' exit records and self-tests. -/

namespace Sys2Proof.Machine

/-- A task slot (R431). -/
structure Slot where
  /-- Command area, offsets 0x00-0x3F. -/
  area : Mem := []
  state : BitVec 2 := 0
  wrIgnored : Bool := false
  goIgnored : Bool := false
  status : Status := 0
  jsn : Word := 0
  result0 : Word := 0
  result1 : Word := 0
  /-- The command area as latched at GO (R432). -/
  latched : Mem := []
  /-- Progress of a command that waits: 1 once its first effect is made; 16 plus the power state in which it was accepted, for one accepted outside PS0. -/
  phase : Nat := 0
  deriving DecidableEq, Repr

/-- A completion ring (15, HI_CRING registers; R435). -/
structure CRing where
  addr : BitVec 58 := 0
  sizeLog2 : BitVec 5 := 8
  en : Bool := false
  vector : BitVec 6 := 0
  full : Bool := false
  head : Word := 0
  tail : Word := 0
  waiting : List Bytes := []
  /-- A message was sent since the host last wrote TAIL (R434). -/
  sent : Bool := false
  deriving DecidableEq, Repr

/-- A loaded program (R438, R112). -/
structure Program where
  gen : BitVec 16
  loaded : Bool
  size : Nat
  /-- Device physical address in HBM at which the binary is held. -/
  place : Nat
  hash : Bytes
  profile : Word
  entry : Word
  flags : BitVec 32
  deriving DecidableEq, Repr

/-- The running self-test (R443, R444). -/
structure SelfTest where
  slot : Nat
  kind : Nat
  skipped : BitVec 8 := 0
  yielded : Bool := false
  deriving DecidableEq, Repr

/-- A JOB_START at step 6 (R439): everything decided by steps 1 to 5. -/
structure Starting where
  slot : Nat
  job : Job
  /-- Launch list: L, program index, ARG, SEQTAG. -/
  list : List (Nat × Nat × Word × Tag)
  launches : List Launch
  param : Nat
  paramData : Bytes
  /-- MULT and core voltage before step 4. -/
  oldMult : BitVec 6
  oldVcore : BitVec 10
  /-- This device's entry is written; the device's own access in progress. -/
  wrote : Bool := false
  sink : Option Nat := none
  deriving DecidableEq, Repr

/-- The host interface (15). -/
structure HostIf where
  linkCxl : Bool := false
  drvMajor : BitVec 8 := 0
  drvMinor : BitVec 8 := 0
  enable : Bool := false
  accepted : Bool := false
  activeMinor : BitVec 8 := 0
  jnext : Word := 1
  mirrorOk : Bool := false
  hdmSize : BitVec 9 := 0
  hdmLocked : Bool := false
  crings : List (Nat × CRing) := []
  slots : List (Nat × Slot) := []
  /-- MSI-X table: 128 words, two an entry; the pending-bit array. -/
  msixTab : Tab Word := []
  pba : Word := 0
  /-- Journal ring by position (R447): entries of 64 bytes. -/
  journal : List (Nat × Bytes) := []
  /-- JSNs whose latest entry is not yet mirrored to flash (R448). -/
  unmirrored : List Nat := []
  /-- Entries of commands accepted in PS1-PS3, still to be written (R446), by JSN. -/
  lateJournal : List (Nat × Bytes) := []
  /-- The mirror on flash: entries as last mirrored, and the ceiling stored there. -/
  mirror : List (Nat × Bytes) := []
  ceiling : Word := 2 ^ 20
  /-- The coarse ceiling log (R449): halves' records in order of writing. -/
  ceilLog : List (Nat × Word × BitVec 32) := [(0, 2 ^ 40, 1)]
  /-- A cold reset stands and the journal has not been reloaded (R448). -/
  reload : Bool := true
  /-- GOs latched during a warm reset, in latch order (R506). -/
  latchedGo : List Nat := []
  programs : List (Nat × Program) := []
  exits : List ExitRec := []
  /-- Pending COMMIT_SETs by job number (R499). -/
  commits : List (Nat × CommitCfg) := []
  test : Option SelfTest := none
  /-- A SPARE_REMAP past its checks (R490): slot, logical tile, the tile's state before step 1. -/
  remap : Option (Nat × Nat × UState) := none
  /-- Results of the last 16 tests, newest first, 32 bytes each (R437). -/
  testLog : List Bytes := []
  /-- Bus state of the link (R425, R426): trained, PERST_N level, link lanes and rate. -/
  trained : Bool := false
  perst : Bool := false
  idle_ : Bool := true
  lanes : BitVec 5 := 0
  gtps : BitVec 8 := 0
  deriving DecidableEq, Repr

end Sys2Proof.Machine
end

