-- ==== Sys2Proof/Machine/StateIo.lean ====
section
/-! DEFINITION. State records of the Ethernet ports and the management block (spec 13, 20), of the flash media (spec 14), and of the security block and the firmware store (spec 19). -/

namespace Sys2Proof.Machine

/-- What the device sends to the outside world, oldest first. -/
inductive Out where
  /-- A Frerak packet of a queue pair, to a peer address. -/
  | frerak (qpn : Nat) (dest : BitVec 128) (p : Pkt)
  /-- A RoCE v2 packet. -/
  | roce (qpn : Nat) (dest : BitVec 128) (p : RocePkt)
  /-- An MSI-X message. -/
  | msix (addr : Word) (data : BitVec 32)
  /-- An Ethernet frame of the management block or a PFC frame. -/
  | frame (port : Nat) (b : Bytes)
  /-- A DOE or secured message to the host. -/
  | doe (b : Bytes)
  /-- A message between the assemblers of a batch stream, to a mailbox route and die (R212, R213). -/
  | stream (route : Word) (die : Nat) (m : StreamMsg)
  /-- A lock-step record to the partner (R493, R495): queue pair, key, BATCH, digest. -/
  | digest (qpn : Nat) (key : Nat) (batch : Word) (d : Bytes)
  /-- A response to a host memory access: poisoned or an error. -/
  | host (ok : Bool) (b : Bytes)
  deriving DecidableEq, Repr

/-- An Ethernet port (R382-R398). -/
structure Port where
  lanes : BitVec 4 := 0
  rate : BitVec 2 := 0
  en : Bool := false
  medium : Bool := false
  pfcEn : BitVec 8 := 0
  /-- 0 OFF, 1 TRAINING, 2 UP. -/
  state : BitVec 2 := 0
  refused : Bool := false
  degraded : Bool := false
  symThresh : BitVec 32 := 0x01000000
  uncThresh : BitVec 16 := 1
  xoff : BitVec 16 := 0x0080
  xon : BitVec 16 := 0x0040
  quanta : BitVec 16 := 0xFFFF
  /-- The 16 performance counters of R398. -/
  cnt : Tab (BitVec 48) := []
  /-- Corrected symbols and uncorrectable codewords of the last complete window (R389). -/
  lastSym : BitVec 32 := 0
  lastUnc : BitVec 32 := 0
  /-- Priorities for which a pause sent by this port stands (R392). -/
  pausing : BitVec 8 := 0
  /-- Priorities that a received PFC frame stops (R392): when each stop began and its length in ns. -/
  paused : List (Nat × Word × Nat) := []
  /-- What waits for a paused priority (R392): priority and message. -/
  txq : List (Nat × Out) := []
  /-- Why the port trains: the reason code its PORT_UP will carry (R389). -/
  reason : BitVec 8 := 1
  deriving DecidableEq, Repr

/-- Management registers (R539). -/
structure Mgmt where
  ringBase : BitVec 34 := 0
  ringSize : BitVec 4 := 8
  ringEn : Bool := false
  head : Word := 0
  tail : Word := 0
  txAddr : BitVec 42 := 0
  txPort : BitVec 7 := 0
  txLen : BitVec 14 := 0
  busy : Bool := false
  /-- Port, length and address of the frame being sent. -/
  cur : Nat × Nat × Nat := (0, 0, 0)
  txTs : Word := 0
  neigh : BitVec 31 := 0
  deriving DecidableEq, Repr

/-- A codeword as it was programmed (R402): header fields and its 4,096 data bytes. Its parity is the function of R403. -/
structure Codeword where
  seq : Nat
  /-- LBA held. -/
  lba : Nat
  kind : Nat
  ec : Nat
  data : Mem
  deriving DecidableEq, Repr

/-- States of an erase unit (R409, R415-R418). -/
inductive EuState where
  | free | opened | closed | retirePending | retired
  deriving DecidableEq, Repr

/-- The unit-table entry of an erase unit (R409) with what the FTL keeps beside it. -/
structure EraseUnit where
  st : EuState := .free
  ec : Nat := 0
  /-- Last program time in seconds. -/
  last : Nat := 0
  /-- Reads since the last erase. -/
  reads : Nat := 0
  refresh : Bool := false
  /-- Codewords used, in order. -/
  used : Nat := 0
  /-- Opened for garbage collection. -/
  gc : Bool := false
  /-- Retire-pending because a codeword of it did not read (R417). -/
  lost : Bool := false
  deriving DecidableEq, Repr

/-- A map log record (R410). -/
structure LogRec where
  type : Nat
  aux : Nat := 0
  logical : Nat := 0
  new : Nat := 0
  old : Nat := 0
  deriving DecidableEq, Repr

/-- A program in flight (R411, R417, R418): `strand` with its number, the first locator, the data, and the source of a relocation. -/
structure Prog where
  loc : Nat
  strand : Bool
  num : Nat
  seq : Nat
  data : Mem
  /-- Source locator of a relocation (R412). -/
  src : Option Nat := none
  deriving DecidableEq, Repr

/-- A codeword read on the ladder of R405: its step, and once it has ended its status and bytes. -/
structure NandRead where
  loc : Nat
  step : Nat := 0
  /-- Asked for by Gather (R540). -/
  gather : Bool := false
  result : Option (Status × Mem) := none
  deriving DecidableEq, Repr

/-- The map image a checkpoint holds (R413), and the place in the log where replay begins. -/
structure MapImage where
  start : Nat := 0
  units : List (Nat × Nat) := []
  strands : List (Nat × Nat) := []
  table : List (Nat × EraseUnit) := []
  deriving DecidableEq, Repr

/-- The flash media (spec 14). -/
structure Media where
  /-- 0 UNFORMATTED, 1 RECOVERING, 2 READY, 3 READ_ONLY, 4 FAILED, 5 FORMATTING. -/
  state : BitVec 4 := 1
  last : Status := 0
  planes : BitVec 3 := 0
  cwpp : BitVec 4 := 0
  pages : BitVec 13 := 0
  units : BitVec 16 := 0
  luns : BitVec 2 := 0
  targets : BitVec 4 := 0
  channels : Word := 0
  userLbas : Nat := 0
  metaLbas : Nat := 0
  objUnits : Nat := 0
  metaPermil : BitVec 4 := 10
  opPermil : BitVec 12 := 70
  objUnitsReg : BitVec 24 := 64
  spareInit : BitVec 32 := 0
  spareLeft : BitVec 32 := 0
  wValid : BitVec 16 := 16
  wAge : BitVec 16 := 2
  wWear : BitVec 16 := 4
  ageShift : BitVec 5 := 12
  gcLow : BitVec 8 := 8
  gcHigh : BitVec 8 := 16
  wlDelta : BitVec 16 := 500
  spareMin : BitVec 32 := 0
  refreshBits : BitVec 10 := 400
  readLimit : BitVec 32 := 1000000
  /-- Geometry facts of the profile (R400). -/
  peLimit : Nat := 0
  retries : Nat := 0
  /-- Usable targets, 16 * channel + target; those that failed (R418). -/
  usable : List Nat := []
  dead : List Nat := []
  /-- Good erase units at format (G of R421). -/
  good : Nat := 0
  formatted : Bool := false
  /-- The flash arrays: codewords by locator. -/
  nand : List (Nat × Codeword) := []
  seq : Nat := 1
  /-- The live map: metadata unit and strand to locator; the unit table by locator of codeword 0. -/
  mapUnits : List (Nat × Nat) := []
  mapStrands : List (Nat × Nat) := []
  table : List (Nat × EraseUnit) := []
  /-- LUN last written in the rotation of R415. -/
  rot : Nat := 0
  /-- Log: durable records since the older checkpoint, and the records of the open codeword with the time of its first. -/
  log : List LogRec := []
  logOpen : List LogRec := []
  logSince : Word := 0
  ckpt : MapImage := {}
  prevCkpt : MapImage := {}
  anchorSeq : Nat := 0
  formatId : Nat := 0
  progs : List Prog := []
  erases : List Nat := []
  reads : List NandRead := []
  /-- Writes accepted and not yet programmed: LBA and data (the write buffer, R418). -/
  wbuf : List (Nat × Mem) := []
  /-- LUNs whose collection runs, and each one's victim (R416, R417). -/
  gc : List (Nat × Option Nat) := []
  /-- Factory-bad erase units. -/
  bad : List Nat := []
  /-- Junction temperature at which each channel was last trained (R400). -/
  trained : Tab (BitVec 16) := []
  /-- The map region of R409, in GiB: base and size. -/
  mapBase : Nat := 0
  mapSize : Nat := 0
  deriving DecidableEq, Repr

/-- An SPDM connection on the DOE mailbox (R529). -/
structure Spdm where
  /-- 0 nothing negotiated, 1 version, 2 capabilities, 3 algorithms. -/
  phase : Nat := 0
  /-- Messages that the signatures cover (DSP0274): VERSION to ALGORITHMS, then digests and certificate. -/
  vca : Bytes := []
  mb : Bytes := []
  meas : Bytes := []
  /-- A key exchange has begun; a secure session is established. -/
  kex : Bool := false
  session : Bool := false
  /-- Link encryption keys installed by IDE_KM, by key set: the request that set them. -/
  ide : List Bytes := []
  signs : Nat := 0
  replies : Nat := 0
  deriving DecidableEq, Repr

/-- The security block and the firmware store (spec 19). -/
structure Security where
  active : Bool := false
  booted : Bool := false
  fallback : Bool := false
  bootReason : BitVec 8 := 0
  fwMin : BitVec 8 := 0
  rtMin : BitVec 8 := 0
  revoked : BitVec 4 := 0
  /-- KEYD0 to KEYD3 (R521). -/
  keyd : List Bytes := []
  /-- Fuse blocks 0-4 as loaded, CRCs included. -/
  fuses : List Bytes := []
  /-- M0 to M3 (R524). -/
  meas : List Bytes := []
  cmdAddr : BitVec 41 := 0
  busy : Bool := false
  reason : BitVec 8 := 0
  result : BitVec 48 := 0
  /-- Images of the store: 0 bank A firmware, 1 bank A runtime, 2 bank B firmware, 3 bank B runtime. -/
  images : List (Nat × Bytes) := []
  /-- The certificate chain of the factory region (R526). -/
  chain : Bytes := []
  fwSvn : BitVec 32 := 0
  rtSvn : BitVec 32 := 0
  fwKey : BitVec 8 := 0
  rtKey : BitVec 8 := 0
  fwVersion : Word := 0
  rtVersion : Word := 0
  /-- The Gaffer firmware runs; the runtime runs. -/
  gaffer : Bool := false
  runtime : Bool := false
  spdm : Spdm := {}
  deriving DecidableEq, Repr

end Sys2Proof.Machine
end

