-- ==== Sys2Proof/Machine/StateXport.lean ====
section
/-! DEFINITION. State records of the Frerak transport (spec 11) and of the Cullet buffer pool (spec 12). -/

namespace Sys2Proof.Machine

/-- Queue-pair states (R319), in code order. -/
inductive QpState where
  | free | idle | listen | connecting | ready | stalled | error | draining
  deriving DecidableEq, Repr

/-- A work request in a send queue (R328), with what its poster held at issue. -/
structure Wreq where
  /-- Ordinal in its queue pair. -/
  ord : Nat := 0
  opcode : BitVec 8 := 0
  flags : BitVec 8 := 0
  length : Nat := 0
  local_ : Nat := 0
  /-- The local operand is a window: physical tile-store byte (R144). -/
  win : Option Nat := none
  offset : Nat := 0
  key : BitVec 32 := 0
  cc : Nat := 0
  value : Word := 0
  compare : Word := 0
  gateCtr : Nat := 0
  gateThr : Word := 0
  tag : BitVec 128 := 0
  job : BitVec 16 := 0xFFFF
  strict : Bool := false
  priv : BitVec 2 := 1
  ttb : Nat := 0
  pkr0 : Word := 0
  pkr1 : Word := 0
  tile : Nat := 0
  sw : Nat := 0
  /-- The remote-route instruction it stands for. -/
  op : Option Nat := none
  /-- The device's own access it stands for: its number in the state's sinks. -/
  sink : Option Nat := none
  /-- Data captured at issue for a window source. -/
  data : Mem := []
  started : Bool := false
  msn : BitVec 32 := 0
  /-- Bytes of a write already in packets; for the other opcodes 1 once the request packet is sent. -/
  sent : Nat := 0
  /-- Bytes of a READ placed so far. -/
  placed : Nat := 0
  deriving DecidableEq, Repr

/-- A remote access of the device's own (a delivery, a payload fetch, a credit read, an agreement entry): its outcome and the bytes read. -/
structure Sink where
  status : Option Status := none
  data : Mem := []
  deriving DecidableEq, Repr

/-- A packet sent and not yet acknowledged (R345). -/
structure Flight where
  pkt : Pkt
  ord : Nat
  path : Nat
  bytes : Nat
  sent : Word
  retries : Nat := 0
  /-- A FAULT_WAIT answer holds it until this time (R335). -/
  waitUntil : Option Word := none
  waitFirst : Option Word := none
  deriving DecidableEq, Repr

/-- One path of a queue pair (R345, R351, R352). -/
structure PathRec where
  live : Bool := true
  srtt : Nat := 0
  /-- RTT samples of the last 10 s with the time of each (R351). -/
  samples : List (Word × Nat) := []
  window : Nat := 65536
  expiries : Nat := 0
  lastCut : Word := 0
  probed : Word := 0
  deriving DecidableEq, Repr

/-- A message being placed at the responder (R342). -/
structure MsgRec where
  msn : BitVec 32
  mlen : Nat
  placed : Nat
  offset : Nat
  imm : Option Word
  key : BitVec 32
  tag : BitVec 128
  tagged : Bool
  roce : Bool := false
  /-- All bytes placed, notification still to come in MSN or tag order, with the PSN of the packet that completed it. -/
  whole : Bool := false
  psn : BitVec 32 := 0
  /-- Nothing is left to notify: a request of another type, or a message answered with a NAK. -/
  quiet : Bool := false
  /-- Its ring entry waits at the ring's decision point (R54). -/
  queued : Bool := false
  /-- TXTIME of the completing packet, and when it came. -/
  time : Word := 0
  came : Word := 0
  path : BitVec 8 := 0
  deriving DecidableEq, Repr

/-- A READ_REQ being answered (R330): the region as the key check found it, and the bytes answered so far. -/
structure RspJob where
  region : Nat
  base : Nat
  ttb : Nat
  pkr0 : Word
  job : BitVec 16
  rights : BitVec 8
  fring : BitVec 16
  key : BitVec 32
  msn : BitVec 32
  psn : BitVec 32
  offset : Nat
  len : Nat
  pos : Nat := 0
  path : BitVec 8 := 0
  /-- The request's tag, where it was tagged. -/
  tag : Option (BitVec 128) := none
  deriving DecidableEq, Repr

/-- A queue pair (R318-R321, R340-R352, R359). -/
structure Qp where
  state : QpState := .free
  job : BitVec 16 := 0xFFFF
  transport : BitVec 8 := 0
  mtuLog2 : Nat := 12
  paths : Nat := 1
  port : BitVec 8 := 0
  sqLog2 : Nat := 6
  prio : BitVec 8 := 0
  peerIp : BitVec 128 := 0
  localIp : BitVec 128 := 0
  service : BitVec 32 := 0
  spsn : BitVec 24 := 0
  rpsn : BitVec 24 := 0
  fring : BitVec 16 := 0
  sqBase : Nat := 0
  /-- MTU_LOG2 and PATHS as created: what each connection offers; `mtuLog2` and `paths` are those in force. -/
  mtuCfg : Nat := 12
  pathsCfg : Nat := 1
  /-- Negotiated connection (R346-R349). -/
  version : BitVec 8 := 0
  peerQpn : BitVec 32 := 0
  cepoch : BitVec 12 := 0
  peerCepoch : BitVec 12 := 0
  peerKind : BitVec 8 := 0
  links : Option Nat := none
  attempts : Nat := 0
  lastTry : Word := 0
  /-- The CONNECT_REQ it answered, for a resend: source address, SRC_QPN, REQ_CEPOCH. -/
  answered : Option (BitVec 128 × BitVec 32 × BitVec 12) := none
  lastWork : Word := 0
  /-- Requester side. -/
  sq : List Wreq := []
  posted : Nat := 0
  nextPsn : BitVec 32 := 0
  nextMsn : BitVec 32 := 0
  flights : List Flight := []
  pathTab : List PathRec := []
  sentFrontier : BitVec 128 := 0
  /-- Responder side, request sequence. -/
  cum : BitVec 32 := 0
  recvd : List (BitVec 32) := []
  msgs : List MsgRec := []
  nextNotify : BitVec 32 := 0
  /-- Results of the last 16 atomics (R344): PSN and the response packet. -/
  atomics : List (BitVec 32 × Pkt) := []
  /-- Response sequence (READ_RESP, ATOMIC_RESP): next to send, next expected, received ahead, in flight. -/
  rspNext : BitVec 32 := 0
  rspCum : BitVec 32 := 0
  rspRecvd : List (BitVec 32) := []
  rspFlights : List Flight := []
  rspJobs : List RspJob := []
  /-- PSNs received whose acknowledgement waits for a notification (R332). -/
  withheld : List (BitVec 32) := []
  /-- Packets held while the context is fetched (R318). -/
  heldPkts : List Pkt := []
  heldRoce : List RocePkt := []
  /-- Next hop of its neighbour entry, read when the connection began (R391). -/
  nextHop : Option Nat := none
  /-- The packet that prompts the next ACK and when it came (R343). -/
  ackDue : Option (Word × Word × BitVec 8) := none
  recvFrontier : BitVec 128 := 0
  /-- Requester fault pending (R336): the ordinal of the work request and the status. -/
  fault : Option (Nat × Status) := none
  resident : Bool := false
  used : Nat := 0
  /-- A packet waits for its context since this time (R318). -/
  holdSince : Option Word := none
  retryCnt : Nat := 0
  deriving DecidableEq, Repr

/-- A memory region (R323-R325). -/
structure Region where
  registered : Bool := false
  base : Nat := 0
  length : Nat := 0
  ttb : Nat := 0
  pkr0 : Word := 0
  job : BitVec 16 := 0xFFFF
  rights : BitVec 8 := 0
  nmode : BitVec 8 := 0
  nring : BitVec 16 := 0
  nctr : BitVec 32 := 0
  fring : BitVec 16 := 0
  gen : BitVec 8 := 0
  /-- Timestamp at which its last MR_DEREGISTER completed. -/
  dereg : Option Word := none
  /-- Deregistration accepted and draining. -/
  draining : Bool := false
  deriving DecidableEq, Repr

/-- Transport registers (11, "Transport registers"). -/
structure XpRegs where
  qpt : BitVec 36 := 0
  mrtLog2 : BitVec 5 := 16
  mrt : BitVec 36 := 0
  ringt : BitVec 36 := 0
  cmdAddr : BitVec 41 := 0
  busy : Bool := false
  status : Status := 0
  result : BitVec 32 := 0
  /-- The command in progress: OP and operand (key index or QPN). -/
  cur : BitVec 8 := 0
  curArg : Nat := 0
  mpl : BitVec 16 := 100
  respWait : BitVec 16 := 20
  idle : BitVec 16 := 1000
  rtoMin : BitVec 16 := 16
  targetDelay : BitVec 16 := 4000
  ai : BitVec 16 := 64
  beta : BitVec 8 := 128
  retryMax : BitVec 8 := 8
  dport : BitVec 16 := 47074
  sportBase : BitVec 16 := 49152
  waitLimit : BitVec 32 := 1000
  deriving DecidableEq, Repr

/-- Who waits for a Cullet buffer (R378). -/
structure PoolWaiter where
  tag : BitVec 128
  job : BitVec 16
  quota : Nat
  src : Nat
  strict : Bool
  /-- Timestamp at which it began to wait (R57). -/
  since : Word := 0
  /-- Reported as stalled. -/
  stalled : Bool := false
  /-- The software context, or the descriptor, that waits. -/
  sw : Option Nat := none
  desc : Option Nat := none
  deriving DecidableEq, Repr

/-- A Cullet pool (R371-R379). -/
structure Pool where
  addr : BitVec 40 := 0
  bufLog2 : BitVec 5 := 8
  loc : Bool := false
  count : BitVec 34 := 0
  job : BitVec 16 := 0
  sbase : BitVec 36 := 0
  wm1 : BitVec 16 := 0
  wm2 : BitVec 16 := 0
  wm3 : BitVec 16 := 0
  hyst : BitVec 16 := 0
  en : Bool := false
  ready : Bool := false
  refused : Bool := false
  genSeed : BitVec 24 := 1
  wraps : BitVec 48 := 0
  level : BitVec 2 := 0
  /-- The free list: indices freed, in order; then never-allocated indices from `fresh` up. -/
  freed : List Nat := []
  fresh : Nat := 0
  /-- Buffers taken out of service (R558 row 3). -/
  dead : Nat := 0
  waiters : List PoolWaiter := []
  deriving DecidableEq, Repr

/-- Cullet registers (R371) and the device-side pool state. -/
structure Cullet where
  pools : List (Nat × Pool) := []
  quotaBase : BitVec 36 := 0
  delay : BitVec 32 := 8000
  deriving DecidableEq, Repr

end Sys2Proof.Machine
end

