-- ==== Sys2Proof/Machine/State.lean ====
section
/-! DEFINITION. The state of the SX-9600 as plain data: every register, buffer, counter, mode and pin the spec gives it, and the queue of waiting commands. -/

namespace Sys2Proof.Machine

/-- Faults that would end a run. The spec gives every detected fault an outcome of its own (R471), so the device has none. -/
inductive Fault where
  deriving DecidableEq, Repr

/-- Refusals. -/
inductive Refusal where
  /-- Raised by exec's arm of a command that has no meaning yet; safe. -/
  | notModelled (mnemonic : String)
  deriving DecidableEq, Repr

/-- An event on its way to the event rings (R357). -/
structure Event where
  time : Word
  type : BitVec 8
  status : Status
  subject : BitVec 32
  detail : Bytes
  deriving DecidableEq, Repr

/-- The machine. -/
structure State where
  /-- Commands waiting, first in first out. -/
  pending : List Instr := []
  /-- The model's own counter of free values used (log 4). -/
  freeCtr : Nat := 0
  /-- The model's own numbers for software contexts, remote operations and descriptors. -/
  nextSw : Nat := 1
  nextOp : Nat := 1
  nextDesc : Nat := 1
  /-- The 64-bit nanosecond timestamp (R4, R24), its fraction in units of 2^-40 ns, and the PTP trim and slew (R396). -/
  now : Word := 0
  nowFrac : Nat := 0
  ptpRate : BitVec 32 := 0
  /-- Correction still to be slewed, in units of 2^-40 ns (R396). -/
  ptpSlew : Int := 0
  /-- A correction of 1 s or more was applied at this time: RTT samples are discarded for 1 ms (R396). -/
  ptpJump : Option Word := none
  /-- Unit control blocks by UCB index; an unlisted one is as after reset (R30). -/
  units : List (Nat × Ucb) := []
  /-- Trouble and health by silicon: UCB index of a slot, cluster, die or the device (R22, R476). -/
  silicon : List (Nat × Silicon) := []
  /-- Slot backing a logical tile, where it is not slot t of its own number (R18); whether it has none (R21). -/
  mapTile : List (Nat × Nat) := []
  unbacked : List Nat := []
  /-- State of a slot by slot index, where it is not mapped (0-15) or a field spare (16, 17). -/
  slotStates : List (Nat × SlotState) := []
  /-- Recorded field remaps: tile, slot (R20). -/
  remaps : List (Nat × Nat) := []
  devGroup : BitVec 8 := 0xFF
  devUnit : BitVec 8 := 0xFF
  groups : List (Nat × GroupRec) := []
  /-- Logical tiles by number L (R28). -/
  tiles : List (Nat × Tile) := []
  ops : List (Nat × RemoteOp) := []
  /-- Descriptor queues by the engine's code in BLK_RESET.TARGET; 200 holds the Gather descriptors, which both engines serve (R111, R195). -/
  engines : List (Nat × List Desc) := []
  /-- Hold-buffer entries of engine instances, by code (R61). -/
  engHold : List (Nat × List Hold) := []
  /-- Engine instances that a block reset quiesces (R510). -/
  engQuiesce : List Nat := []
  dps : List (Nat × List DpReq) := []
  /-- Frontiers published, by logical source index (R53, R56). -/
  fronts : List (Nat × Front) := []
  /-- Sync counters and the tagged adds kept apart from them (R361, R368). -/
  ctrs : Tab Word := []
  adds : List PendAdd := []
  /-- HBM by flat address, and the error patterns of damaged sectors by flat sector number (R454, R458). -/
  hbm : Mem := []
  hbmErr : List (Nat × List (Nat × Byte)) := []
  /-- Tile stores by physical slot: 4 MiB apart; and the error patterns of damaged words, by address div 8. -/
  ts : Mem := []
  tsErr : List (Nat × BitVec 72) := []
  /-- Defects of tensor arrays that strike at the next narrow TMMA (R139, R175): tile, element (1,024 for the duplicated flag logic), error in ACC. -/
  arrayErr : List (Nat × Nat × Int) := []
  pace : Pace := {}
  mem : MemRegs := {}
  lehr : Lehr := {}
  flt : Fault17 := {}
  pwr : Power := {}
  glob : Global := {}
  xp : XpRegs := {}
  qps : List (Nat × Qp) := []
  regions : List (Nat × Region) := []
  cul : Cullet := {}
  host : HostIf := {}
  ports : List (Nat × Port) := []
  mgmt : Mgmt := {}
  media : Media := {}
  sec : Security := {}
  /-- BRL stream states by number (R271). -/
  brl : List (Nat × BrlStream) := []
  /-- Tokenizer and grammar slots: 128 * cluster + slot, grammar slots from 64 up (R289). -/
  slots : List (Nat × TokSlot) := []
  /-- Parison instances by compute die. -/
  streams : List (Nat × Stream) := []
  recordings : List Recording := []
  /-- Engine counters by (offset in the block) / 8 (R540). -/
  engCnt : Tab (BitVec 48) := []
  jobs : List Job := []
  /-- Commit images of running and ended jobs (R480-R484). -/
  images : List CommitImg := []
  /-- JOB_STARTs that wait for agreement (R439 step 6). -/
  starting : List Starting := []
  /-- The device's own remote accesses, by number. -/
  sinks : List (Nat × Sink) := []
  /-- Host memory as the device reaches it (R428); what nothing has written reads as zero (log 7). -/
  hostMem : Mem := []
  /-- Events raised and on their way to the event rings (R357). -/
  evq : List Event := []
  /-- What the device has sent, oldest first. -/
  out : List Out := []
  deriving DecidableEq, Repr

/-- The machine right after a power-on reset is asserted: every register at its cold value (R501, R506). -/
def State.reset : State := {}

end Sys2Proof.Machine
end

