-- ==== Sys2Proof/Machine/Ops.lean ====
section
/-! DEFINITION. Named operations over units, events, memory, counters and translation: the one place where each is read and written. -/

namespace Sys2Proof.Machine

/-! ## Units, slots and trouble counters -/

/-- UCB of an index. -/
def unitGet (s : State) (u : Nat) : Ucb := (kvGet s.units u).getD {}
/-- Store a UCB. -/
def unitSet (s : State) (u : Nat) (x : Ucb) : State := { s with units := kvSet s.units u x }
/-- UCB index of logical tile L (R30). -/
def tileUcb (L : Nat) : Nat := 64 + L
/-- UCB index of slot index i (R30). -/
def slotUcb (i : Nat) : Nat := 1024 + i
/-- Slot number pt that backs logical tile L (R18). -/
def slotOf (s : State) (L : Nat) : Nat := (kvGet s.mapTile L).getD (L % 16)
/-- Slot index 18 n + p of the slot behind logical tile L. -/
def slotIdx (s : State) (L : Nat) : Nat := 18 * (L / 16) + slotOf s L
/-- State of a slot by slot index (R18). -/
def slotStateOf (s : State) (i : Nat) : SlotState := (kvGet s.slotStates i).getD (if i % 18 < 16 then .mapped else .fieldSpare)
/-- Logical tile L has a backing slot (R21). -/
def backed (s : State) (L : Nat) : Bool := !s.unbacked.contains L
/-- The logical tile that slot index i backs. -/
def tileOfSlot (s : State) (i : Nat) : Option Nat :=
  (rangeFrom (16 * (i / 18)) 16).find? fun L => slotIdx s L = i && backed s L
/-- Field spares of cluster n, ascending (R18, UCB_STATE.SPARES). -/
def sparesOf (s : State) (n : Nat) : List Nat := (List.range 18).filter fun p => slotStateOf s (18 * n + p) = .fieldSpare

/-- Ancestors of a unit in the tree, nearest first (R30, R34). -/
def ancestors (u : Nat) : List Nat :=
  if 64 ≤ u ∧ u < 832 then [8 + (u - 64) / 16, 1 + (u - 64) / 128, 0]
  else if 8 ≤ u ∧ u < 56 then [1 + (u - 8) / 8, 0]
  else if 1 ≤ u ∧ u < 7 then [0]
  else []
/-- `a` is `u` or an ancestor of it. -/
def covers (a u : Nat) : Bool := a = u || (ancestors u).contains a
/-- Logical tiles of a unit's subtree. -/
def tilesUnder (u : Nat) : List Nat :=
  if u = 0 then List.range 768
  else if u < 7 then rangeFrom (128 * (u - 1)) 128
  else if 8 ≤ u ∧ u < 56 then rangeFrom (16 * (u - 8)) 16
  else if 64 ≤ u ∧ u < 832 then [u - 64]
  else []
/-- Units of a subtree that are not tiles. -/
def nodesUnder (u : Nat) : List Nat :=
  if u = 0 then 0 :: (rangeFrom 1 6 ++ rangeFrom 8 48)
  else if u < 7 then u :: rangeFrom (8 + 8 * (u - 1)) 8
  else if 8 ≤ u ∧ u < 56 then [u]
  else []
/-- UCB indices of a subtree: its nodes and its tiles. -/
def unitsUnder (u : Nat) : List Nat := nodesUnder u ++ (tilesUnder u).map tileUcb
/-- Change the units of a subtree whose state satisfies `p`. -/
def unitsMove (s : State) (u : Nat) (p : UState → Bool) (f : Nat → UState) : State :=
  (unitsUnder u).foldl (fun s v => let x := unitGet s v; if p x.st then unitSet s v { x with st := f v } else s) s
/-- The unit is bound to a running job (R35). -/
def unitRuns (s : State) (u : Nat) : Bool := s.jobs.any fun j => j.units.any fun a => covers a u
/-- Kind code of a UCB index (UCB_ID.KIND), or none for an index that is a hole (R30). -/
def ucbKind (s : State) (u : Nat) : Option Nat :=
  if u = 0 then some 3 else if u < 7 then some 2
  else if 8 ≤ u ∧ u < 56 then some 1
  else if 64 ≤ u ∧ u < 832 then some 0
  else if 1024 ≤ u ∧ u < 1888 then some 5
  else if 2048 ≤ u ∧ u < 2304 ∧ (kvGet s.groups (u - 2048)).isSome then some 4
  else none
/-- The UCB whose registers a UCB index shows: a backing slot shows its tile's (R31). -/
def ucbHome (s : State) (u : Nat) : Nat :=
  if 1024 ≤ u ∧ u < 1888 then
    match tileOfSlot s (u - 1024) with
    | some L => tileUcb L
    | none => u
  else u
/-- The silicon a UCB index shows (R22). -/
def siliconKey (s : State) (u : Nat) : Nat := if 64 ≤ u ∧ u < 832 then slotUcb (slotIdx s (u - 64)) else u
/-- Silicon record. -/
def siliconGet (s : State) (k : Nat) : Silicon := (kvGet s.silicon k).getD {}
/-- Store a silicon record. -/
def siliconSet (s : State) (k : Nat) (x : Silicon) : State := { s with silicon := kvSet s.silicon k x }

/-- Measured handshake rate of logical tile L in MHz (UCB_HS_RATE). -/
def hsRate (s : State) (L : Nat) : BitVec 16 := (unitGet s (tileUcb L)).rate

/-- Default weight of a trouble cause (R477). -/
def defaultWeight (k : Nat) : Nat :=
  ((kvGet [(0, 4000), (1, 4000), (2, 32), (3, 2000), (4, 4000), (5, 1), (6, 1), (7, 1), (8, 1), (9, 8000), (10, 16000), (11, 64000),
    (12, 500), (16, 500), (17, 2), (24, 1), (25, 500), (26, 2000), (27, 50), (28, 10), (29, 1000), (30, 0), (31, 16000), (32, 0),
    (33, 1), (34, 0)] k).getD 0)
/-- The causes of R477; the others are reserved and never count. -/
def troubleCause (k : Nat) : Bool := k ≤ 12 || k = 16 || k = 17 || (24 ≤ k && k ≤ 34)
/-- Weight of a cause in force (FLT_HW). -/
def weightOf (s : State) (k : Nat) : Nat :=
  match kvGet s.flt.weights k with
  | some w => w.toNat
  | none => defaultWeight k
/-- The score rule of R478: damage shows at once, repair only past the hysteresis. -/
def nextScore (mass score hyst : Nat) : Nat :=
  let r := 1000 - min 1000 (mass / 64)
  if r < score then r else if score + hyst ≤ r ∨ r = 1000 then r else score
/-- Count one event of cause `k` on a silicon record (R476-R478, R37). -/
def silCount (w hyst k : Nat) (x : Silicon) : Silicon :=
  let c := min 0xFFFF ((tabGet 0 x.count k).toNat + 1)
  let m := min (2 ^ 32 - 1) (x.mass + w)
  { x with count := tabSet 0 x.count k (BitVec.ofNat 16 c)
           sat := if c = 0xFFFF then x.sat ||| (1#64 <<< k) else x.sat
           mass := m
           score := nextScore m x.score hyst }
/-- Count one event of cause `k` on the silicon with UCB index `key`. -/
def addTrouble (s : State) (key k : Nat) : State :=
  if troubleCause k then siliconSet s key (silCount (weightOf s k) s.flt.hyst.toNat k (siliconGet s key)) else s
/-- Count `n` events of one cause at once. -/
def addTroubleN (s : State) (key k n : Nat) : State :=
  if n = 0 then s
  else
    let s1 := addTrouble s key k
    let x := siliconGet s1 key
    let c := min 0xFFFF ((tabGet 0 x.count k).toNat + (n - 1))
    let m := min (2 ^ 32 - 1) (x.mass + (n - 1) * weightOf s k)
    siliconSet s1 key {
      x with
      count := tabSet 0 x.count k (BitVec.ofNat 16 c)
      sat := if c = 0xFFFF then x.sat ||| (1#64 <<< k) else x.sat
      mass := m
      score := nextScore m x.score s.flt.hyst.toNat }
/-- Mark a slot suspect (R472). -/
def setSuspect (s : State) (i : Nat) : State := { s with flt := { s.flt with suspect := s.flt.suspect ||| (1#864 <<< i) } }

/-! ## Events (R357, R538, R557) -/

/-- Raise an event: its SEEN bit is set and it goes on its way to the event rings. -/
def raise (s : State) (type : Nat) (st : Status) (subject : Nat) (detail : Bytes) : State :=
  { s with evq := s.evq ++ [{ time := s.now, type := BitVec.ofNat 8 type, status := st, subject := BitVec.ofNat 32 subject, detail := sub detail 0 16 }]
           glob := { s.glob with evtSeen := s.glob.evtSeen ||| (1#11 <<< (type - 1)) } }
/-- Raise DEVICE_ERROR. -/
def deviceError (s : State) (st : Status) (subject : Nat) (detail : Bytes) : State := raise s 9 st subject detail
/-- Raise COUNTER_OVERFLOW for the counter at block `blk`, offset `off` (R541, R542). -/
def overflowEvent (s : State) (blk off : Nat) : State := raise s 11 0 ((blk * 0x10000 + off) / 8) []
/-- Raise COUNTER_OVERFLOW when adding `n` to a 48-bit counter wraps it. -/
def bumpEvent (s : State) (c : BitVec 48) (n blk off : Nat) : State := if 2 ^ 48 ≤ c.toNat + n then overflowEvent s blk off else s
/-- A 48-bit counter plus `n`. -/
def bump (c : BitVec 48) (n : Nat) : BitVec 48 := c + BitVec.ofNat 48 n
/-- An access to a structure the device owns or was given failed (R558): row number, address, status. -/
def ownFail (s : State) (row pa : Nat) (st : Status) : State := deviceError s st 0 (leBytes 8 pa ++ [BitVec.ofNat 8 row])

/-! ## The device physical address map (R26-R31, R452-R454, R531) -/

/-- What a device physical address names. -/
inductive PaKind where
  /-- A byte of HBM by flat address. -/
  | hbm (f : Nat)
  /-- A byte of a logical tile's store. -/
  | tile (L off : Nat)
  /-- A byte of a unit control block. -/
  | ucb (u off : Nat)
  /-- A byte of a register block. -/
  | reg (blk off : Nat)
  /-- A byte of a sync counter's slot. -/
  | ctr (k off : Nat)
  | hole
  deriving DecidableEq, Repr

/-- STACK_R of residue r. -/
def stackR (s : State) (r : Nat) : Nat := (s.mem.ilv.getD r 0).toNat
/-- Stack and offset of a flat address (R454). -/
def stackOf (s : State) (f : Nat) : Nat × Nat := (stackR s (f / 4096 % 24), f / 4096 / 24 * 4096 + f % 4096)
/-- Flat address of offset `o` of stack `st`: the other name of the same cell (R29, R454). -/
def flatOf (s : State) (st o : Nat) : Nat :=
  (o / 4096 * 24 + ((List.range 24).find? fun r => stackR s r = st).getD 0) * 4096 + o % 4096
/-- Populated bytes of register block i (R531). -/
def blockSize (i : Nat) : Nat := [4, 4, 4, 4, 8, 24, 4, 8, 4, 4, 4, 4, 16].getD i 0 * 1024
/-- A byte of HBM by flat address; the media map region is a hole to every master that comes this way (R409). -/
def hbmKind (s : State) (f : Nat) : PaKind :=
  if s.media.mapBase ≤ f / 2 ^ 30 ∧ f / 2 ^ 30 < s.media.mapBase + s.media.mapSize then .hole else .hbm f
/-- Decode a device physical address (R26). -/
def resolve (s : State) (pa : Nat) : PaKind :=
  if pa < 0x020000000000 then if pa < Config.hbmSize then hbmKind s pa else .hole
  else if pa < 0x050000000000 then
    let o := pa - 0x020000000000
    if o / 2 ^ 37 < 24 ∧ o % 2 ^ 37 < Config.stackSize then hbmKind s (flatOf s (o / 2 ^ 37) (o % 2 ^ 37)) else .hole
  else if pa < 0x080000000000 then .hole
  else if pa < 0x0800C0000000 then
    let o := pa - 0x080000000000
    if o % 0x400000 < 0x300000 ∧ backed s (o / 0x400000) then .tile (o / 0x400000) (o % 0x400000) else .hole
  else if pa < 0x0C0000000000 then .hole
  else if pa < 0x0E0000000000 then
    let u := (pa - 0x0C0000000000) / 4096
    if (ucbKind s u).isSome then .ucb u (pa % 4096) else .hole
  else if pa < 0x0F0000000000 then
    let o := pa - 0x0E0000000000
    if o % 0x10000 < blockSize (o / 0x10000) then .reg (o / 0x10000) (o % 0x10000) else .hole
  else if pa < 0x0F0000800000 then .ctr ((pa - 0x0F0000000000) / 64) (pa % 64)
  else .hole

/-- Cut `[pa, pa + len)` at 4 KiB boundaries: address, length and offset of each part; `fuel` bounds the count. -/
def chunks : Nat → Nat → Nat → Nat → List (Nat × Nat × Nat)
  | 0, _, _, _ => []
  | f + 1, pa, len, off =>
    if len = 0 then []
    else
      let n := min len (4096 - pa % 4096)
      (pa, n, off) :: chunks f (pa + n) (len - n) (off + n)
/-- The 4 KiB parts of a range. -/
def chunksOf (pa len : Nat) : List (Nat × Nat × Nat) := chunks (len / 4096 + 2) pa len 0
/-- No byte of the range lies in a hole (R27). -/
def populated (s : State) (pa len : Nat) : Bool := (chunksOf pa len).all fun c => resolve s c.1 ≠ .hole
/-- Every byte of the range lies in HBM, by either view. -/
def inHbm (s : State) (pa len : Nat) : Bool :=
  (chunksOf pa len).all fun c => match resolve s c.1 with
    | .hbm _ => true
    | _ => false

/-! ## HBM with its check code (R456-R460, R465) -/

/-- Error patterns of the sectors that `[f, f + len)` touches. -/
def hbmHits (s : State) (f len : Nat) : List (Nat × List (Nat × Byte)) :=
  s.hbmErr.filter fun e => decide (e.1 * 64 < f + len ∧ f < e.1 * 64 + 64)
/-- XOR the data positions (8 to 71) of a pattern into bytes that start at address `base`. -/
def patApply (m : Mem) (base sector : Nat) (p : List (Nat × Byte)) : Mem :=
  p.foldl (fun m e =>
    if 8 ≤ e.1 ∧ e.1 < 72 ∧ base ≤ sector * 64 + (e.1 - 8) then
      let a := sector * 64 + (e.1 - 8) - base
      tabSet 0 m a (tabGet 0 m a ^^^ e.2) else m) m
/-- Store the pattern a sector is left with. -/
def patStore (s : State) (sector : Nat) (p : List (Nat × Byte)) : State :=
  { s with hbmErr := if p.isEmpty then kvDel s.hbmErr sector else kvSet s.hbmErr sector p }
/-- Count an outcome of a sector read in MEM_ERR and the trouble counters of the device (R459, R465, R477). -/
def countEcc (s : State) (sector : Nat) (o : EccOut) : State :=
  let st := (stackOf s (sector * 64)).1
  match o with
  | .clean => s
  | .corrected _ =>
    let c := tabGet 0 s.mem.corr st
    addTrouble (bumpEvent { s with mem := { s.mem with corr := tabSet 0 s.mem.corr st (bump c 1) } } c 1 7 (0x100 + 0x20 * st)) 0 24
  | .uncorrectable =>
    let c := tabGet 0 s.mem.unc st
    addTrouble (bumpEvent { s with mem := { s.mem with unc := tabSet 0 s.mem.unc st (bump c 1) } } c 1 7 (0x108 + 0x20 * st)) 0 25
  | .mismatch =>
    let c := tabGet 0 s.mem.mism st
    addTrouble (bumpEvent { s with mem := { s.mem with mism := tabSet 0 s.mem.mism st (bump c 1) } } c 1 7 (0x110 + 0x20 * st)) 0 26
/-- Status of a sector outcome (R458). -/
def eccStatus : EccOut → Status
  | .mismatch => stAddrMismatch
  | .uncorrectable => stUncSector
  | _ => stOk

/-- Read HBM by flat address: status, bytes, and the state with corrections written back (R458, R459). -/
def hbmRead (s : State) (f len : Nat) : Status × Mem × State :=
  (hbmHits s f len).foldl (fun acc e =>
    let o := rsDecode e.2
    let s1 := countEcc acc.2.2 e.1 o
    match o with
    | .clean => (acc.1, patApply acc.2.1 f e.1 e.2, s1)
    | .corrected left => (acc.1, patApply acc.2.1 f e.1 left, patStore s1 e.1 left)
    | _ => (if acc.1 = stOk then eccStatus o else acc.1, acc.2.1, s1)) (stOk, memSlice s.hbm f len, s)

/-- Merge reads of the partly covered sectors of a write (R460). -/
def hbmMerge (s : State) (f len : Nat) : Status × State :=
  (hbmHits s f len).foldl (fun acc e =>
    if f ≤ e.1 * 64 ∧ e.1 * 64 + 64 ≤ f + len then acc
    else
      let o := rsDecode e.2
      let s1 := countEcc acc.2 e.1 o
      match o with
      | .clean => (acc.1, { s1 with hbm := patApply s1.hbm 0 e.1 e.2, hbmErr := kvDel s1.hbmErr e.1 })
      | .corrected left => (acc.1, { s1 with hbm := patApply s1.hbm 0 e.1 left, hbmErr := kvDel s1.hbmErr e.1 })
      | _ => (if acc.1 = stOk then eccStatus o else acc.1, s1)) (stOk, s)

/-- Write HBM by flat address. A partial sector whose read fails stores nothing and gives the status (R460). -/
def hbmWrite (s : State) (f len : Nat) (src : Mem) : Status × State :=
  if (hbmHits s f len).isEmpty then (stOk, { s with hbm := memBlit s.hbm f len src })
  else
    let r := hbmMerge s f len
    if r.1 = stOk then
      (stOk, { r.2 with hbm := memBlit r.2.hbm f len src
                        hbmErr := r.2.hbmErr.filter fun e => !decide (e.1 * 64 < f + len ∧ f < e.1 * 64 + 64) })
    else r

/-! ## Tile stores with their check code (R461, R462) -/

/-- Address in `ts` of a store byte of a slot. -/
def tsAddr (slot off : Nat) : Nat := slot * 0x400000 + off
/-- Error patterns of the words a range touches. -/
def tsHits (s : State) (a len : Nat) : List (Nat × BitVec 72) :=
  s.tsErr.filter fun e => decide (e.1 * 8 < a + len ∧ a < e.1 * 8 + 8)
/-- XOR the data bits of a word's pattern into bytes that start at address `base`. -/
def tsApply (m : Mem) (base word : Nat) (e : BitVec 72) : Mem :=
  (List.range 8).foldl (fun m i =>
    if base ≤ word * 8 + i then
      let a := word * 8 + i - base
      tabSet 0 m a (tabGet 0 m a ^^^ (e >>> (8 * i)).setWidth 8) else m) m
/-- Store the pattern a word is left with. -/
def tsStore (s : State) (word : Nat) (e : BitVec 72) : State :=
  { s with tsErr := if e = 0 then kvDel s.tsErr word else kvSet s.tsErr word e }
/-- Status of a word outcome (R462). -/
def tsStatus : EccOut → Status
  | .mismatch => stAddrMismatch
  | .uncorrectable => stUncWord
  | _ => stOk
/-- Trouble cause of a word outcome (R477). -/
def tsCount (s : State) (word : Nat) (o : EccOut) : State :=
  let key := slotUcb (word * 8 / 0x400000)
  match o with
  | .clean => s
  | .corrected _ => addTrouble s key 2
  | .uncorrectable => addTrouble s key 3
  | .mismatch => addTrouble s key 4
/-- Read a slot's tile store: status, bytes, and the state with corrections written back (R462). -/
def tsRead (s : State) (slot off len : Nat) : Status × Mem × State :=
  let a := tsAddr slot off
  (tsHits s a len).foldl (fun acc e =>
    let o := tsDecode e.2
    let s1 := tsCount acc.2.2 e.1 o
    match o with
    | .clean => (acc.1, tsApply acc.2.1 a e.1 e.2, s1)
    | .corrected _ => (acc.1, tsApply acc.2.1 a e.1 (tsLeft e.2), tsStore s1 e.1 (tsLeft e.2))
    | _ => (if acc.1 = stOk then tsStatus o else acc.1, acc.2.1, s1)) (stOk, memSlice s.ts a len, s)
/-- Merge reads of the partly covered words of a write (R462). -/
def tsMerge (s : State) (a len : Nat) : Status × State :=
  (tsHits s a len).foldl (fun acc e =>
    if a ≤ e.1 * 8 ∧ e.1 * 8 + 8 ≤ a + len then acc
    else
      let o := tsDecode e.2
      let s1 := tsCount acc.2 e.1 o
      match o with
      | .clean => (acc.1, { s1 with ts := tsApply s1.ts 0 e.1 e.2, tsErr := kvDel s1.tsErr e.1 })
      | .corrected _ => (acc.1, { s1 with ts := tsApply s1.ts 0 e.1 (tsLeft e.2), tsErr := kvDel s1.tsErr e.1 })
      | _ => (if acc.1 = stOk then tsStatus o else acc.1, s1)) (stOk, s)
/-- Write a slot's tile store. A partial word whose read fails leaves everything unchanged and gives the status (R462). -/
def tsWrite (s : State) (slot off len : Nat) (src : Mem) : Status × State :=
  let a := tsAddr slot off
  if (tsHits s a len).isEmpty then (stOk, { s with ts := memBlit s.ts a len src })
  else
    let r := tsMerge s a len
    if r.1 = stOk then
      (stOk, { r.2 with ts := memBlit r.2.ts a len src
                        tsErr := r.2.tsErr.filter fun e => !decide (e.1 * 8 < a + len ∧ a < e.1 * 8 + 8) })
    else r
/-- Fill a slot's store with zeros and good check bits (R463). -/
def tsFill (s : State) (slot : Nat) : State :=
  { s with ts := memBlit s.ts (tsAddr slot 0) 0x300000 []
           tsErr := s.tsErr.filter fun e => e.1 * 8 / 0x400000 ≠ slot }

/-! ## Sync counters (R361, R367-R369) -/

/-- VALUE of counter k. -/
def ctrGet (s : State) (k : Nat) : Word := tabGet 0 s.ctrs k
/-- Set VALUE of counter k. -/
def ctrSet (s : State) (k : Nat) (v : Word) : State := { s with ctrs := tabSet 0 s.ctrs k v }
/-- A running job by number. -/
def jobOf (s : State) (j : BitVec 16) : Option Job := s.jobs.find? fun x => x.num = j
/-- Job j runs under STRICT. -/
def strictJob (s : State) (j : BitVec 16) : Bool := (jobOf s j).any fun x => x.strict
/-- Job j runs PACED. -/
def pacedJob (s : State) (j : BitVec 16) : Bool := (jobOf s j).any fun x => x.paced
/-- Change a running job. -/
def jobUpd (s : State) (j : BitVec 16) (f : Job → Job) : State :=
  { s with jobs := s.jobs.map fun x => if x.num = j then f x else x }
/-- The next commit point of a job (R480): the least commit batch above those taken, skipped or rolled back past. -/
def commitNext (x : Job) : Option Nat :=
  match x.commit with
  | none => none
  | some c =>
    if c.k = 0 then none
    else match x.lastCommit with
      | none => some (x.firstBatch.toNat + c.k - 1)
      | some l => some (x.firstBatch.toNat + ((l.toNat + 1 - x.firstBatch.toNat) / c.k + 1) * c.k - 1)
/-- Work of job j with this BATCH is held at issue by the commit point to come (R481 step 1). -/
def batchHeld (s : State) (j : BitVec 16) (b : Nat) : Bool := (jobOf s j).any fun x => (commitNext x).any fun n => decide (n < b)
/-- What a read of counter k with tag t observes under STRICT (R367). -/
def ctrSeen (s : State) (k : Nat) (t : Tag) : Word :=
  (s.adds.filter fun a => a.ctr = k && decide (a.tag.toNat < t.toNat)).foldl (fun v a => v + a.amt) (ctrGet s k)
/-- A counter with value v has reached threshold h (R364). -/
def reached (v h : Word) : Bool := decide ((v - h).toNat < 2 ^ 63)
/-- An untagged add, or a tagged add of a job that is not STRICT: applied on arrival (R368, R369). -/
def ctrAdd (s : State) (k : Nat) (amt : Word) : State := ctrSet s k (ctrGet s k + amt)
/-- A tagged add: held apart from VALUE under STRICT (R368), else applied. -/
def ctrAddTagged (s : State) (k : Nat) (amt : Word) (t : Tag) (j : BitVec 16) : State :=
  if strictJob s j then { s with adds := s.adds ++ [{ ctr := k, tag := t, amt := amt, job := j }] } else ctrAdd s k amt

/-! ## Plain physical memory: HBM, tile stores and counter slots -/

/-- Read one 4 KiB part that lies in HBM, a tile store or a counter slot. -/
def partRead (s : State) (pa len : Nat) : Status × Mem × State :=
  match resolve s pa with
  | .hbm f => hbmRead s f len
  | .tile L off => tsRead s (slotIdx s L) off len
  | .ctr k _ =>
    (stOk, memSlice ((rangeFrom k (len / 64 + 2)).flatMap fun j =>
      memOfBytes (0x0F0000000000 + 64 * j) (leBytes 8 (ctrGet s j).toNat)) pa len, s)
  | _ => (stOutOfBounds, [], s)
/-- Write one 4 KiB part that lies in HBM or a tile store. -/
def partWrite (s : State) (pa len : Nat) (src : Mem) : Status × State :=
  match resolve s pa with
  | .hbm f => hbmWrite s f len src
  | .tile L off => tsWrite s (slotIdx s L) off len src
  | _ => (stOutOfBounds, s)
/-- Read a physical range: nothing when a byte lies in a hole (R27). -/
def physRead (s : State) (pa len : Nat) : Status × Mem × State :=
  if populated s pa len then
    (chunksOf pa len).foldl (fun acc c =>
      let r := partRead acc.2.2 c.1 c.2.1
      (if acc.1 = stOk then r.1 else acc.1, acc.2.1 ++ memShift r.2.1 c.2.2, r.2.2)) (stOk, [], s)
  else (stOutOfBounds, [], s)
/-- Write a physical range part by part; nothing when a byte lies in a hole (R27). The first failure is the status. -/
def physWrite (s : State) (pa len : Nat) (src : Mem) : Status × State :=
  if populated s pa len then
    (chunksOf pa len).foldl (fun acc c =>
      let r := partWrite acc.2 c.1 c.2.1 (memSlice src c.2.2 c.2.1)
      (if acc.1 = stOk then r.1 else acc.1, r.2)) (stOk, s)
  else (stOutOfBounds, s)
/-- Read a list of physical pieces as one string. -/
def piecesRead (s : State) (ps : List (Nat × Nat)) : Status × Mem × State :=
  let r := ps.foldl (fun (acc : Status × Mem × State × Nat) c =>
    let r := physRead acc.2.2.1 c.1 c.2
    (if acc.1 = stOk then r.1 else acc.1, acc.2.1 ++ memShift r.2.1 acc.2.2.2, r.2.2, acc.2.2.2 + c.2)) (stOk, [], s, 0)
  (r.1, r.2.1, r.2.2.1)
/-- Write a string over a list of physical pieces. -/
def piecesWrite (s : State) (ps : List (Nat × Nat)) (src : Mem) : Status × State :=
  let r := ps.foldl (fun (acc : Status × State × Nat) c =>
    let r := physWrite acc.2.1 c.1 c.2 (memSlice src acc.2.2 c.2)
    (if acc.1 = stOk then r.1 else acc.1, r.2, acc.2.2 + c.2)) (stOk, s, 0)
  (r.1, r.2.1)
/-- Little-endian number read at a physical address. -/
def physNat (s : State) (pa n : Nat) : Status × Nat × State :=
  let r := physRead s pa n
  (r.1, memNat r.2.1 0 n, r.2.2)
/-- Write a byte string at a physical address. -/
def physPut (s : State) (pa : Nat) (b : Bytes) : Status × State := physWrite s pa b.length (memOfBytes 0 b)
/-- Bytes of HBM as a reader without counters sees them: none where a sector does not read (R458). -/
def hbmPeek (s : State) (pa len : Nat) : Option Mem :=
  if inHbm s pa len then
    let r := physRead s pa len
    if r.1 = stOk then some r.2.1 else none
  else none

/-! ## Translation (R86-R90) -/

/-- Outcome of a translation. -/
inductive Xl where
  /-- Physical address, and the page it lies in. -/
  | ok (pa : Nat) (page : TlbEntry)
  /-- TRANSLATION_FAULT trap with its status. -/
  | fault (st : Status)
  /-- Freeze with its status. -/
  | deny (st : Status)
  deriving DecidableEq, Repr

/-- Access kinds: read, write, instruction fetch. -/
inductive Acc where
  | read | write | fetch
  deriving DecidableEq, Repr

/-- Bits 63:56 all equal bit 55 (R86). -/
def canonical (va : Word) : Bool := (va.toNat / 2 ^ 55 = 0) || (va.toNat / 2 ^ 55 = 2 ^ 9 - 1)
/-- Rights of a leaf (R89 rows 4 and 5). -/
def leafCheck (leaf pkr0 pkr1 priv : Nat) (a : Acc) : Option Status :=
  let right := match a with
    | .read => bitOf leaf 2
    | .write => bitOf leaf 3
    | .fetch => bitOf leaf 4
  let k := bitsAt leaf 48 6
  let pkr := if k < 32 then pkr0 else pkr1
  let bit := 2 * (k % 32) + (if a = .write then 1 else 0)
  if !right || (priv = 0 && !bitOf leaf 5) then some stRightsDenied
  else if priv = 0 && !bitOf pkr bit then some stPkeyDenied
  else none
/-- Finish a translation at a leaf. -/
def leafXl (pg : TlbEntry) (pkr0 pkr1 priv va : Nat) (a : Acc) : Xl :=
  match leafCheck pg.leaf pkr0 pkr1 priv a with
  | some st => .deny st
  | none => .ok (bitsAt pg.leaf 8 40 * 256 + (va - pg.va)) pg
/-- Level of a walk: lowest VA bit it indexes, number of index bits. -/
def levelBits (lvl : Nat) : Nat × Nat := [(43, 13), (30, 13), (21, 9), (16, 5)].getD lvl (16, 5)
/-- Walk from level `lvl` with `fuel` levels left and the table at `tbl` (R87-R89). -/
def walkFrom (s : State) (pkr0 pkr1 priv va : Nat) (a : Acc) : Nat → Nat → Nat → Xl
  | 0, _, _ => .fault stTableMalformed
  | fuel + 1, lvl, tbl =>
    let lb := levelBits lvl
    match hbmPeek s (tbl + 8 * bitsAt va lb.1 lb.2) 8 with
    | none => .fault stTableMalformed
    | some m =>
      let e := memNat m 0 8
      let addr := bitsAt e 8 40 * 256
      if !bitOf e 0 then .fault stPageNotPresent
      else if bitsAt e 6 2 ≠ 0 ∨ e / 2 ^ 54 ≠ 0 then .fault stTableMalformed
      else if bitOf e 1 then
        if lvl = 3 then .fault stTableMalformed
        else
          let size := [0, 65536, 4096, 256].getD (lvl + 1) 256
          if addr % size ≠ 0 ∨ !inHbm s addr 1 then .fault stTableMalformed
          else walkFrom s pkr0 pkr1 priv va a fuel (lvl + 1) addr
      else if lvl = 0 then .fault stTableMalformed
      else
        let size := 2 ^ lb.1
        if addr % size ≠ 0 ∨ resolve s addr = .hole then .fault stTableMalformed
        else leafXl { va := va - va % size, size := size, leaf := e } pkr0 pkr1 priv va a
/-- Walk the four-level table at `ttb` (R89). The address is canonical. -/
def walk (s : State) (ttb pkr0 pkr1 priv va : Nat) (a : Acc) : Xl :=
  if ttb % 65536 ≠ 0 ∨ !inHbm s ttb 65536 then .fault stTableMalformed
  else walkFrom s pkr0 pkr1 priv (va % 2 ^ 56) a 4 0 ttb
/-- Translate without a cache, checking that the address is canonical (R86). -/
def xlNow (s : State) (ttb pkr0 pkr1 priv : Nat) (va : Word) (a : Acc) : Xl :=
  if canonical va then walk s ttb pkr0 pkr1 priv va.toNat a else .deny stOutOfBounds
/-- Cached page that covers an address (R90). -/
def tlbFind (t : List TlbEntry) (va : Nat) : Option TlbEntry := t.find? fun e => decide (e.va ≤ va ∧ va < e.va + e.size)
/-- Translate for a context (R89, R90). A cached page whose table entry has changed may be used or not: a free choice (log 4). The state's free counter moves when it is drawn. -/
def xlCtx (s : State) (c : Ctx) (va : Word) (a : Acc) : Xl × Ctx × State :=
  if canonical va then
    let v := va.toNat % 2 ^ 56
    let r := walk s c.ttb.toNat c.pkr0.toNat c.pkr1.toNat c.priv.toNat v a
    match tlbFind c.tlb v with
    | some e =>
      let old := leafXl e c.pkr0.toNat c.pkr1.toNat c.priv.toNat v a
      if old = r then (r, c, s)
      else (if Config.freeBool s.freeCtr then old else r, c, { s with freeCtr := s.freeCtr + 1 })
    | none =>
      match r with
      | .ok pa pg => (.ok pa pg, { c with tlb := c.tlb ++ [pg] }, s)
      | x => (x, c, s)
  else (.deny stOutOfBounds, c, s)

/-- Result of translating a range: the physical pieces, or the first failing address with its outcome. -/
inductive XlRange where
  | ok (ps : List (Nat × Nat))
  | bad (va : Nat) (x : Xl)
  deriving DecidableEq, Repr

/-- Translate a range for a context, 64 KiB at a time (R145: every page touched). -/
def xlRangeCtx (a : Acc) : Nat → State → Ctx → Nat → Nat → List (Nat × Nat) → XlRange × Ctx × State
  | 0, s, c, _, _, ps => (.ok ps, c, s)
  | f + 1, s, c, va, len, ps =>
    if len = 0 then (.ok ps, c, s)
    else
      let n := min len (65536 - va % 65536)
      let r := xlCtx s c (BitVec.ofNat 64 va) a
      match r.1 with
      | .ok pa _ => xlRangeCtx a f r.2.2 r.2.1 (va + n) (len - n) (ps ++ [(pa, n)])
      | x => (.bad va x, r.2.1, r.2.2)
/-- Translate `[va, va + len)` for a context. -/
def xlSpan (s : State) (c : Ctx) (va : Word) (len : Nat) (a : Acc) : XlRange × Ctx × State :=
  xlRangeCtx a (len / 65536 + 2) s c va.toNat len []
/-- Translate a range with held translation state (engines R110, work requests R329, regions R326). -/
def xlHeldGo (s : State) (ttb pkr0 pkr1 priv : Nat) (a : Acc) : Nat → Nat → Nat → List (Nat × Nat) → XlRange
  | 0, _, _, ps => .ok ps
  | f + 1, va, len, ps =>
    if len = 0 then .ok ps
    else
      let n := min len (65536 - va % 65536)
      match xlNow s ttb pkr0 pkr1 priv (BitVec.ofNat 64 va) a with
      | .ok pa _ => xlHeldGo s ttb pkr0 pkr1 priv a f (va + n) (len - n) (ps ++ [(pa, n)])
      | x => .bad va x
/-- Translate `[va, va + len)` with held translation state. -/
def xlHeld (s : State) (ttb pkr0 pkr1 priv va len : Nat) (a : Acc) : XlRange :=
  xlHeldGo s ttb pkr0 pkr1 priv a (len / 65536 + 2) va len []

/-! ## Free values (log 4) -/

/-- `n` fresh free bytes as sparse cells, and the state with its free counter moved. -/
def freeCells (s : State) (n : Nat) : Mem × State :=
  (memOfBytes 0 ((List.range n).map fun i => Config.freeByte (s.freeCtr + i)), { s with freeCtr := s.freeCtr + n })

/-! ## Outgoing messages -/

/-- Send something to the outside world. -/
def send (s : State) (o : Out) : State := { s with out := s.out ++ [o] }

end Sys2Proof.Machine
end

