-- ==== Sys2Proof/Machine/Pools.lean ====
section
/-! DEFINITION. The Cullet buffer pools themselves (R371-R379): handles, state words, quotas, allocation, reference counts and frees, and back-pressure levels. -/

namespace Sys2Proof.Machine

/-- Pool p. -/
def poolGet (s : State) (p : Nat) : Pool := (kvGet s.cul.pools p).getD {}
/-- Store pool p. -/
def poolSet (s : State) (p : Nat) (x : Pool) : State := { s with cul := { s.cul with pools := kvSet s.cul.pools p x } }
/-- Change pool p. -/
def poolUpd (s : State) (p : Nat) (f : Pool → Pool) : State := poolSet s p (f (poolGet s p))
/-- FREE of a pool. -/
def poolFree (p : Pool) : Nat := (p.count.toNat - p.fresh) + p.freed.length
/-- Back-pressure level of a pool with `free` free buffers (R379): a level is entered below its mark and left at mark plus hysteresis. -/
def poolLevel (p : Pool) (free : Nat) : BitVec 2 :=
  let on := fun (n : Nat) (wm : BitVec 16) =>
    decide (free * 65536 < wm.toNat * p.count.toNat) ||
      (decide (n ≤ p.level.toNat) && decide (free * 65536 < (wm.toNat + p.hyst.toNat) * p.count.toNat) && wm ≠ 0)
  if on 3 p.wm3 then 3 else if on 2 p.wm2 then 2 else if on 1 p.wm1 then 1 else 0
/-- The pool with its level brought up to date. -/
def poolRelevel (p : Pool) : Pool := { p with level := poolLevel p (poolFree p) }
/-- Bytes of a buffer of a pool. -/
def poolSize (p : Pool) : Nat := 2 ^ p.bufLog2.toNat
/-- Device physical address of buffer i (R371). -/
def bufAddr (p : Pool) (i : Nat) : Nat := p.addr.toNat * 256 + i * poolSize p
/-- Device physical address of state word i (R374). -/
def stateAddr (p : Pool) (i : Nat) : Nat := p.sbase.toNat * 4096 + 8 * i
/-- Device physical address of the LIMIT and HELD pair of quota entry q for pool p (R377). -/
def quotaAddr (s : State) (q p : Nat) : Nat := s.cul.quotaBase.toNat * 4096 + 512 * q + 8 * p
/-- A handle (R373). -/
def mkHandle (p i gen : Nat) : Word := BitVec.ofNat 64 (i + p * 2 ^ 34 + gen * 2 ^ 40)
/-- INDEX of a handle. -/
def hIndex (h : Word) : Nat := bitsAt h.toNat 0 34
/-- POOL of a handle. -/
def hPool (h : Word) : Nat := bitsAt h.toNat 34 6
/-- GEN of a handle. -/
def hGen (h : Word) : Nat := bitsAt h.toNat 40 24
/-- A state word (R374). -/
def mkStateWord (refs gen quota : Nat) (alloc : Bool) : Nat := refs + gen * 2 ^ 16 + quota * 2 ^ 40 + b2n alloc * 2 ^ 63

/-- Count a timing-dependent choice on unit `u` and on the device (R58). -/
def tdcCount (s : State) (u : Nat) : State :=
  let s1 := unitSet s 0 { unitGet s 0 with tdc := (unitGet s 0).tdc + 1 }
  if u = 0 then s1 else unitSet s1 u { unitGet s1 u with tdc := (unitGet s1 u).tdc + 1 }

/-- LIMIT and HELD of a quota entry (R377). -/
def quotaRead (s : State) (q p : Nat) : Status × Nat × Nat × State :=
  let r := physNat s (quotaAddr s q p) 8
  (r.1, bitsAt r.2.1 0 32, bitsAt r.2.1 32 32, r.2.2)
/-- Write HELD; a failure leaves it (R558 row 5). -/
def heldWrite (s : State) (q p held : Nat) : State :=
  let a := quotaAddr s q p + 4
  let r := physPut s a (leBytes 4 held)
  if r.1 = stOk then r.2 else ownFail r.2 5 a r.1

/-- Outcome of an allocation attempt. -/
inductive Alloc where
  | got (h : Word)
  /-- Not satisfiable now (R378). -/
  | short
  /-- The quota entry does not read (R558 row 5). -/
  | bad (st : Status)
  deriving DecidableEq, Repr

/-- Take buffers off the free list until one's state word can be written (R375, R378, R558 row 3). -/
def allocGo : Nat → State → Nat → Nat → Option Word × State
  | 0, s, _, _ => (none, s)
  | f + 1, s, p, q =>
    let x := poolGet s p
    let pop : Option (Nat × Pool) :=
      if x.fresh < x.count.toNat then some (x.fresh, { x with fresh := x.fresh + 1 })
      else match x.freed with
        | [] => none
        | i :: r => some (i, { x with freed := r })
    match pop with
    | none => (none, s)
    | some (i, x1) =>
      let s1 := poolSet s p (poolRelevel x1)
      let a := stateAddr x i
      let r := physNat s1 a 8
      let gen := bitsAt r.2.1 16 24
      let w := if r.1 = stOk then physPut r.2.2 a (leBytes 8 (mkStateWord 1 gen q true)) else (r.1, r.2.2)
      if w.1 = stOk then (some (mkHandle p i gen), w.2)
      else allocGo f (ownFail (poolUpd w.2 p fun x => { x with dead := x.dead + 1 }) 3 a w.1) p q
/-- Try to allocate from pool p for a requester charged to quota entry q (R378). -/
def alloc (s : State) (p q : Nat) : Alloc × State :=
  let r := quotaRead s q p
  if r.1 ≠ stOk then (.bad r.1, ownFail r.2.2.2 5 (quotaAddr s q p) r.1)
  else
    let x := poolGet s p
    if poolFree x = 0 ∨ r.2.1 ≤ r.2.2.1 then (.short, r.2.2.2)
    else
      let g := allocGo (poolFree x) r.2.2.2 p q
      match g.1 with
      | some h => (.got h, heldWrite g.2 q p (r.2.2.1 + 1))
      | none => (.short, g.2)

/-- The state word of a handle where the handle names an allocated buffer (R374). -/
inductive HandleSt where
  | live (refs quota : Nat)
  | stale
  | bad (st : Status)
  deriving DecidableEq, Repr
/-- Look a handle up in its pool's state array (R374, R558 row 4). -/
def handleRead (s : State) (h : Word) : HandleSt × State :=
  let p := poolGet s (hPool h)
  if !p.ready ∨ p.count.toNat ≤ hIndex h then (.stale, s)
  else
    let a := stateAddr p (hIndex h)
    let r := physNat s a 8
    if r.1 ≠ stOk then (.bad r.1, ownFail r.2.2 4 a r.1)
    else if bitOf r.2.1 63 ∧ bitsAt r.2.1 16 24 = hGen h then (.live (bitsAt r.2.1 0 16) (bitsAt r.2.1 40 12), r.2.2)
    else (.stale, r.2.2)
/-- Write the state word of a handle's buffer. -/
def stateWrite (s : State) (h : Word) (w : Nat) : Status × State :=
  let a := stateAddr (poolGet s (hPool h)) (hIndex h)
  let r := physPut s a (leBytes 8 w)
  if r.1 = stOk then r else (r.1, ownFail r.2 4 a r.1)
/-- Free a buffer in one step (R374): generation, quota, free list. -/
def bufFree (s : State) (h : Word) (quota : Nat) : Status × State :=
  let g := hGen h
  let wrap := g = 2 ^ 24 - 1
  let w := stateWrite s h (mkStateWord 0 (if wrap then 1 else g + 1) 0 false)
  if w.1 ≠ stOk then w
  else
    let p := hPool h
    let old := (poolGet w.2 p).wraps
    let s1 := poolUpd w.2 p fun x => poolRelevel { x with
      freed := x.freed ++ [hIndex h]
      wraps := if wrap then bump x.wraps 1 else x.wraps }
    let s2 := if wrap then bumpEvent s1 old 1 4 (0x40 * p + 0x30) else s1
    let q := quotaRead s2 quota p
    if q.1 = stOk then (stOk, heldWrite q.2.2.2 quota p (q.2.2.1 - 1))
    else (stOk, ownFail q.2.2.2 5 (quotaAddr s2 quota p) q.1)

/-- Outcome of a release or a reference. -/
inductive RefOut where
  | ok
  | stale
  | bad (st : Status)
  deriving DecidableEq, Repr
/-- Subtract 1 from REFS; at 0 the buffer is freed (R374). -/
def handleRelease (s : State) (h : Word) : RefOut × State :=
  let r := handleRead s h
  match r.1 with
  | .stale => (.stale, r.2)
  | .bad st => (.bad st, r.2)
  | .live refs quota =>
    let w := if refs ≤ 1 then bufFree r.2 h quota else stateWrite r.2 h (mkStateWord (refs - 1) (hGen h) quota true)
    (if w.1 = stOk then .ok else .bad w.1, w.2)
/-- Add to REFS; past 65,535 is an error (R374). -/
def handleRef (s : State) (h : Word) (n : Nat) : RefOut × State :=
  let r := handleRead s h
  match r.1 with
  | .stale => (.stale, r.2)
  | .bad st => (.bad st, r.2)
  | .live refs quota =>
    if 65535 < refs + n then (.stale, r.2)
    else
      let w := stateWrite r.2 h (mkStateWord (refs + n) (hGen h) quota true)
      (if w.1 = stOk then .ok else .bad w.1, w.2)

end Sys2Proof.Machine
end

