-- ==== Sys2Proof/Machine/Context.lean ====
section
/-! DEFINITION. Software contexts: tags and frontiers (R47-R53), save areas (R100-R103), completion of remote operations and descriptors (R94, R95, R111), and freezing a logical tile (R473). -/

namespace Sys2Proof.Machine

/-- Outcome type of every command. -/
abbrev Out_ := Host.Outcome State Fault Refusal

/-- Count `n` in the engine counter at offset `off` of its block (R540). -/
def engCount (s : State) (off n : Nat) : State :=
  let c := tabGet 0 s.engCnt (off / 8)
  bumpEvent { s with engCnt := tabSet 0 s.engCnt (off / 8) (bump c n) } c n 12 off

/-! ## Tags and sources -/

/-- Build a sequence tag (R47). -/
def mkTag (batch : Word) (phase : BitVec 8) (item : BitVec 24) (step origin : Nat) : Tag :=
  BitVec.ofNat 128 (batch.toNat * 2 ^ 64 + phase.toNat * 2 ^ 56 + item.toNat * 2 ^ 32 + (step % 2 ^ 28) * 16 + origin % 16)
/-- BATCH of a tag. -/
def tagBatch (t : Tag) : Word := (t >>> 64).setWidth 64
/-- STEP of a tag. -/
def tagStep (t : Tag) : BitVec 28 := (t >>> 4).setWidth 28
/-- The tag with its ORIGIN replaced (R50). -/
def withOrigin (t : Tag) (o : Nat) : Tag := t - BitVec.ofNat 128 (t.toNat % 16) + BitVec.ofNat 128 (o % 16)
/-- The tag of the instruction a context issues next. -/
def ctxTag (c : Ctx) : Tag := mkTag c.batch c.phase c.item c.step 0
/-- The tag of the instruction after the one that waits (R53). -/
def ctxAfter (c : Ctx) : Tag := mkTag c.batch c.phase c.item (c.step + 1) 0
/-- Frontier of a context (R53). -/
def ctxFront (c : Ctx) : Tag :=
  match c.wait with
  | .swait _ _ | .pool _ _ _ => ctxAfter c
  | _ => ctxTag c
/-- Logical source index of a hardware context (R56). -/
def ctxSrc (L hw : Nat) : Nat := 8 * L + hw
/-- Logical source index of an engine instance (R56). -/
def engSrc (code : Nat) : Nat := 8192 + code
/-- Logical source index of a queue pair (R56). -/
def qpSrc (qpn : Nat) : Nat := 16384 + qpn
/-- Publish a source's frontier when it rises (R53). -/
def frontRaise (s : State) (src : Nat) (j : BitVec 16) (t : Tag) : State :=
  match kvGet s.fronts src with
  | some f =>
    if f.job = j then { s with fronts := kvSet s.fronts src { f with tag := if f.tag.toNat < t.toNat then t else f.tag } }
    else { s with fronts := kvSet s.fronts src { job := j, tag := t } }
  | none => { s with fronts := kvSet s.fronts src { job := j, tag := t } }
/-- Set the frontier of a source that now stands for another software context. -/
def frontSet (s : State) (src : Nat) (j : BitVec 16) (t : Tag) : State := { s with fronts := kvSet s.fronts src { job := j, tag := t } }
/-- Every source of the job has a frontier strictly above `t` (R55, R367): the published ones, and those of its saved contexts. -/
def frontsAbove (s : State) (j : BitVec 16) (t : Tag) : Bool :=
  (s.fronts.all fun e => e.2.job ≠ j || decide (t.toNat < e.2.tag.toNat)) &&
  (s.tiles.all fun e => (e.2.runq ++ e.2.waiting).all fun v => v.job ≠ j || decide (t.toNat < v.tag.toNat))
/-- A source has no more work: its frontier is all ones (R53). -/
def frontDrop (s : State) (src : Nat) : State := { s with fronts := kvDel s.fronts src }

/-! ## Tiles and contexts -/

/-- A logical tile. -/
def tileGet (s : State) (L : Nat) : Tile := (kvGet s.tiles L).getD {}
/-- Store a logical tile. -/
def tileSet (s : State) (L : Nat) (t : Tile) : State := { s with tiles := kvSet s.tiles L t }
/-- Change a logical tile. -/
def tileUpd (s : State) (L : Nat) (f : Tile → Tile) : State := tileSet s L (f (tileGet s L))
/-- The software context in a hardware context. -/
def ctxGet (s : State) (L hw : Nat) : Option Ctx := kvGet (tileGet s L).hws hw
/-- Store a software context in its hardware context. -/
def ctxSet (s : State) (L hw : Nat) (c : Ctx) : State := tileUpd s L fun t => { t with hws := kvSet t.hws hw c }
/-- Empty a hardware context. -/
def ctxDel (s : State) (L hw : Nat) : State := tileUpd s L fun t => { t with hws := kvDel t.hws hw }
/-- Where a resident software context sits: tile and hardware context. -/
def ctxFind (s : State) (sw : Nat) : Option (Nat × Nat) :=
  s.tiles.findSome? fun t => (t.2.hws.find? fun h => h.2.sw = sw).map fun h => (t.1, h.1)
/-- Change a resident software context by number. -/
def ctxUpd (s : State) (sw : Nat) (f : Ctx → Ctx) : State :=
  match ctxFind s sw with
  | some (L, hw) =>
    match ctxGet s L hw with
    | some c => ctxSet s L hw (f c)
    | none => s
  | none => s

/-- g register: g0 reads zero (R80). -/
def getG (c : Ctx) (r : Nat) : Word := if r = 0 then 0 else tabGet 0 c.g r
/-- Write a g register: a write to g0 is discarded (R80). -/
def setG (c : Ctx) (r : Nat) (v : Word) : Ctx := if r = 0 then c else { c with g := tabSet 0 c.g r v }
/-- p register: p0 reads all ones (R80). -/
def getP (c : Ctx) (r : Nat) : BitVec 128 := if r = 0 then BitVec.allOnes 128 else tabGet 0 c.p r
/-- Write a p register: a write to p0 is discarded (R80). -/
def setP (c : Ctx) (r : Nat) (v : BitVec 128) : Ctx := if r = 0 then c else { c with p := tabSet 0 c.p r v }
/-- v register. -/
def getV (c : Ctx) (r : Nat) : BitVec 1024 := tabGet 0 c.v r
/-- Write a v register. -/
def setV (c : Ctx) (r : Nat) (v : BitVec 1024) : Ctx := { c with v := tabSet 0 c.v r v }
/-- Element (i, j) of accumulator ad (R80). -/
def getA (c : Ctx) (ad i j : Nat) : BitVec 96 := tabGet 0 c.a (ad * 1024 + i * 32 + j)
/-- Replace all of accumulator ad by a row-major list of 1,024 elements. -/
def setA (c : Ctx) (ad : Nat) (es : List (BitVec 96)) : Ctx :=
  { c with a := (c.a.filter fun e => decide (e.1 < ad * 1024)) ++
                (((es.take 1024).zipIdx.map fun e => (ad * 1024 + e.2, e.1)).filter fun e => e.2 ≠ 0) ++
                (c.a.filter fun e => decide ((ad + 1) * 1024 ≤ e.1)) }
/-- Lane l of exact accumulator xd. -/
def getX (c : Ctx) (xd l : Nat) : BitVec 640 := tabGet 0 c.x (xd * 8 + l)
/-- Write lane l of exact accumulator xd. -/
def setX (c : Ctx) (xd l : Nat) (v : BitVec 640) : Ctx := { c with x := tabSet 0 c.x (xd * 8 + l) v }

/-- The remote operations of a software context that are not complete. -/
def opsOf (s : State) (sw : Nat) : List (Nat × RemoteOp) := s.ops.filter fun o => o.2.owner = sw && !o.2.done
/-- Handle of a local UCB (R97). -/
def localHandle (u : Nat) : Word := BitVec.ofNat 64 (0x0C0000000000 + u * 4096)

/-! ## Special registers as runtime level reads them (R81, R128) -/

/-- XCAUSE as a register. -/
def xcauseReg (c : Ctx) : Word := BitVec.ofNat 64 (c.xcause.toNat + c.xstatus.toNat * 2 ^ 16)
/-- RERR as a register. -/
def rerrReg (c : Ctx) : Word := BitVec.ofNat 64 (c.rerrStatus.toNat + b2n c.rerrMore * 2 ^ 16 + c.rerrStep.toNat * 2 ^ 32)
/-- TSWIN as a register. -/
def tswinReg (c : Ctx) : Word := BitVec.ofNat 64 (c.tsBase.toNat + c.tsSize.toNat * 2 ^ 16)
/-- ISAVER: minor 1, major 2, twelve profile bits (R82). -/
def isaver : Word := 0x0FFF0201
/-- Special register number `n` of a context on tile L (R128); SEQTAG gives 128 bits. -/
def specReg (s : State) (L : Nat) (c : Ctx) (n : Nat) : BitVec 128 :=
  match n with
  | 0 => ctxTag c
  | 1 => c.retired.setWidth 128
  | 2 => c.retiredRt.setWidth 128
  | 3 => (localHandle (tileUcb L)).setWidth 128
  | 4 => c.job.setWidth 128
  | 5 => s.now.setWidth 128
  | 6 => s.pace.tick.setWidth 128
  | 7 => (hsRate s L).setWidth 128
  | 8 => (tabGet 0 s.glob.dieTemp (L / 128)).setWidth 128
  | 9 => s.pace.slips.setWidth 128
  | 10 => (unitGet s (tileUcb L)).tdc.setWidth 128
  | 11 => c.ttb.setWidth 128
  | 12 => c.pkr0.setWidth 128
  | 13 => c.pkr1.setWidth 128
  | 14 => (tswinReg c).setWidth 128
  | 15 => c.xvec.setWidth 128
  | 16 => c.xpc.setWidth 128
  | 17 => (xcauseReg c).setWidth 128
  | 18 => c.xaddr.setWidth 128
  | 19 => (rerrReg c).setWidth 128
  | 20 => c.priv.setWidth 128
  | 21 => isaver.setWidth 128
  | 22 => c.profile.setWidth 128
  | _ => 0

/-! ## Save areas (R100) -/

/-- Cells of a number at an offset. -/
def numCells (off n x : Nat) : Mem := memOfBytes off (leBytes n x)
/-- Image of a software context in its 128 KiB save area (R100). -/
def ctxImage (s : State) (L : Nat) (c : Ctx) : Mem :=
  (c.g.flatMap fun e => if e.1 = 0 then [] else numCells (8 * e.1) 8 e.2.toNat) ++
  numCells 0x200 16 (2 ^ 128 - 1) ++
  (c.p.flatMap fun e => if e.1 = 0 then [] else numCells (0x200 + 16 * e.1) 16 e.2.toNat) ++
  ((List.range 23).flatMap fun n => numCells (0x300 + 16 * n) 16 (specReg s L c n).toNat) ++
  numCells 0x4F0 8 c.pc.toNat ++
  numCells 0x4F8 8 (opsOf s c.sw).length ++
  (c.v.flatMap fun e => numCells (0x1000 + 128 * e.1) 128 e.2.toNat) ++
  (c.x.flatMap fun e => numCells (0x2000 + 80 * e.1) 80 e.2.toNat) ++
  (c.a.flatMap fun e => numCells (0x3000 + 12 * e.1) 12 e.2.toNat)
/-- Group the cells of `[base, base + n * w)` into table entries of `w` bytes. -/
def cellsToTab (w : Nat) (m : Mem) (base n : Nat) : List (Nat × Nat) :=
  (memSlice m base (n * w)).foldl (fun t c =>
    let k := c.1 / w
    kvSet t k ((kvGet t k).getD 0 + c.2.toNat * 256 ^ (c.1 % w))) []
/-- The software context that a save-area image holds (R100). -/
def ctxOfImage (sw lo hi : Nat) (m : Mem) : Ctx :=
  let sp := fun n => memNat m (0x300 + 16 * n) 16
  let tg := sp 0
  let e : Ctx := {}
  { e with
    sw := sw, areaLo := lo, areaHi := hi
    g := (cellsToTab 8 m 0 64).filterMap fun e => if e.1 = 0 then none else some (e.1, BitVec.ofNat 64 e.2)
    p := (cellsToTab 16 m 0x200 16).filterMap fun e => if e.1 = 0 then none else some (e.1, BitVec.ofNat 128 e.2)
    v := (cellsToTab 128 m 0x1000 32).map fun e => (e.1, BitVec.ofNat 1024 e.2)
    x := (cellsToTab 80 m 0x2000 32).map fun e => (e.1, BitVec.ofNat 640 e.2)
    a := (cellsToTab 12 m 0x3000 8192).map fun e => (e.1, BitVec.ofNat 96 e.2)
    pc := BitVec.ofNat 64 (memNat m 0x4F0 8)
    batch := BitVec.ofNat 64 (tg / 2 ^ 64), phase := BitVec.ofNat 8 (tg / 2 ^ 56), item := BitVec.ofNat 24 (tg / 2 ^ 32)
    step := bitsAt tg 4 28
    retired := BitVec.ofNat 64 (sp 1), retiredRt := BitVec.ofNat 64 (sp 2), job := BitVec.ofNat 16 (sp 4)
    ttb := BitVec.ofNat 64 (sp 11), pkr0 := BitVec.ofNat 64 (sp 12), pkr1 := BitVec.ofNat 64 (sp 13)
    tsBase := BitVec.ofNat 10 (sp 14), tsSize := BitVec.ofNat 10 (sp 14 / 2 ^ 16)
    xvec := BitVec.ofNat 64 (sp 15), xpc := BitVec.ofNat 64 (sp 16)
    xcause := BitVec.ofNat 8 (sp 17), xstatus := BitVec.ofNat 16 (sp 17 / 2 ^ 16), xaddr := BitVec.ofNat 64 (sp 18)
    rerrStatus := BitVec.ofNat 16 (sp 19), rerrMore := bitOf (sp 19) 16, rerrStep := BitVec.ofNat 28 (sp 19 / 2 ^ 32)
    priv := BitVec.ofNat 2 (sp 20), profile := BitVec.ofNat 64 (sp 22) }
/-- Write a 128 KiB image over the two halves of a save area (R100, R558 row 6). -/
def areaWrite (s : State) (lo hi : Nat) (m : Mem) : Status × State :=
  piecesWrite s [(lo, 65536), (hi, 65536)] m
/-- Read a save area (R558 row 8). -/
def areaRead (s : State) (lo hi : Nat) : Status × Mem × State := piecesRead s [(lo, 65536), (hi, 65536)]

/-! ## Completion of remote operations and descriptors -/

/-- Latch a failure in RERR (R95). -/
def latchRerr (c : Ctx) (st : Status) (step : BitVec 28) : Ctx :=
  if c.rerrStatus = 0 then { c with rerrStatus := st, rerrStep := step } else { c with rerrMore := true }
/-- Latch a failure in the RERR field of a save area, for a context that is saved (R95, R100). -/
def latchSaved (s : State) (lo hi : Nat) (st : Status) (step : BitVec 28) : State :=
  let r := areaRead s lo hi
  let c := latchRerr (ctxOfImage 0 lo hi r.2.1) st step
  (areaWrite r.2.2 lo hi (memBlit r.2.1 (0x300 + 16 * 19) 16 (numCells 0 16 (rerrReg c).toNat))).2
/-- All saved contexts of the device with a given number. -/
def savedFind (s : State) (sw : Nat) : Option Saved :=
  s.tiles.findSome? fun t => ((t.2.runq ++ t.2.waiting ++ t.2.frozen.map (·.2)).find? fun x => x.sw = sw)
/-- Latch a failure of a software context wherever it is (R95). -/
def latchFor (s : State) (sw : Nat) (st : Status) (step : BitVec 28) : State :=
  match ctxFind s sw with
  | some _ => ctxUpd s sw fun c => latchRerr c st step
  | none =>
    match savedFind s sw with
    | some v => latchSaved s v.areaLo v.areaHi st step
    | none => s
/-- Write a g register of a software context when an atomic's value arrives (R94). -/
def gdArrive (s : State) (sw op rd : Nat) (v : Word) : State :=
  ctxUpd s sw fun c => { setG c rd v with pend := c.pend.filter fun e => e.2 ≠ op }
/-- A remote operation completes with a status (R94, R95): the latch, gd for an atomic, and the counter add, held until its release tick under PACED (R147). -/
def opComplete (s : State) (id : Nat) (st : Status) (old : Word) : State :=
  match kvGet s.ops id with
  | none => s
  | some o =>
    if o.done then s
    else
      let s1 := if st = stOk then s else latchFor s o.owner st (tagStep o.tag)
      let s2 := if o.kind = .rfadd ∨ o.kind = .rcas then gdArrive s1 o.owner id o.rd (if st = stOk then old else 0) else s1
      let s3 := match o.release, o.rc with
        | none, some k => ctrAddTagged s2 k 1 o.tag o.job
        | _, _ => s2
      { s3 with ops := kvSet s3.ops id { o with done := true } }
/-- An operation that the same context issued before is not complete (R91 item 4). -/
def opsBefore (s : State) (id : Nat) (o : RemoteOp) : Bool := s.ops.any fun e => e.2.owner = o.owner && decide (e.1 < id) && !e.2.done
/-- Forget the complete operations of a context: it has observed them (R146). -/
def opsForget (s : State) (sw : Nat) : State := { s with ops := s.ops.filter fun o => !(o.2.owner = sw && o.2.done) }

/-- Completion record of a descriptor (R111): 16 bytes at STATUS_ADDR, then the add to CC. The record's failure freezes the poster or raises DEVICE_ERROR; the caller freezes, so the status to freeze with is returned. -/
def descFinish (s : State) (d : Desc) (st : Status) (result : Word) : Option Status × State :=
  let rec_ := leBytes 2 st.toNat ++ zeros 6 ++ leBytes 8 result.toNat
  let detail := leBytes 8 d.statusAddr ++ leBytes 2 st.toNat
  let w := match xlNow s d.ttb d.pkr0.toNat d.pkr1.toNat d.priv.toNat (BitVec.ofNat 64 d.statusAddr) .write with
    | .ok pa _ =>
      let r := physPut s pa rec_
      if r.1 = stOk then (none, r.2) else (none, deviceError r.2 r.1 (tileUcb d.tile) detail)
    | .fault f => (none, deviceError s f (tileUcb d.tile) detail)
    | .deny f => (some f, s)
  let s1 := if d.ccEn then ctrAddTagged w.2 d.cc 1 d.tag d.job else w.2
  (w.1, s1)
/-- Remove a descriptor from its engine's queue. -/
def descRemove (s : State) (code id : Nat) : State := { s with engines := kvUpd s.engines code fun q => q.filter fun d => d.id ≠ id }

/-! ## Saving, loading and freezing (R101-R103, R473, R558 rows 6 and 8) -/

/-- The Saved record of a resident context. -/
def savedOf (c : Ctx) : Saved :=
  { sw := c.sw, ord := c.ord, areaLo := c.areaLo, areaHi := c.areaHi, wait := c.wait, tag := ctxFront c, job := c.job, priv := c.priv }
/-- Write every resident context of a tile to its save area, in hardware-context order. Those that cannot be saved stay (R558 row 6). -/
def saveAll (s : State) (L : Nat) : State :=
  (tileGet s L).hws.foldl (fun s e =>
    let r := areaWrite s e.2.areaLo e.2.areaHi (ctxImage s L e.2)
    if r.1 = stOk then
      tileUpd r.2 L fun t => { t with hws := kvDel t.hws e.1, frozen := t.frozen ++ [(e.1, savedOf { e.2 with wait := .idle })] }
    else r.2) s
/-- Software contexts of a tile: resident, queued, waiting, saved by a freeze. -/
def tileSws (t : Tile) : List Nat :=
  t.hws.map (·.2.sw) ++ t.runq.map (·.sw) ++ t.waiting.map (·.sw) ++ t.frozen.map (·.2.sw)
/-- The BRL stream that a descriptor names becomes FAILED when the descriptor is aborted (R275). -/
def streamFail (s : State) (d : Desc) : State :=
  match xlHeld s d.ttb d.pkr0.toNat d.pkr1.toNat d.priv.toNat (d.va + 0x20) 8 .read with
  | .ok ps =>
    let r := piecesRead s ps
    let h := memNat r.2.1 0 8
    let n := bitsAt h 0 12
    match kvGet r.2.2.brl n with
    | some x => if x.opened ∧ x.gen.toNat = bitsAt h 32 32 ∧ x.job = d.job then { r.2.2 with brl := kvSet r.2.2.brl n { x with phase := 3 } } else r.2.2
    | none => r.2.2
  | .bad _ _ => s
/-- A descriptor that does not succeed keeps no buffer: its stripes are freed, the entries it wrote are set to zero, and it leaves every pool's waiters (R243). -/
def descRelease (s : State) (d : Desc) : State :=
  let s1 := d.bufs.foldl (fun s h => (handleRelease s h).2) s
  let s2 := match xlHeld s1 d.ttb d.pkr0.toNat d.pkr1.toNat d.priv.toNat d.entVa (8 * d.entCnt) .write with
    | .ok ps => (piecesWrite s1 ps []).2
    | .bad _ _ => s1
  let s3 := { s2 with cul := { s2.cul with pools := s2.cul.pools.map fun e => (e.1, { e.2 with waiters := e.2.waiters.filter fun w => w.desc ≠ some d.id }) } }
  if d.engine = 1 ∧ (d.op = 0x13 ∨ d.op = 0x14 ∨ d.op = 0x16) then streamFail s3 d else s3
/-- Complete every queued or active descriptor that satisfies `p` (R473 step 2, R511). A record that cannot be written because of rights adds no second freeze. -/
def descAbort (s : State) (p : Nat → Desc → Bool) (st : Nat → Desc → Status) : State :=
  s.engines.foldl (fun s q =>
    q.2.foldl (fun s d => if p q.1 d then descRemove (descFinish (descRelease s d) d (st q.1 d) 0).2 q.1 d.id else s) s) s
/-- Complete every unfinished remote operation of the given contexts (R473 step 2). -/
def opsAbort (s : State) (sws : List Nat) (st : Status) : State :=
  s.ops.foldl (fun s o => if sws.contains o.2.owner && !o.2.done then opComplete s o.1 st 0 else s) s
/-- Complete a work request with a status: its counter add, its latch and the instruction it stands for (R95, R330). -/
def wrFinish (s : State) (w : Wreq) (st : Status) (old : Word) : State :=
  match w.op, w.sink with
  | some id, _ => opComplete s id st old
  | none, some k => { s with sinks := kvUpd s.sinks k fun x => { x with status := some st } }
  | none, none =>
    let s1 := if st = stOk then s else latchFor s w.sw st (tagStep w.tag)
    if w.flags.toNat.testBit 0 then ctrAddTagged s1 w.cc 1 w.tag w.job else s1
/-- Complete the work requests of every send queue that satisfy `p`. -/
def wrsAbort (s : State) (p : Wreq → Bool) (st : Status) : State :=
  s.qps.foldl (fun s q =>
    let s1 := (q.2.sq.filter p).foldl (fun s w => wrFinish s w st 0) s
    { s1 with qps := kvUpd s1.qps q.1 fun x => { x with sq := x.sq.filter fun w => !p w } }) s

/-- Waiters that belong to the given software contexts leave every pool. -/
def poolsDropSws (s : State) (sws : List Nat) : State :=
  { s with cul := { s.cul with pools := s.cul.pools.map fun e =>
      (e.1, { e.2 with waiters := e.2.waiters.filter fun w => !(w.sw.any fun x => sws.contains x) }) } }
/-- Requests at decision points that come from tile L's contexts or stand for an operation that is complete leave. -/
def dpsDrop (s : State) (L : Nat) : State :=
  { s with dps := s.dps.map fun e => (e.1, e.2.filter fun r =>
      !(r.op.isNone && r.ring = 0 && decide (8 * L ≤ r.src ∧ r.src < 8 * L + 8)) && !(r.op.any fun o => ((kvGet s.ops o).map (·.done)).getD true)) }

/-- Freeze a logical tile (R473): contexts stop, work in flight completes with MASTER_FROZEN, contexts are saved, the state is FROZEN and the event is raised. A tile already frozen is left. `cause` and `area` go into DETAIL. -/
def freezeTile (s : State) (L : Nat) (st : Status) (cause : Nat) (job : BitVec 16) (area : Nat) : State :=
  let u := unitGet s (tileUcb L)
  if u.st = .frozen then s
  else
    let sws := tileSws (tileGet s L)
    let s1 := opsAbort s sws stMasterFrozen
    let s2 := descAbort s1 (fun _ d => sws.contains d.sw) (fun _ _ => stMasterFrozen)
    let s3 := wrsAbort s2 (fun w => w.sink.isNone && sws.contains w.sw) stMasterFrozen
    let s4 := saveAll (dpsDrop (poolsDropSws s3 ((tileGet s3 L).hws.map (·.2.sw))) L) L
    let s5 := unitSet s4 (tileUcb L) { unitGet s4 (tileUcb L) with st := .frozen }
    -- a command in progress on the tile or above it is interrupted (R36)
    let s6 := (tileUcb L :: ancestors (tileUcb L)).foldl (fun s a =>
      let x := unitGet s a
      if x.busy then unitSet s a { x with busy := false, cmd := 0, last := x.cmd, status := stInterrupted } else s) s5
    deviceError s6 st (tileUcb L) (leBytes 2 job.toNat ++ [BitVec.ofNat 8 cause] ++ zeros 5 ++ leBytes 8 area)
/-- Freeze the tile of a software context, wherever it is. -/
def freezeSw (s : State) (sw : Nat) (tile : Nat) (st : Status) (cause : Nat) (job : BitVec 16) : State :=
  let area := match ctxFind s sw with
    | some (L, hw) => ((ctxGet s L hw).map (·.areaLo)).getD 0
    | none => ((savedFind s sw).map (·.areaLo)).getD 0
  freezeTile s tile st cause job area
/-- Complete a descriptor; where its record's rights fail, freeze the posting context (R111, R96). -/
def descComplete (s : State) (code : Nat) (d : Desc) (st : Status) (result : Word) : State :=
  let r := descFinish (descRemove s code d.id) d st result
  match r.1 with
  | some f => freezeSw r.2 d.sw d.tile f 0x01 d.job
  | none => r.2
/-- A check of the engine's own fields failed: DESCRIPTOR_MALFORMED, and the posting context is frozen (R110). -/
def descMalformed (s : State) (code : Nat) (d : Desc) : State :=
  freezeSw (descComplete s code d stMalformed 0) d.sw d.tile stMalformed 0x03 d.job

/-- Load the head of a tile's run queue into hardware context hw (R101, R102). An unreadable save area freezes the tile (R558 row 8). -/
def loadHead (s : State) (L hw : Nat) : State :=
  match (tileGet s L).runq with
  | [] => s
  | h :: rest =>
    let r := areaRead s h.areaLo h.areaHi
    if r.1 = stOk then
      let c := ctxOfImage h.sw h.areaLo h.areaHi r.2.1
      let s1 := tileUpd r.2.2 L fun t => { t with runq := rest, hws := kvSet t.hws hw { c with wait := h.wait, ord := h.ord } }
      frontSet s1 (ctxSrc L hw) c.job (ctxFront c)
    else freezeTile r.2.2 L r.1 0 h.job h.areaLo
/-- Save the context of a hardware context and load the head of the run queue; `requeue` puts it at the queue's tail, otherwise it waits apart (R101, R102). A save area over a hole freezes the tile (R558 row 6). -/
def swapOut (s : State) (L hw : Nat) (requeue : Bool) : State :=
  match ctxGet s L hw with
  | none => s
  | some c =>
    let r := areaWrite s c.areaLo c.areaHi (ctxImage s L c)
    if r.1 = stOk then
      let s1 := tileUpd r.2 L fun t =>
        { t with hws := kvDel t.hws hw
                 waiting := if requeue then t.waiting else t.waiting ++ [savedOf c] }
      let s2 := loadHead s1 L hw
      if requeue then tileUpd s2 L fun t => { t with runq := t.runq ++ [savedOf c] } else s2
    else freezeTile r.2 L r.1 0 c.job c.areaLo

end Sys2Proof.Machine
end

