-- ==== Sys2Proof/Machine/Flash.lean ====
section
/-! DEFINITION. The flash translation layer (spec 14): locators, the map and its log, codeword reads, placement and programs, garbage collection, checkpoints, format and recovery. -/

namespace Sys2Proof.Machine

def stMediaFull : Status := 0x0601
def stMediaUnc : Status := 0x0602
def stLbaRange : Status := 0x0603
def stMediaNotReady : Status := 0x0604
def stMediaFailed : Status := 0x0605
def stObjectInvalid : Status := 0x0606
def stObjectFull : Status := 0x0607
def stFormatRefused : Status := 0x0608
def stGeometry : Status := 0x0609
def stTargetFailed : Status := 0x060A

/-! ## Locators and geometry (R401, R404) -/

/-- Channel, target and LUN of a locator. -/
def locLun (l : Nat) : Nat := l % 4096
/-- Locator of codeword 0 of the erase unit that a locator lies in. -/
def locUnit (l : Nat) : Nat := l % 4096 + bitsAt l 14 16 * 2 ^ 14
/-- Channel and target of a locator, as 16 * channel + target. -/
def locTarget (l : Nat) : Nat := bitsAt l 0 6 * 16 + bitsAt l 6 4
/-- Planes and codewords per page. -/
def mediaPlanes (m : Media) : Nat := m.planes.toNat
def mediaCwpp (m : Media) : Nat := m.cwpp.toNat
/-- Codewords of an erase unit. -/
def unitCw (m : Media) : Nat := mediaCwpp m * mediaPlanes m * (m.pages.toNat + 1)
/-- Locator of codeword n of a unit: CW fastest, then PLANE, then PAGE. -/
def locAt (m : Media) (u n : Nat) : Nat :=
  u + n % mediaCwpp m * 2 ^ 43 + n / mediaCwpp m % mediaPlanes m * 2 ^ 12 + n / (mediaCwpp m * mediaPlanes m) * 2 ^ 30
/-- Number of a locator's codeword in its unit. -/
def locNum (m : Media) (l : Nat) : Nat := bitsAt l 43 3 + mediaCwpp m * (bitsAt l 12 2 + mediaPlanes m * bitsAt l 30 13)
/-- A locator as it stands in the map and in events: V set. -/
def locWord (l : Nat) : Bytes := leBytes 8 (l + 2 ^ 63)
/-- LUNs in service, in rotation order of (CH, TGT, LUN). -/
def mediaLuns (m : Media) : List Nat :=
  (m.usable.filter fun t => !m.dead.contains t).flatMap fun t => (List.range (m.luns.toNat + 1)).map fun l => t / 16 + t % 16 * 64 + l * 1024
/-- The anchor blocks: block 0 of LUN 0 of target 0 on channels 0 and 32 (R414). -/
def anchorUnit (u : Nat) : Bool := u = 0 || u = 32
/-- Good erase units of a LUN (R421). -/
def lunUnits (m : Media) (lun : Nat) : List Nat :=
  ((List.range (m.units.toNat + 1)).map fun b => lun + b * 2 ^ 14).filter fun u => !anchorUnit u && !m.bad.contains u
/-- Unit-table entry. -/
def euGet (m : Media) (u : Nat) : EraseUnit := (kvGet m.table u).getD {}
/-- Store a unit-table entry. -/
def euSet (m : Media) (u : Nat) (x : EraseUnit) : Media := { m with table := kvSet m.table u x }
/-- Free units of a LUN. -/
def lunFree (m : Media) (lun : Nat) : List Nat := (lunUnits m lun).filter fun u => (euGet m u).st = .free

/-! ## The map (R407, R409-R412) -/

/-- The strand (true) or metadata unit that an LBA belongs to. -/
def lbaLogical (m : Media) (lba : Nat) : Bool × Nat := if lba < m.metaLbas then (false, lba) else (true, (lba - m.metaLbas) / 64)
/-- First LBA and number of LBAs of a strand or metadata unit. -/
def logicalLbas (m : Media) (x : Bool × Nat) : Nat × Nat := if x.1 then (m.metaLbas + 64 * x.2, 64) else (x.2, 1)
/-- Map entry. -/
def mapGet (m : Media) (x : Bool × Nat) : Option Nat := if x.1 then kvGet m.mapStrands x.2 else kvGet m.mapUnits x.2
/-- Set or clear a map entry. -/
def mapPut (m : Media) (x : Bool × Nat) (v : Option Nat) : Media :=
  let f := fun t => match v with
    | some l => kvSet t x.2 l
    | none => kvDel t x.2
  if x.1 then { m with mapStrands := f m.mapStrands } else { m with mapUnits := f m.mapUnits }
/-- LOGICAL of a log record. -/
def logLogical (x : Bool × Nat) : Nat := b2n x.1 * 2 ^ 63 + x.2
/-- The open log codeword is programmed: its records are durable (R411). -/
def logFlush (m : Media) : Media := { m with log := m.log ++ m.logOpen, logOpen := [] }
/-- Append a record; a full codeword of 128 records is programmed (R410, R411). -/
def logPut (s : State) (r : LogRec) : State :=
  let m := s.media
  let m1 := { m with logOpen := m.logOpen ++ [r]
                     logSince := if m.logOpen.isEmpty then s.now else m.logSince }
  { s with media := if 128 ≤ m1.logOpen.length then logFlush m1 else m1 }
/-- Locators that the map gives for logical units in unit u, with the logical. -/
def unitLive (m : Media) (u : Nat) : List ((Bool × Nat) × Nat) :=
  ((m.mapUnits.filter fun e => locUnit e.2 = u).map fun e => ((false, e.1), e.2)) ++
  ((m.mapStrands.filter fun e => locUnit e.2 = u).map fun e => ((true, e.1), e.2))
/-- Valid codewords of a unit. -/
def unitValid (m : Media) (u : Nat) : Nat := (unitLive m u).foldl (fun n e => n + (if e.1.1 then 64 else 1)) 0
/-- Now in seconds. -/
def nowSec (s : State) : Nat := s.now.toNat / 10 ^ 9

/-! ## Reading (R405, R406, R418) -/

/-- Ask for the codeword at a locator: its outcome, or none while its read goes on. -/
def cwFetch (s : State) (l : Nat) : Option (Status × Mem) × State :=
  if s.media.dead.contains (locTarget l) then (some (stTargetFailed, []), s)
  else
    match s.media.reads.find? fun r => r.loc = l with
    | some r => (r.result, s)
    | none =>
      let u := locUnit l
      let e := euGet s.media u
      let e1 := { e with reads := e.reads + 1, refresh := e.refresh || decide (s.media.readLimit.toNat < e.reads + 1) }
      let m := if s.media.state = 3 then s.media else euSet s.media u e1
      (none, { s with media := { m with reads := m.reads ++ [{ loc := l }] } })
/-- Locator of an LBA's codeword. -/
def lbaLoc (m : Media) (lba : Nat) : Option Nat :=
  (mapGet m (lbaLogical m lba)).map fun l => locAt m (locUnit l) (locNum m l + (lba - (logicalLbas m (lbaLogical m lba)).1))
/-- Contents of an LBA: from the write buffer, a program in flight, or flash (R441, R442); unmapped LBAs read as zeros (R407). -/
def lbaFetch (s : State) (lba : Nat) : Option (Status × Mem) × State :=
  match (s.media.wbuf.reverse.find? fun w => w.1 = lba) with
  | some w => (some (stOk, w.2), s)
  | none =>
    let x := lbaLogical s.media lba
    match s.media.progs.find? fun p => p.strand = x.1 && p.num = x.2 && p.src.isNone with
    | some p => (some (stOk, memSlice p.data ((lba - (logicalLbas s.media x).1) * 4096) 4096), s)
    | none =>
      match lbaLoc s.media lba with
      | none => (some (stOk, []), s)
      | some l => cwFetch s l
/-- Contents of a list of LBAs as one string, once all have been read: the first failure's status, or the bytes. -/
def lbasFetch (s : State) (lbas : List Nat) : Option (Status × Mem) × State :=
  let r := lbas.foldl (fun (acc : Option (Status × Mem) × Nat × State) lba =>
    let f := lbaFetch acc.2.2 lba
    (match acc.1, f.1 with
      | some a, some b => some (if a.1 = stOk then (b.1, a.2 ++ memShift b.2 acc.2.1) else a)
      | _, _ => none, acc.2.1 + 4096, f.2)) (some (stOk, []), 0, s)
  (r.1, r.2.2)
/-- Forget the finished reads that some LBAs used. -/
def lbasDone (s : State) (lbas : List Nat) : State :=
  let ls := lbas.filterMap (lbaLoc s.media)
  { s with media := { s.media with reads := s.media.reads.filter fun r => r.result.isNone || !ls.contains r.loc } }
/-- The media serves storage commands and reads (R420, R436). -/
def mediaUp (s : State) : Bool := s.media.state = 2 || s.media.state = 3

/-! ## Writing (R415, R418) -/

/-- The open unit of a LUN for host data, or for collection. -/
def lunOpen (m : Media) (lun : Nat) (gc : Bool) : Option Nat :=
  (m.table.find? fun e => locLun e.1 = lun && e.2.st = .opened && e.2.gc = gc).map fun e => e.1
/-- Codeword number at which `n` codewords go in an open unit: strands begin at a multiple of 64. -/
def placeAt (e : EraseUnit) (n : Nat) : Nat := if n = 64 then ceilDiv e.used 64 * 64 else e.used
/-- The free unit with the lowest erase count, the lowest UNIT on a tie. -/
def lunPick (m : Media) (lun : Nat) : Option Nat :=
  (lunFree m lun).foldl (fun b u =>
    match b with
    | none => some u
    | some v => if (euGet m u).ec < (euGet m v).ec then some u else b) none
/-- Place `n` codewords on a LUN: the first locator, and the media with the unit's room taken. -/
def lunPlace (m : Media) (lun n : Nat) (gc : Bool) : Option (Nat × Media) :=
  let put := fun (m : Media) (u : Nat) =>
    let e := euGet m u
    let at_ := placeAt e n
    if at_ + n ≤ unitCw m then
      some (locAt m u at_, euSet m u { e with used := at_ + n, st := if at_ + n = unitCw m then .closed else .opened, gc := gc })
    else none
  match (lunOpen m lun gc).bind (put m) with
  | some r => some r
  | none =>
    let m1 := match lunOpen m lun gc with
      | some u => euSet m u { euGet m u with st := .closed }
      | none => m
    if gc || decide (2 < (lunFree m1 lun).length) then (lunPick m1 lun).bind (put m1) else none
/-- LUNs in rotation order, beginning after the one written last. -/
def lunRotation (m : Media) : List Nat :=
  let ls := mediaLuns m
  (ls.filter fun l => decide (m.rot < ls.idxOf l + 1)) ++ ls.filter fun l => decide (ls.idxOf l + 1 ≤ m.rot)
/-- First LUN of a list that takes `n` codewords. -/
def placeOn (m : Media) (ls : List Nat) (n : Nat) (gc : Bool) : Option (Nat × Media) :=
  match ls with
  | [] => none
  | l :: r =>
    match lunPlace m l n gc with
    | some (loc, m1) => some (loc, if gc then m1 else { m1 with rot := (mediaLuns m).idxOf l + 1 })
    | none => placeOn m r n gc
/-- Start a program of a logical unit's data; none when no LUN takes it (R415). -/
def progStart (m : Media) (x : Bool × Nat) (data : Mem) (src : Option Nat) (ls : List Nat) : Option Media :=
  let n := if x.1 then 64 else 1
  (placeOn m ls n src.isSome).map fun p =>
    { p.2 with progs := p.2.progs ++ [{ loc := p.1, strand := x.1, num := x.2, seq := m.seq, data := data, src := src }]
               seq := m.seq + n }
/-- Logical units with writes in the buffer, oldest first. -/
def wbufLogicals (m : Media) : List (Bool × Nat) := (m.wbuf.map fun w => lbaLogical m w.1).eraseDups
/-- Start the program of one buffered logical unit: a strand is merged with its other contents first (R407). -/
def pumpOne (s : State) (x : Bool × Nat) : State :=
  if s.media.progs.any fun p => p.strand = x.1 && p.num = x.2 && p.src.isNone then s
  else
    let a := logicalLbas s.media x
    let lbas := rangeFrom a.1 a.2
    let f := lbasFetch s lbas
    match f.1 with
    | some (st, data) =>
      if st ≠ stOk then f.2
      else
        match progStart f.2.media x data none (lunRotation f.2.media) with
        | some m => lbasDone { f.2 with media := { m with wbuf := m.wbuf.filter fun w => lbaLogical m w.1 ≠ x } } lbas
        | none => f.2
    | none => f.2
/-- Write the checkpoint of R413 and its anchor (R414). -/
def checkpointNow (s : State) : State :=
  let m := logFlush s.media
  let log := m.log.drop m.ckpt.start
  let img : MapImage := { start := log.length, units := m.mapUnits, strands := m.mapStrands, table := m.table }
  { s with media := { m with prevCkpt := { m.ckpt with start := 0 }
                             ckpt := img
                             log := log ++ [{ type := 6 }]
                             anchorSeq := m.anchorSeq + 1 } }
/-- Enter READ_ONLY once the spares are used up and everything accepted is programmed (R421). -/
def roCheck (s : State) : State :=
  if s.media.state = 2 ∧ s.media.spareLeft ≤ s.media.spareMin ∧ s.media.wbuf.isEmpty ∧ (s.media.progs.all fun p => p.src.isSome) then
    let s1 := checkpointNow s
    { s1 with media := { s1.media with state := 3 } }
  else s
/-- Start every program that can start. -/
def ftlPump (s : State) : State :=
  if s.media.state = 2 then roCheck ((wbufLogicals s.media).foldl pumpOne s) else s
/-- Put a block into the write buffer (R442). -/
def wbufPut (s : State) (lba : Nat) (d : Mem) : State :=
  { s with media := { s.media with wbuf := (s.media.wbuf.filter fun w => w.1 ≠ lba) ++ [(lba, d)] } }
/-- Blocks the write buffer of 4 GiB still takes (R442). -/
def wbufRoom (s : State) : Nat := 2 ^ 20 - s.media.wbuf.length
/-- Everything written to these LBAs so far is durable; the open log codeword is programmed if it holds such an update (R411). -/
def lbasDurable (s : State) (p : Nat → Bool) : Bool × State :=
  let m := s.media
  if m.wbuf.any (fun w => p w.1) ||
      m.progs.any (fun q => q.src.isNone && (let a := logicalLbas m (q.strand, q.num); (rangeFrom a.1 a.2).any p)) then (false, s)
  else (true, { s with media := logFlush m })
/-- Trim one logical unit (R407): 1 when it was mapped or buffered. -/
def trimOne (s : State) (x : Bool × Nat) : Nat × State :=
  let m := s.media
  let a := logicalLbas m x
  let old := mapGet m x
  let buf := m.wbuf.any (fun w => lbaLogical m w.1 = x) || m.progs.any fun p => p.strand = x.1 && p.num = x.2 && p.src.isNone
  if old.isNone && !buf then (0, s)
  else
    let m1 := { mapPut m x none with
      wbuf := m.wbuf.filter fun w => !decide (a.1 ≤ w.1 ∧ w.1 < a.1 + a.2)
      progs := m.progs.filter fun p => !(p.strand = x.1 && p.num = x.2 && p.src.isNone) }
    (1, logPut { s with media := m1 } { type := 2, logical := logLogical x, old := (old.map (· + 2 ^ 63)).getD 0 })
/-- Logical units that a trim of `[lba, lba + n)` unmaps. -/
def trimSet (m : Media) (lba n : Nat) : List (Bool × Nat) :=
  let units := (rangeFrom lba (min n (m.metaLbas - lba))).map fun u => (false, u)
  let lo := ceilDiv (max lba m.metaLbas - m.metaLbas) 64
  let hi := (max (lba + n) m.metaLbas - m.metaLbas) / 64
  units ++ (rangeFrom lo (hi - lo)).map fun k => (true, k)

/-! ## Failures (R418) -/

/-- A status the manual does not give (log 4). -/
def freeStatus (s : State) : Status × State := ((Config.freeWord s.freeCtr).setWidth 16, { s with freeCtr := s.freeCtr + 1 })
/-- DEVICE_ERROR for a failed program, erase or target: the locator stands in DETAIL; the status is free (log 29). -/
def nandError (s : State) (l : Nat) : State :=
  let f := freeStatus s
  deviceError f.2 f.1 0 (locWord l)
/-- Retire an erase unit: UNIT_STATE RETIRED, one spare less. -/
def euRetire (s : State) (u : Nat) : State :=
  let m := euSet s.media u { euGet s.media u with st := .retired }
  roCheck (logPut { s with media := { m with spareLeft := m.spareLeft - (if m.spareLeft = 0 then 0 else 1) } } { type := 3, aux := 4, logical := u + 2 ^ 63 })

/-- Page reads of a step of the ladder beyond the first read (R405). -/
def stepReads (retries k : Nat) : Nat := if k = 0 then 0 else if k ≤ retries then 1 else if k = retries + 1 then 3 else 7
/-- Gather engine of a codeword's channel: 0 GN, 1 GS. -/
def gatherSide (l : Nat) : Nat := if bitsAt l 0 6 < 32 then 0 else 1
/-- NAND_READ_DONE: the codeword decodes at its step, or the next step begins (R405, R406). -/
def execNandReadDone (loc : Word) (ok : Bool) (bits : Nat) (s : State) : Out_ :=
  let l := loc.toNat % 2 ^ 63
  .next <|
  if s.pwr.holdNand then s else
  match s.media.reads.find? fun r => r.loc = l && r.result.isNone with
  | none => s
  | some r =>
    let m := s.media
    let last := m.retries + 2
    let cw := kvGet m.nand l
    let good := ok && cw.isSome
    let u := locUnit l
    let e := euGet m u
    let mark := decide (m.retries + 1 ≤ r.step) || (good && decide (m.refreshBits.toNat < bits))
    let m1 := if mark && m.state ≠ 3 then euSet m u { e with refresh := true } else m
    let upd := fun (f : NandRead → NandRead) => { m1 with reads := m1.reads.map fun x => if x.loc = l ∧ x.result.isNone then f x else x }
    let m2 :=
      if good then upd fun x => { x with result := some (stOk, (cw.map fun c => c.data).getD []) }
      else if r.step < last then upd fun x => { x with step := x.step + 1 }
      else upd fun x => { x with result := some (stMediaUnc, []) }
    let s1 := { s with media := m2 }
    ftlPump (if r.gather && !good && decide (r.step < last) then engCount s1 (0x3800 + 0x100 * gatherSide l + 16) (stepReads m.retries (r.step + 1)) else s1)

/-- NAND_PROGRAM_DONE: a good program is mapped (R411, R412); a failed one is repeated on another LUN (R418). -/
def execNandProgramDone (loc : Word) (ok : Bool) (s : State) : Out_ :=
  let l := loc.toNat % 2 ^ 63
  .next <|
  if s.pwr.holdNand then s else
  match s.media.progs.find? fun p => p.loc = l with
  | none => s
  | some p =>
    let m := { s.media with progs := s.media.progs.filter fun q => q.loc ≠ l }
    let u := locUnit l
    let x := (p.strand, p.num)
    if ok then
      let n := if p.strand then 64 else 1
      let first := (logicalLbas m x).1
      let cells := (List.range n).map fun i =>
        (locAt m u (locNum m l + i), ({ seq := p.seq + i, lba := first + i, kind := 0, ec := (euGet m u).ec, data := memSlice p.data (i * 4096) 4096 } : Codeword))
      let m1 := euSet { m with nand := cells.foldl (fun t c => kvSet t c.1 c.2) m.nand } u { euGet m u with last := nowSec s }
      let old := mapGet m1 x
      let s1 := if p.src.isSome && old ≠ p.src then { s with media := m1 }
        else logPut { s with media := mapPut m1 x (some l) } { type := 1, logical := logLogical x, new := l + 2 ^ 63, old := (old.map (· + 2 ^ 63)).getD 0 }
      ftlPump s1
    else
      let m1 := euSet m u { euGet m u with st := .retirePending }
      let s1 := nandError { s with media := m1 } l
      let m2 := s1.media
      let again := progStart m2 x p.data p.src ((lunRotation m2).filter fun q => q ≠ locLun l)
      match again with
      | some m3 => ftlPump { s1 with media := m3 }
      | none =>
        if p.src.isSome then ftlPump s1
        else
          let a := logicalLbas m2 x
          let back := (List.range a.2).map fun i => (a.1 + i, memSlice p.data (i * 4096) 4096)
          let keep := back.filter fun w => !m2.wbuf.any fun v => v.1 = w.1
          ftlPump { s1 with media := { m2 with wbuf := keep ++ m2.wbuf } }

/-- LOG_FLUSH_TIMER: a partly filled log codeword is programmed no later than 1 ms after its first record (R411). -/
def execLogFlushTimer (s : State) : Out_ :=
  .next (if s.media.logOpen.isEmpty then s else { s with media := logFlush s.media })

/-! ## Garbage collection (R416, R417) -/

/-- The score of R416. -/
def gcScore (s : State) (u : Nat) : Int :=
  let m := s.media
  let e := euGet m u
  let v := 1024 * unitValid m u / unitCw m
  let a := min 1023 ((nowSec s - e.last) / 2 ^ m.ageShift.toNat)
  let w := min 1023 (1024 * e.ec / m.peLimit)
  (m.wValid.toNat : Int) * (1024 - (v : Int)) + (m.wAge.toNat : Int) * (a : Int) - (m.wWear.toNat : Int) * (w : Int)
/-- First unit of a list by a measure to be made least; ties keep the earlier, lower UNIT. -/
def argMin (f : Nat → Int) (us : List Nat) : Option Nat :=
  us.foldl (fun b u =>
    match b with
    | none => some u
    | some v => if f u < f v then some u else b) none
/-- The victim of a LUN in the order of R416. -/
def gcVictim (s : State) (lun : Nat) : Option Nat :=
  let m := s.media
  let us := (lunUnits m lun).filter fun u => !m.erases.contains u
  let closed := us.filter fun u => (euGet m u).st = .closed
  let pend := us.filter fun u => (euGet m u).st = .retirePending && (!(euGet m u).lost || unitValid m u = 0)
  match pend with
  | u :: _ => some u
  | [] =>
    match closed.filter fun u => (euGet m u).refresh with
    | u :: _ => some u
    | [] =>
      let low := argMin (fun u => ((euGet m u).ec : Int)) closed
      let high := argMin (fun u => -((euGet m u).ec : Int)) closed
      match low, high with
      | some a, some b =>
        if m.wlDelta.toNat < (euGet m b).ec - (euGet m a).ec then some a
        else argMin (fun u => -gcScore s u) (closed.filter fun u => unitValid m u < unitCw m)
      | _, _ => none
/-- Move one live logical unit of a victim: read its codewords, then program the copy (R417 steps 1 and 2). -/
def gcMove (lun : Nat) (s : State) (e : (Bool × Nat) × Nat) : State :=
  if s.media.progs.any fun p => p.src = some e.2 then s
  else
    let n := if e.1.1 then 64 else 1
    let ls := (List.range n).map fun i => locAt s.media (locUnit e.2) (locNum s.media e.2 + i)
    let r := ls.foldl (fun (acc : Option (Status × Mem) × Nat × State) l =>
      let f := cwFetch acc.2.2 l
      (match acc.1, f.1 with
        | some a, some b => some (if a.1 = stOk then (b.1, a.2 ++ memShift b.2 acc.2.1) else a)
        | _, _ => none, acc.2.1 + 4096, f.2)) (some (stOk, []), 0, s)
    let s1 := r.2.2
    let drop := fun (m : Media) => { m with reads := m.reads.filter fun q => q.result.isNone || !ls.contains q.loc }
    match r.1 with
    | none => s1
    | some (st, data) =>
      if st ≠ stOk then
        let u := locUnit e.2
        { s1 with media := drop (euSet s1.media u { euGet s1.media u with st := .retirePending, lost := true }) }
      else
        match progStart s1.media e.1 data (some e.2) [lun] with
        | some m => { s1 with media := drop m }
        | none => s1
/-- Steps 1 to 7 of R417 for a victim, as far as they can go. -/
def gcStep (s : State) (lun v : Nat) : State :=
  if s.media.erases.contains v then s
  else
    let live := unitLive s.media v
    let s1 := live.foldl (gcMove lun) s
    let m := s1.media
    let e := euGet m v
    if live.isEmpty && !(m.progs.any fun p => locUnit p.loc = v || (p.src.map locUnit) = some v) && !(m.reads.any fun r => r.result.isNone && locUnit r.loc = v) then
      if e.st = .retirePending && !e.lost then
        let s2 := euRetire { s1 with media := logFlush m } v
        { s2 with media := { s2.media with gc := kvSet s2.media.gc lun none } }
      else
        let s2 := logPut { s1 with media := logFlush m } { type := 4, aux := e.ec + 1, logical := v + 2 ^ 63 }
        { s2 with media := { logFlush s2.media with erases := s2.media.erases ++ [v] } }
    else if e.lost && !(m.progs.any fun p => (p.src.map locUnit) = some v) && !(m.reads.any fun r => r.result.isNone && locUnit r.loc = v) then
      { s1 with media := { m with gc := kvSet m.gc lun none } }
    else s1
/-- GC_COLLECT: collection begins when the LUN's free units fall to GC_LOW, and goes on to GC_HIGH (R416, R417). -/
def execGcCollect (lun : Nat) (s : State) : Out_ :=
  .next <|
  if s.media.state ≠ 2 ∨ !(mediaLuns s.media).contains lun then s
  else
    let free := (lunFree s.media lun).length
    match kvGet s.media.gc lun with
    | some (some v) => gcStep s lun v
    | some none =>
      if s.media.gcHigh.toNat ≤ free then { s with media := { s.media with gc := kvDel s.media.gc lun } }
      else match gcVictim s lun with
        | some v => gcStep { s with media := { s.media with gc := kvSet s.media.gc lun (some v) } } lun v
        | none => s
    | none =>
      if free ≤ s.media.gcLow.toNat then
        match gcVictim s lun with
        | some v => gcStep { s with media := { s.media with gc := kvSet s.media.gc lun (some v) } } lun v
        | none => { s with media := { s.media with gc := kvSet s.media.gc lun none } }
      else s

/-- NAND_ERASE_DONE: the unit is free, or is retired at once (R417 step 8, R418). -/
def execNandEraseDone (loc : Word) (ok : Bool) (s : State) : Out_ :=
  let u := locUnit (loc.toNat % 2 ^ 63)
  .next <|
  if s.pwr.holdNand then s else
  if !s.media.erases.contains u then s
  else
    let lun := locLun u
    let m := { s.media with erases := s.media.erases.filter (· ≠ u)
                            gc := kvUpd s.media.gc lun fun _ => none }
    if ok then
      let m1 := euSet { m with nand := m.nand.filter fun c => locUnit c.1 ≠ u
                               reads := m.reads.filter fun r => locUnit r.loc ≠ u } u { ec := (euGet m u).ec + 1 }
      ftlPump (logPut { s with media := m1 } { type := 3, aux := 0, logical := u + 2 ^ 63 })
    else ftlPump (nandError (euRetire { s with media := m } u) u)

/-- MAP_CHECKPOINT: once the log holds 1 GiB since the last checkpoint (R413). -/
def execMapCheckpoint (s : State) : Out_ :=
  .next (if s.media.state = 2 ∧ 2 ^ 25 ≤ s.media.log.length - s.media.ckpt.start then checkpointNow s else s)

/-- CHANNEL_RETRAIN: after a move of 20 °C the channel is calibrated and trained again; only timing shows it (R400). -/
def execChannelRetrain (ch : Fin 64) (s : State) : Out_ :=
  .next { s with media := { s.media with trained := tabSet 0 s.media.trained ch.val s.glob.tjMax } }

/-- TARGET_TIMEOUT: a target silent for 100 ms fails as a whole (R418). -/
def execTargetTimeout (ch : Fin 64) (tgt : Fin 16) (s : State) : Out_ :=
  let t := 16 * ch.val + tgt.val
  .next <|
  if !s.media.usable.contains t || s.media.dead.contains t then s
  else
    let m := s.media
    let mine := fun l => decide (locTarget l = t)
    let units := ((List.range (m.luns.toNat + 1)).flatMap fun l => lunUnits m (ch.val + tgt.val * 64 + l * 1024)).filter fun u => (euGet m u).st ≠ .retired
    let lost := m.progs.filter fun p => mine p.loc
    let m1 := { m with
      dead := m.dead ++ [t]
      progs := m.progs.filter fun p => !mine p.loc
      erases := m.erases.filter fun u => !mine u
      gc := m.gc.filter fun g => !mine g.1
      reads := m.reads.map fun r => if mine r.loc && r.result.isNone then { r with result := some (stTargetFailed, []) } else r
      spareLeft := m.spareLeft - BitVec.ofNat 32 (min m.spareLeft.toNat units.length)
      table := units.foldl (fun tb u => kvSet tb u { (kvGet tb u).getD {} with st := .retired }) m.table }
    let s1 := units.foldl (fun s u => logPut s { type := 3, aux := 4, logical := u + 2 ^ 63 }) { s with media := m1 }
    let s2 := nandError s1 (ch.val + tgt.val * 64)
    let back := (lost.filter fun p => p.src.isNone).flatMap fun p =>
      let a := logicalLbas m (p.strand, p.num)
      (List.range a.2).map fun i => (a.1 + i, memSlice p.data (i * 4096) 4096)
    let keep := back.filter fun w => !s2.media.wbuf.any fun v => v.1 = w.1
    ftlPump { s2 with media := { s2.media with wbuf := keep ++ s2.media.wbuf } }

/-! ## Format, spares and recovery (R409, R420-R423) -/

/-- LIFE_USED (R422); both terms' divisors are at least 1 once the media is formatted. -/
def lifeUsed (m : Media) : Nat :=
  let ec := m.table.foldl (fun n e => n + e.2.ec) 0
  min 255 (max (100 * ec / (m.good * m.peLimit)) (100 * (m.spareInit.toNat - m.spareLeft.toNat) / (m.spareInit.toNat - m.spareMin.toNat)))
/-- A storage command is outstanding (R423). -/
def storageBusy (s : State) : Bool := s.host.slots.any fun e => e.2.state = 1 && (let op := (tabGet 0 e.2.latched 0).toNat; decide (1 ≤ op ∧ op ≤ 8))
/-- USER_LBAS and META_LBAS of a layout (R407, R421). -/
def layoutLbas (m : Media) (perm op : Nat) : Nat × Nat :=
  let good := ((mediaLuns { m with dead := [] }).flatMap (lunUnits m)).length
  let user := good * unitCw m * (1000 - op) / 1000 / 64 * 64
  (user, user * perm / 1000 / 64 * 64)
/-- A write of MEDIA_FORMAT, with GO in bit 63 (R423). A field out of range keeps its value (R559) and refuses GO. -/
def mediaFormat (s : State) (v : Word) : State :=
  let m0 := s.media
  let perm := bitsAt v.toNat 0 4
  let op := bitsAt v.toNat 4 12
  let obj := bitsAt v.toNat 16 24
  let permOk := decide (1 ≤ perm ∧ perm ≤ 10)
  let opOk := decide (op ≤ 500)
  let lay := layoutLbas m0 perm op
  let objOk := decide (1 ≤ obj ∧ obj ≤ lay.2)
  let m := { m0 with metaPermil := if permOk then BitVec.ofNat 4 perm else m0.metaPermil
                     opPermil := if opOk then BitVec.ofNat 12 op else m0.opPermil
                     objUnitsReg := if objOk then BitVec.ofNat 24 obj else m0.objUnitsReg }
  if !v.getLsbD 63 then { s with media := m }
  else
    let goods := (mediaLuns { m with dead := [] }).flatMap (lunUnits m)
    let good := goods.length
    let erased := goods.map fun u => (u, ({ ec := (euGet m u).ec + 1 } : EraseUnit))
    let luns := (mediaLuns { m with dead := [] }).length
    let user := lay.1
    let metaL := lay.2
    if m.state = 1 || m.state = 5 || storageBusy s || (s.jobs.any fun j => !j.inputs.isEmpty) || !permOk || !opOk || !objOk then
      { s with media := { m with last := stFormatRefused } }
    else
      let init := good - 2 * luns - ceilDiv user (unitCw m)
      { s with media := { m with
          state := 5
          userLbas := user
          metaLbas := metaL
          objUnits := m.objUnitsReg.toNat
          good := good
          spareInit := BitVec.ofNat 32 init
          spareLeft := BitVec.ofNat 32 init
          spareMin := BitVec.ofNat 32 (ceilDiv good 200)
          formatted := true
          formatId := m.formatId + 1
          nand := []
          mapUnits := []
          mapStrands := []
          table := erased
          log := []
          logOpen := []
          ckpt := { table := erased }
          prevCkpt := {}
          progs := []
          erases := []
          reads := []
          wbuf := []
          gc := [] } }

/-- FORMAT: a write of MEDIA_FORMAT. -/
def execFormat (v : Word) (s : State) : Out_ := .next (mediaFormat s v)
/-- A write of SPARE_MIN (GC_THRESH, R421). -/
def spareMinPut (s : State) (v : BitVec 32) : State :=
  if s.media.state = 2 ∧ 1 ≤ v.toNat ∧ v.toNat + 1 ≤ s.media.spareInit.toNat then roCheck { s with media := { s.media with spareMin := v } } else s
/-- SPARE_MIN_WRITE. -/
def execSpareMinWrite (v : BitVec 32) (s : State) : Out_ := .next (spareMinPut s v)

/-- Replay one durable log record on the map (R420 step 4). -/
def replayRec (m : Media) (r : LogRec) : Media :=
  let x := (bitOf r.logical 63, r.logical % 2 ^ 40)
  match r.type with
  | 1 => mapPut m x (some (r.new % 2 ^ 63))
  | 2 => mapPut m x none
  | _ => m
/-- Units with a durable ERASE_INTENT and no later FREE, with the erase count it gives (R419). -/
def openIntents (log : List LogRec) : List (Nat × Nat) :=
  log.foldl (fun t r => if r.type = 4 then kvSet t (r.logical % 2 ^ 63) r.aux else if r.type = 3 then kvDel t (r.logical % 2 ^ 63) else t) []
/-- A unit after recovery (R420 step 5): open units are closed. -/
def euRecover (e : EraseUnit) : EraseUnit := if e.st = .opened then { e with st := .closed, gc := false } else e
/-- The map region reserved at the top of HBM, in whole GiB (R409). -/
def mapGib (m : Media) : Nat := ceilDiv (8 * (m.metaLbas + (m.userLbas - m.metaLbas) / 64) + 16 * (mediaLuns { m with dead := [] }).length * (m.units.toNat + 1)) (2 ^ 30)
/-- Recovery steps 3 to 6 once an anchor is found: load a checkpoint, replay, erase again, close, checkpoint. -/
def mediaReplay (s : State) (newer : Bool) : State :=
  let m := s.media
  let img := if newer then m.ckpt else m.prevCkpt
  let rep := (m.log.drop img.start).foldl replayRec { m with mapUnits := img.units, mapStrands := img.strands }
  let m1 := (openIntents m.log).foldl (fun m e => { euSet m e.1 { ec := e.2 } with nand := m.nand.filter fun c => locUnit c.1 ≠ e.1 }) rep
  let m2 := { m1 with table := m1.table.map fun e => (e.1, euRecover e.2)
                      state := if m1.spareLeft ≤ m1.spareMin then 3 else 2
                      last := stOk }
  let g := mapGib m2
  checkpointNow { s with media := { m2 with mapBase := Config.hbmSize / 2 ^ 30 - g, mapSize := g } }
/-- The record in force of the journal ceiling log: half, ceiling, count (R449). -/
def ceilTop (l : List (Nat × Word × BitVec 32)) : Nat × Word × BitVec 32 := l.foldl (fun b r => if b.2.2 ≤ r.2.2 then r else b) (0, 0, 0)
/-- Append a record that raises the ceiling by 2^40; a full half is left for the other one first (R449). -/
def ceilRaise (l : List (Nat × Word × BitVec 32)) : List (Nat × Word × BitVec 32) :=
  let c := ceilTop l
  if 2048 ≤ (l.filter fun r => r.1 = c.1).length then [(1 - c.1, c.2.1, c.2.2 + 1), (1 - c.1, c.2.1 + 2 ^ 40, c.2.2 + 2)]
  else l ++ [(c.1, c.2.1 + 2 ^ 40, c.2.2 + 1)]
/-- The journal is taken from its mirror, or starts empty at the coarse ceiling (R448, R449). -/
def journalReload (s : State) (mirror : Bool) : State :=
  if !s.host.reload then s
  else
    let h := s.host
    if mirror then
      let ab := h.mirror.map fun e => (e.1, if (e.2.getD 11 0) = 1 then e.2.set 11 3 else e.2)
      { s with host := { h with journal := ab, mirror := ab, jnext := h.ceiling, ceiling := h.ceiling + 2 ^ 20, reload := false, unmirrored := [] } }
    else
      let c := ceilTop h.ceilLog
      { s with host := { h with journal := [], mirror := [], jnext := c.2.1, ceiling := c.2.1 + 2 ^ 20, reload := false, unmirrored := []
                                ceilLog := ceilRaise h.ceilLog } }
/-- Recovery ends: whether the journal can be mirrored, and the reload of R448. -/
def recoveryEnd (mirror : Bool) (s : State) (ok : Bool) : State :=
  let s1 : State := { s with host := { s.host with mirrorOk := ok } }
  if s.host.reload then journalReload s1 (mirror && ok)
  else if ok then { s1 with host := { s1.host with ceiling := s1.host.jnext + 2 ^ 20 } } else s1
/-- Recovery fails (R420). -/
def recoveryFail (s : State) : State := { s with media := { s.media with state := 4, last := stMediaFailed } }
/-- The media as recovery step 1 identifies them: nothing in flight, nothing in the write buffer. -/
def mediaIdentified (r : MediaFound) (m : Media) : Media :=
  { m with usable := r.targets, dead := [], bad := r.bad.map locUnit
           planes := r.planes, cwpp := r.cwpp, pages := r.pages, units := r.units, luns := r.luns, targets := r.tgts
           channels := r.targets.foldl (fun c t => c ||| (1#64 <<< (t / 16))) 0
           peLimit := r.peLimit.toNat, retries := r.retries.toNat
           progs := [], reads := [], erases := [], wbuf := [], logOpen := [], gc := [], rot := 0 }
/-- Recovery steps 2 to 6 (R420). -/
def mediaRecover (r : MediaFound) (s : State) : State :=
  let up := recoveryEnd r.mirror
  let fail := up (recoveryFail s) false
  if r.targets.isEmpty then fail
  else if s.media.state = 5 then up (mediaReplay s true) true
  else if r.anchor && s.media.formatted then
    if r.newer then up (mediaReplay s true) true else if r.older then up (mediaReplay s false) true else fail
  else if r.erased && !s.media.formatted then up { s with media := { s.media with state := 0, last := stOk } } false
  else fail
end Sys2Proof.Machine
end

