-- ==== Sys2Proof/Machine/JobEnd.lean ====
section
/-! DEFINITION. The end of a job (R438) and what it ends with it: Cullet buffers (R381), BRL streams (R275), tokenizer slots (R290), batch streams (R223) and live recordings (R228). -/

namespace Sys2Proof.Machine

/-! ## What a job's end frees -/

/-- Free every buffer charged to the given quota entries, whatever its REFS (R381). -/
def poolsReclaim (s : State) (quotas : List Nat) : State :=
  s.cul.pools.foldl (fun s e =>
    let used := (List.range (poolGet s e.1).fresh).filter fun i => !(poolGet s e.1).freed.contains i
    used.foldl (fun s i =>
      let a := stateAddr (poolGet s e.1) i
      let r := physNat s a 8
      if r.1 = stOk ∧ bitOf r.2.1 63 ∧ quotas.contains (bitsAt r.2.1 40 12) then
        (bufFree r.2.2 (mkHandle e.1 i (bitsAt r.2.1 16 24)) (bitsAt r.2.1 40 12)).2
      else r.2.2) s) s
/-- Waiters of a job leave every pool (R381). -/
def poolsDropJob (s : State) (j : BitVec 16) : State :=
  { s with cul := { s.cul with pools := s.cul.pools.map fun e => (e.1, { e.2 with waiters := e.2.waiters.filter fun w => w.job ≠ j }) } }

/-- Stream state k. -/
def streamGet (s : State) (k : Nat) : BrlStream := (kvGet s.brl k).getD {}
/-- Store stream state k. -/
def streamSet (s : State) (k : Nat) (x : BrlStream) : State := { s with brl := kvSet s.brl k x }
/-- Free stream state k: its generation stays. -/
def streamFree (s : State) (k : Nat) : State := streamSet s k { gen := (streamGet s k).gen }
/-- Free every stream state that satisfies `p` (R275). -/
def streamsFree (s : State) (p : BrlStream → Bool) : State := s.brl.foldl (fun s e => if e.2.opened && p e.2 then streamFree s e.1 else s) s
/-- Free the slots that satisfy `p` (R290): their generations stay. -/
def slotsFree (s : State) (p : Nat → TokSlot → Bool) : State :=
  { s with slots := s.slots.map fun e => if p e.1 e.2 then (e.1, { gen := e.2.gen }) else e }

/-! ## Sealing a recording (R190-R192, R228) -/

/-- Pair the nodes of a Merkle level (R192). -/
def merkleLevel : List Bytes → List Bytes
  | a :: b :: r => shake ([0x01] ++ a ++ b) :: merkleLevel r
  | l => l
/-- Root of a list of leaf digests. -/
def merkleTop : Nat → List Bytes → Bytes
  | 0, l => l.headD []
  | f + 1, l => if l.length ≤ 1 then l.headD [] else merkleTop f (merkleLevel l)
/-- Root of a file (R192). -/
def caneRoot (leaves : List Bytes) : Bytes :=
  shake (ascii "CANE-ROOT-1" ++ leBytes 8 leaves.length ++ merkleTop 41 leaves)
/-- Leaf of a record. -/
def caneLeaf (record : Bytes) : Bytes := shake ([0x00] ++ record)
/-- The file header unit of a sealed file (R190). -/
def caneHeader (records dataBytes : Nat) (root : Bytes) : Bytes :=
  let h := ascii "CANE" ++ [1, 0, 1, 0] ++ leBytes 8 records ++ leBytes 8 dataBytes ++ leBytes 8 (ceilDiv records 256) ++ sub root 0 32 ++ zeros 20
  h ++ leBytes 4 (crc32c h)
/-- Seal a recording: its header goes to flash (R228). An empty recording has no root and stays unsealed. -/
def recSeal (s : State) (r : Recording) : State :=
  if r.sealed_ || r.failed || r.count = 0 || s.media.state ≠ 2 then s
  else
    let s1 := wbufPut s r.metaFirst (memOfBytes 0 (caneHeader r.count r.dataBytes (caneRoot r.leaves)))
    ftlPump { s1 with recordings := s1.recordings.map fun x => if x.obj = r.obj ∧ x.job = r.job then { x with sealed_ := true } else x }
/-- Seal the recordings of a job. -/
def recsSeal (s : State) (j : BitVec 16) : State := (s.recordings.filter fun r => r.job = j).foldl recSeal s

/-! ## The end -/

/-- Every shard of batch b was delivered by an instance of the job's stream on this device. -/
def batchDone (s : State) (j : BitVec 16) (b : Nat) : Bool :=
  s.streams.any fun e => e.2.job = j && (List.range e.2.cfg.c).all fun k => e.2.delivered.contains (b, k)
/-- The first batch from `b` up that is not delivered. -/
def firstUndelivered (s : State) (j : BitVec 16) : Nat → Nat → Nat
  | 0, b => b
  | f + 1, b => if batchDone s j b then firstUndelivered s j f (b + 1) else b
/-- The first batch of a job not delivered by this device. -/
def jobFirstNot (s : State) (x : Job) : Nat :=
  let n := (s.streams.filter fun e => e.2.job = x.num).foldl (fun n e => n + e.2.delivered.length) 0
  firstUndelivered s x.num (n + 1) x.firstBatch.toNat
/-- Numbers of the software contexts of a job, wherever they are. -/
def jobSws (s : State) (j : BitVec 16) : List Nat :=
  s.tiles.flatMap fun e => ((e.2.hws.filter fun h => h.2.job = j).map (·.2.sw)) ++
    (((e.2.runq ++ e.2.waiting ++ e.2.frozen.map (·.2)).filter fun v => v.job = j).map (·.sw))
/-- A tile may load a context from its run queue. -/
def tileLoads (s : State) (L : Nat) : Bool :=
  let st := (unitGet s (tileUcb L)).st
  st = .ready || st = .running
/-- A free hardware context loads the head of the run queue. -/
def fillHw (s : State) (L : Nat) : State :=
  if tileLoads s L then
    match (List.range 8).find? fun h => (ctxGet s L h).isNone with
    | some h => loadHead s L h
    | none => s
  else s
/-- Every free hardware context of a tile loads from the run queue. -/
def fillTile (s : State) (L : Nat) : State := (List.range 8).foldl (fun s _ => fillHw s L) s
/-- Take a job's software contexts off their tiles. -/
def jobUnload (s : State) (j : BitVec 16) : State :=
  let keep := fun (l : List Saved) => l.filter fun v => v.job ≠ j
  let s1 : State := { s with
    tiles := s.tiles.map fun e => (e.1, { e.2 with
      hws := e.2.hws.filter fun h => h.2.job ≠ j
      runq := keep e.2.runq
      waiting := keep e.2.waiting
      frozen := e.2.frozen.filter fun v => v.2.job ≠ j })
    fronts := s.fronts.filter fun f => f.2.job ≠ j
    dps := s.dps.map fun d => (d.1, d.2.filter fun r => r.job ≠ j) }
  (s1.tiles.map (·.1)).foldl fillTile s1
/-- The job's own work in flight completes as a frozen master's does (R96, R381). -/
def jobAbort (s : State) (j : BitVec 16) : State :=
  let s1 := opsAbort s (jobSws s j) stMasterFrozen
  let s2 := descAbort s1 (fun _ d => d.job = j) (fun _ _ => stMasterFrozen)
  poolsDropJob (wrsAbort s2 (fun w => w.job = j) stMasterFrozen) j
/-- Units that no running job binds any more are READY (R35). -/
def unitsIdle (s : State) (us : List Nat) : State :=
  us.foldl (fun s u => unitsMove s u (fun st => st = .running) fun v => if unitRuns s v then .running else .ready) s
/-- Seed commitment of a job (R75). -/
def seedCommit (j : Job) : Bytes := shake (ascii "SALAEL-SEEDS-1" ++ leBytes 4 j.seeds.length ++ j.seeds.flatten)
/-- Spare map digest (R23). -/
def spareDigest (s : State) : Bytes := shake ((List.range 768).map fun L => BitVec.ofNat 8 (slotOf s L))
/-- End a running job with an exit status (R438). -/
def jobEnd (s : State) (j : BitVec 16) (st : Status) : State :=
  match jobOf s j with
  | none => s
  | some x =>
    let s1 := recsSeal (jobAbort s j) j
    let s2 := poolsReclaim (jobUnload s1 j) [x.quotaCtx, x.quotaQp, x.quotaEng]
    let s3 := slotsFree (streamsFree s2 fun b => b.job = j) fun _ t => t.job = j
    let rec_ : ExitRec := {
      num := j, status := st, delivered := x.delivered, firstNot := BitVec.ofNat 64 (jobFirstNot s x), fpB := x.fpB, fpT := x.fpT, substitutions := x.substitutions
      strict := x.strict, paced := x.paced, consumers := x.consumers, seedCommit := seedCommit x, hashes := x.hashes, roots := x.inputs.map (·.root), spare := spareDigest s }
    let s4 := (s3.adds.filter fun a => a.job = j).foldl (fun s a => ctrAdd s a.ctr a.amt) s3
    let sws := jobSws s j
    let s5 : State := { s4 with
      jobs := s4.jobs.filter fun y => y.num ≠ j
      adds := s4.adds.filter fun a => a.job ≠ j
      streams := s4.streams.filter fun e => e.2.job ≠ j
      recordings := s4.recordings.filter fun r => r.job ≠ j
      host := { s4.host with exits := (rec_ :: s4.host.exits.filter fun e => e.num ≠ j).take 64 }
      pace := if x.paced then { s4.pace with lock := false } else s4.pace
      flt := if s4.flt.lsJob = j ∧ s4.flt.lsState ≠ 0 then { s4.flt with lsState := 0, lsAgreed := false, own := [], peer := [] } else s4.flt }
    unitsIdle { s5 with flt := { s5.flt with segs := s5.flt.segs.filter fun e => !sws.contains e.1 } } x.units
/-- Status with which a unit has stopped the job's batch stream (R222), else SUCCESS. -/
def jobExit (s : State) (j : BitVec 16) : Status := ((s.streams.filter fun e => e.2.job = j).findSome? fun e => e.2.halted).getD stOk
/-- A job ends when every one of its software contexts has run EXIT (R438). -/
def jobCheckEnd (s : State) (j : BitVec 16) : State :=
  if (jobOf s j).isSome ∧ (jobSws s j).isEmpty then jobEnd s j (jobExit s j) else s

end Sys2Proof.Machine
end

