-- ==== Sys2Proof/Machine/Operands.lean ====
section
/-! DEFINITION. Operand forms of the instruction words: immediates with and without a prefix (R118), register fields (R117), predicates and elements of vector operands (R130), and window operands (R85, R126). -/

namespace Sys2Proof.Machine

/-- Sign-extended IMM of the I format: 14 bits short, 40 bits long (R118). -/
def immI (pre : Option (BitVec 26)) (imm : BitVec 14) : Word :=
  match pre with
  | none => imm.signExtend 64
  | some p => (p ++ imm).signExtend 64
/-- Sign-extended IMM of the J format: 20 bits short, 46 bits long (R118). -/
def immJ (pre : Option (BitVec 26)) (imm : BitVec 20) : Word :=
  match pre with
  | none => imm.signExtend 64
  | some p => (p ++ imm).signExtend 64
/-- Sign-extended OFF of the B format: 14 bits short, 40 bits long (R118). -/
def offB (pre : Option (BitVec 26)) (off : BitVec 14) : Word := immI pre off
/-- Sign-extended OFF of the M format: 11 bits short, 37 bits long (R118). -/
def offM (pre : Option (BitVec 26)) (off : BitVec 11) : Word :=
  match pre with
  | none => off.signExtend 64
  | some p => (p ++ off).signExtend 64
/-- Bits `lo` to `lo + w - 1` of a prefix word's PAY. -/
def pay (p : BitVec 26) (lo w : Nat) : Nat := bitsAt p.toNat lo w
/-- Bytes of an instruction: 4, or 8 with a prefix (R118). -/
def insLen (i : Issue) : Nat := if i.pre.isSome then 8 else 4

/-- Register codes used to name sources and destinations: g 0-63, v 64-95, p 96-111, a 112-119, x 120-123, the window 124 (R60, R120). -/
def rG (r : BitVec 6) : Nat := r.toNat
def rV (r : Nat) : Nat := 64 + r % 32
def rP (r : Nat) : Nat := 96 + r % 16
def rA (r : Nat) : Nat := 112 + r % 8
def rX (r : Nat) : Nat := 120 + r % 4
def rWin : Nat := 124

/-- Value of a g register named by a field. -/
def gv (c : Ctx) (r : BitVec 6) : Word := getG c r.toNat

/-- Bits per element for the width code of R131: 8, 16, 32, 64. -/
def elemBits (code : Nat) : Nat := 8 * 2 ^ (code % 4)
/-- Element i of width w bits of a 1,024-bit register. -/
def elemGet (v : BitVec 1024) (w i : Nat) : Nat := bitsAt v.toNat (w * i) w
/-- A register built from its elements of width w, lowest first; what does not fit a width is truncated. -/
def elemsTo (w : Nat) (es : List Nat) : BitVec 1024 :=
  BitVec.ofNat 1024 ((es.zipIdx.foldl (fun t e => t + (e.1 % 2 ^ w) * 2 ^ (w * e.2)) 0))
/-- Element i of width w is active under predicate p (R130). -/
def active (p : BitVec 128) (w i : Nat) : Bool := p.getLsbD (w / 8 * i)
/-- Combine new elements with the old destination under PM and Z (R130). -/
def predicated (p : BitVec 128) (z : Bool) (w : Nat) (old : BitVec 1024) (f : Nat → Nat) : BitVec 1024 :=
  elemsTo w ((List.range (1024 / w)).map fun i => if active p w i then f i else if z then 0 else elemGet old w i)

/-- Window offset `o` reaches tile-store byte BASE * 4096 + o (R85). -/
def winByte (c : Ctx) (o : Nat) : Nat := c.tsBase.toNat * 4096 + o
/-- The bytes `[o, o + n)` lie in the window (R85). -/
def inWindow (c : Ctx) (o : Word) (n : Nat) : Bool := decide (o.toNat + n ≤ c.tsSize.toNat * 4096)
/-- Tile-store address (in `ts`) of window offset `o`. -/
def winAddr (s : State) (L : Nat) (c : Ctx) (o : Nat) : Nat := tsAddr (slotIdx s L) (winByte c o)

/-- Bytes of the window that an incomplete or unobserved RGET of the context still targets read as free values (R146). -/
def rgetHides (s : State) (c : Ctx) (a len : Nat) (m : Mem) : Mem × State :=
  s.ops.foldl (fun acc o =>
    match o.2.win with
    | some b =>
      if o.2.owner = c.sw ∧ o.2.kind = .rget ∧ b < a + len ∧ a < b + o.2.len then
        let lo := max a b
        let n := min (a + len) (b + o.2.len) - lo
        let f := freeCells acc.2 n
        (memBlit acc.1 (lo - a) n f.1, f.2)
      else acc
    | none => acc) (m, s)
/-- Read window bytes as an instruction sees them (R126, R146, R462). -/
def winRead (s : State) (L : Nat) (c : Ctx) (o : Nat) (len : Nat) : Status × Mem × State :=
  let r := tsRead s (slotIdx s L) (winByte c o) len
  let h := rgetHides r.2.2 c (winAddr s L c o) len r.2.1
  (r.1, h.1, h.2)
/-- A local store to bytes that an incomplete RPUT or RPUTI still reads leaves the value sent free (R146). -/
def rputTaints (s : State) (a len : Nat) : State :=
  s.ops.foldl (fun s o =>
    match o.2.win with
    | some b =>
      if (o.2.kind = .rput ∨ o.2.kind = .rputi) ∧ !o.2.done ∧ b < a + len ∧ a < b + o.2.len then
        let lo := max a b
        let n := min (a + len) (b + o.2.len) - lo
        let f := freeCells s n
        { f.2 with ops := kvUpd f.2.ops o.1 fun x => { x with data := memBlit x.data (lo - b) n f.1 } }
      else s
    | none => s) s
/-- Store window bytes (R126); a merge that fails leaves the word unchanged (R462). -/
def winWrite (s : State) (L : Nat) (c : Ctx) (o : Nat) (len : Nat) (src : Mem) : State :=
  rputTaints (tsWrite s (slotIdx s L) (winByte c o) len src).2 (winAddr s L c o) len

end Sys2Proof.Machine
end

