-- ==== Sys2Proof/Machine/Issue.lean ====
section
/-! DEFINITION. Issue of one instruction word by a hardware context: fetch, decode checks, exceptions (R105, R106, R471, R473), retirement (R48, R101, R104), PACED groups and budgets (R60-R63, R120, R121), and trace records (R494, R496). -/

namespace Sys2Proof.Machine

/-- One cause of an exception: its code, status and address (R105). -/
structure Exc where
  cause : Nat
  st : Status
  addr : Word := 0
  deriving DecidableEq, Repr

/-- What an instruction reads, writes and needs (R120, R122). -/
structure Deps where
  /-- Issue slot: 0 S, 1 V, 2 T, 3 X, 4 M. -/
  slot : Nat
  reads : List Nat
  writes : List Nat
  cls : Nat := 0
  /-- Size term of its budget at MULT 16, in the parts of a tick that `sizeUnit` gives its class. -/
  size : Nat := 0
  /-- Ticks taken by issuing its pieces one a tick (R147). -/
  extra : Nat := 0
  /-- Remote operation whose completion its hold entry keeps (R147). -/
  op : Option Nat := none
  /-- Every profile bit of the mask is needed. -/
  prof : Nat := 1
  /-- At least one bit of the mask is needed, where it is not zero. -/
  profAny : Nat := 0
  /-- SETTAG: the instruction that follows has STEP 0 (R48, R149). -/
  settag : Bool := false
  /-- TRMARK: its marker (R150). -/
  mark : Option Bytes := none
  /-- The group ends after it. -/
  ends : Bool := false
  deriving DecidableEq, Repr

/-- What an instruction's meaning answers. -/
inductive Body where
  /-- It retires with the context and state given; `next` is the next address where it is not the following one; `mw` lists its memory writes for the trace. -/
  | retire (s : State) (c : Ctx) (next : Option Word) (mw : List (Nat × Bytes))
  /-- It has causes of exceptions; `s` is the state with what the attempt counted. -/
  | exc (s : State) (es : List Exc)
  /-- It waits: issued, not retired. -/
  | wait (s : State) (c : Ctx) (w : Wait)
  /-- It cannot issue yet, for a reason that only time removes. -/
  | stay (s : State)
  /-- It retires and its software context ends (EXIT). -/
  | gone (s : State) (c : Ctx) (cc : Option Nat)
  /-- It retires having issued remote operation `op`, whose completion takes the budget class, size and issue ticks given (R147). -/
  | posted (s : State) (c : Ctx) (op cls size extra : Nat)

/-- Default fixed part of a budget class at MULT 16 (R62). -/
def budgetFixed (cls : Nat) : Nat := [2, 6, 24, 40, 8, 260, 120, 200, 700, 0, 160000, 24].getD cls 0
/-- Parts of a tick in which the size term of a class is given, so that a term per KiB or per byte is exact before it is rounded up: 1/1,024 for FRERAK, 1/96 for ENGINE, 1/3 for FLASH (R62, R63, log 118). -/
def sizeUnit (cls : Nat) : Nat := if cls = 8 then 1024 else if cls = 9 then 96 else if cls = 10 then 3 else 1
/-- Budget of an operation in ticks (R62): entry or scaled default, plus the scaled size term, each rounded up on its own. -/
def budget (j : Job) (cls fixed size : Nat) : Nat :=
  let e := j.budgets.getD cls 0
  (if e = 0 then ceilDiv (fixed * j.mult) 16 else e) + ceilDiv (size * j.mult) (16 * sizeUnit cls)

/-- Lowest code of a list of causes (R105). -/
def lowest : List Exc → Option Exc
  | [] => none
  | e :: r =>
    match lowest r with
    | none => some e
    | some f => if f.cause < e.cause then some f else some e

/-- The context with the exception registers of `e` set; XPC is the faulting instruction (R105). -/
def excRegs (c : Ctx) (e : Exc) : Ctx :=
  { c with xpc := c.pc, xcause := BitVec.ofNat 8 e.cause, xstatus := e.st, xaddr := e.addr }
/-- A trap at job level (R106): PRIV 1, and execution continues at XVEC. -/
def trapCtx (c : Ctx) (e : Exc) : Ctx := { excRegs c e with priv := 1, pc := c.xvec }
/-- Causes whose outcome is a trap (R105). -/
def trapCause (k : Nat) : Bool := decide (0x06 ≤ k)
/-- The trouble counts and the suspect mark of a recovery cause (R471). -/
def recoveryMarks (s : State) (L : Nat) (e : Exc) : State :=
  if e.cause = 0x05 then
    setSuspect (addTrouble s (slotUcb (slotIdx s L)) (if e.st = stFlag then 1 else 0)) (slotIdx s L)
  else if e.cause = 0x04 ∧ (e.st = stUncWord ∨ e.st = stAddrMismatch) ∧ e.addr = 0 then setSuspect s (slotIdx s L)
  else s
/-- TAKE AN EXCEPTION (R105, R106, R471, R473): a trap at job level continues in the handler; every other outcome, and any exception at runtime level, freezes the tile. -/
def takeExc (s : State) (L hw : Nat) (c : Ctx) (e : Exc) : State :=
  if trapCause e.cause && c.priv = 0 then ctxSet s L hw (trapCtx c e)
  else
    let s1 := freezeTile (recoveryMarks (ctxSet s L hw (excRegs c e)) L e) L e.st e.cause c.job c.areaLo
    -- a fault in a FREE job stops the job (R488)
    if (e.cause = 0x04 ∨ e.cause = 0x05) ∧ (jobOf s1 c.job).any (fun j => !j.strict) then jobEnd s1 c.job e.st else s1
/-- RETURN FROM AN EXCEPTION (R106, R129): PRIV 0, continue at XPC. -/
def xretCtx (c : Ctx) : Ctx := { c with priv := 0 }

/-! ## Trace records (R494, R496) -/

/-- Class and number bytes of a register code (log 12: classes are numbered 0 to 4 in R494's order). -/
def regName (r : Nat) : Bytes :=
  if r < 64 then [0, BitVec.ofNat 8 r] else if r < 96 then [1, BitVec.ofNat 8 (r - 64)]
  else if r < 112 then [2, BitVec.ofNat 8 (r - 96)] else if r < 120 then [3, BitVec.ofNat 8 (r - 112)]
  else [4, BitVec.ofNat 8 (r - 120)]
/-- New bytes of a register. -/
def regBytes (c : Ctx) (r : Nat) : Bytes :=
  if r < 64 then leBytes 8 (getG c r).toNat else if r < 96 then leBytes 128 (getV c (r - 64)).toNat
  else if r < 112 then leBytes 16 (getP c (r - 96)).toNat
  else if r < 120 then (List.range 1024).flatMap fun i => leBytes 12 (getA c (r - 112) (i / 32) (i % 32)).toNat
  else (List.range 8).flatMap fun l => leBytes 80 (getX c (r - 120) l).toNat
/-- Fingerprint of an instruction (R494). -/
def traceFp (c : Ctx) (writes : List Nat) (mw : List (Nat × Bytes)) : Bytes :=
  ((shake (((writes.filter fun r => r < 124).flatMap fun r => regName r ++ regBytes c r) ++
    (mw.flatMap fun w => 0xFF#8 :: (leBytes 8 w.1 ++ w.2)))).take 16)
/-- A 32-byte trace record (R494). -/
def traceRec (pc : Word) (step : Nat) (ord kind : Nat) (fp : Bytes) : Bytes :=
  leBytes 8 pc.toNat ++ leBytes 4 step ++ [BitVec.ofNat 8 ord, BitVec.ofNat 8 kind, 0, 0] ++ sub fp 0 16
/-- Device physical address of tile L's trace table entry (R496). -/
def traceEntry (s : State) (L : Nat) : Nat := s.flt.trcBase.toNat * 4096 + 64 * L
/-- The trace entry of tile L is enabled. -/
def traceOn (s : State) (L : Nat) : Bool :=
  match hbmPeek s (traceEntry s L) 64 with
  | some m => tabGet 0 m 9 = 1
  | none => false
/-- Append a record to a tile's trace ring: the oldest is overwritten when it is full, counted in LOST (R496, R558 row 1). -/
def traceWrite (s : State) (L : Nat) (rec_ : Bytes) : State :=
  let ea := traceEntry s L
  let r := physRead s ea 64
  let m := r.2.1
  let head := memNat m 0x20 8
  let size := 2 ^ (memNat m 8 1)
  let pa := memNat m 0 8 + 32 * (head % size)
  let w := if inHbm r.2.2 pa 32 then physPut r.2.2 pa rec_ else (stOutOfBounds, r.2.2)
  let s1 := if w.1 = stOk then w.2 else ownFail w.2 1 pa w.1
  let lost := if size ≤ head then memNat m 0x28 8 + 1 else memNat m 0x28 8
  (physPut s1 (ea + 0x20) (leBytes 8 (head + 1) ++ leBytes 8 lost)).2
/-- The record goes to the tile's ring when the context and segment match, or it is a TRMARK (R496). -/
def traceRetire (s : State) (L ord kind : Nat) (seg : Nat) (rec_ : Bytes) : State :=
  if traceOn s L then
    match hbmPeek s (traceEntry s L) 64 with
    | some m =>
      let o := memNat m 10 1
      if kind = 1 ∨ ((o = 0xFF ∨ o = ord) ∧ memNat m 0x10 8 ≤ seg ∧ seg ≤ memNat m 0x18 8) then traceWrite s L rec_ else s
    | none => s
  else s

/-! ## Issue -/

/-- The device issues instructions at all: PS0, handshakes running, no trip (R513, R536, R548). -/
def issuing (s : State) : Bool := s.pwr.state = 0 && !s.pwr.entering && !s.glob.tripped && s.pwr.refclk && !s.pwr.asserted
/-- The unit of a tile issues: READY, or RUNNING for a bound job (R35). -/
def tileIssues (s : State) (L : Nat) : Bool :=
  (unitGet s (tileUcb L)).st = .running || (unitGet s (tileUcb L)).st = .ready
/-- The job's instructions with BATCH above a commit batch are held at issue (R481 step 1). -/
def commitHolds (s : State) (c : Ctx) : Bool := batchHeld s c.job c.batch.toNat
/-- The job's pairing has ended in a divergence or a timeout, and the context stands at a segment boundary (R495). -/
def lsStops (s : State) (c : Ctx) : Bool := decide (3 ≤ s.flt.lsState.toNat) && s.flt.lsJob = c.job && c.retired.toNat % 65536 = 0
/-- The wait lets the instruction at the PC be tried: none, or a queue that was full. -/
def mayTry (c : Ctx) : Bool :=
  match c.wait with
  | .idle | .queueFull _ | .sendFull _ | .launchFull _ => true
  | _ => false
/-- A pending gd result stands in the way (R94). -/
def pendHit (c : Ctx) (d : Deps) : Bool := c.pend.any fun e => d.reads.contains e.1 || d.writes.contains e.1
/-- Under PACED the open group of this tick takes the instruction (R60, R61, R120). -/
def groupTakes (s : State) (L hw : Nat) (c : Ctx) (d : Deps) : Bool :=
  if pacedJob s c.job then
    let t := tileGet s L
    decide (t.hold.length < 64) &&
    (t.group.any fun g => g.hw = hw && g.tick = s.pace.tick.toNat && !g.closed && !g.slots.contains d.slot &&
      !(g.wrote.any fun r => r ≠ rWin && (d.reads.contains r || d.writes.contains r)))
  else true
/-- The context can issue this instruction now. -/
def canIssue (s : State) (L hw : Nat) (c : Ctx) (d : Deps) : Bool :=
  issuing s && tileIssues s L && !c.sliceDue && mayTry c && !pendHit c d && !commitHolds s c && !lsStops s c && groupTakes s L hw c d

/-- Fetch (R86, R89, R127): both words of a long instruction; causes of its failure, with the cache updated. -/
def fetch (s : State) (c : Ctx) (i : Issue) : List Exc × Ctx × State :=
  let r := xlSpan s c c.pc (insLen i) .fetch
  match r.1 with
  | .ok _ => ([], r.2.1, r.2.2)
  | .bad va (.deny st) => ([{ cause := 0x01, st := st, addr := BitVec.ofNat 64 va }], r.2.1, r.2.2)
  | .bad va (.fault st) => ([{ cause := 0x08, st := st, addr := BitVec.ofNat 64 va }], r.2.1, r.2.2)
  | .bad _ (.ok _ _) => ([], r.2.1, r.2.2)
/-- The binary declares the profile bits the instruction needs (R115). -/
def profileOk (c : Ctx) (d : Deps) : Bool :=
  c.profile.toNat &&& d.prof = d.prof && (d.profAny = 0 || c.profile.toNat &&& d.profAny ≠ 0)
/-- STEP_OVERFLOW (R49). -/
def stepExc (c : Ctx) : List Exc :=
  if c.priv = 0 ∧ c.step = 2 ^ 28 then [{ cause := 0x0A, st := stStepOverflow }] else []

/-- Counts of a retired instruction and the slice flag (R48, R101, R104). -/
def retireCtx (s : State) (L : Nat) (c : Ctx) : Ctx :=
  if c.priv = 0 then
    let n := c.retired + 1
    let due := (jobOf s c.job).any fun j => n.toNat % 2 ^ j.sliceLog2 = 0
    { c with retired := n, step := c.step + 1, sliceDue := due && !(tileGet s L).runq.isEmpty }
  else { c with retiredRt := c.retiredRt + 1 }
/-- Under PACED an SADD takes the release ticks of the operations it releases as inputs (R60, R91 item 4). -/
def saddReady (s : State) (op : Option Nat) (t : Nat) : Nat :=
  match op with
  | none => t
  | some id =>
    match kvGet s.ops id with
    | none => t
    | some o =>
      if o.kind = .sadd then s.ops.foldl (fun t e => if e.2.owner = o.owner ∧ e.1 < id ∧ !e.2.done then max t (e.2.release.getD 0) else t) t else t
/-- Under PACED: the group grows, the result is held until its release tick, and the destinations take it (R60). -/
def paceRetire (s : State) (L : Nat) (c : Ctx) (d : Deps) : State × Ctx :=
  match (jobOf s c.job).filter (·.paced) with
  | none => (s, c)
  | some j =>
    let now := s.pace.tick.toNat
    let ready := saddReady s d.op (d.reads.foldl (fun t r => max t (tabGet 0 c.rel r)) now)
    let rel := ready + d.extra + budget j d.cls (budgetFixed d.cls) d.size
    let s1 := tileUpd s L fun t =>
      { t with hold := t.hold ++ [{ release := rel, cls := d.cls, batch := c.batch, op := d.op, ready := d.op.isNone }]
               group := t.group.map fun g => { g with slots := g.slots ++ [d.slot], wrote := g.wrote ++ d.writes, closed := g.closed || d.ends } }
    let s2 := match d.op with
      | some o => { s1 with ops := kvUpd s1.ops o fun x => { x with release := some rel } }
      | none => s1
    (s2, { c with rel := d.writes.foldl (fun m r => tabSet 0 m r rel) c.rel })
/-- The job's segments are kept: it can be paired (R493). -/
def segKept (s : State) (j : BitVec 16) : Bool := (jobOf s j).any fun x => x.strict && (commitNext x).isSome
/-- Put a digest's place into FLT_LS_WHERE and FLT_LS_BATCH, with the state given; a segment counts cause 9 on its slot (R495, R498). -/
def lsReport (s : State) (key : Nat) (batch : Word) (st : BitVec 3) : State :=
  let seg := decide (key < 2 ^ 60)
  let L := key / 2 ^ 48
  let s1 : State := { s with flt := { s.flt with
    lsState := st, lsBatch := batch, lsKind := !seg
    lsTile := if seg then BitVec.ofNat 10 L else 0
    lsOrd := if seg then BitVec.ofNat 8 (key / 2 ^ 40) else 0
    lsSegment := if seg then BitVec.ofNat 40 key else 0 } }
  if seg ∧ s.flt.lsState = 2 then addTrouble s1 (slotUcb (slotIdx s1 L)) 9 else s1
/-- Compare the digests whose partner's has arrived: equal ones are done, the mismatch with the least BATCH is reported (R495). -/
def lsCompare (s : State) : State :=
  s.flt.own.foldl (fun s o =>
    match s.flt.peer.find? fun p => p.1 = o.1 with
    | none => s
    | some p =>
      let s1 : State := { s with flt := { s.flt with own := s.flt.own.filter fun x => x.1 ≠ o.1, peer := s.flt.peer.filter fun x => x.1 ≠ o.1 } }
      if p.2.2 = o.2.2 then s1
      else if s.flt.lsState = 2 ∨ (s.flt.lsState = 3 ∧ o.2.1.toNat < s.flt.lsBatch.toNat) then lsReport s1 o.1 o.2.1 3 else s1) s
/-- A digest of this device is complete: it goes to the partner and is compared with the partner's (R495). -/
def lsOwn (s : State) (key : Nat) (batch : Word) (dg : Bytes) : State :=
  lsCompare (send { s with flt := { s.flt with own := s.flt.own ++ [(key, batch, dg)] } } (.digest s.flt.lsQpn key batch dg))
/-- Append a record to the segment of a software context; a full segment of a paired job gives its digest (R494, R495). -/
def segRetire (s : State) (L : Nat) (c0 c : Ctx) (rec_ : Bytes) : State :=
  if segKept s c0.job then
    let e := (s.flt.segs.find? fun e => e.1 = c0.sw).getD (c0.sw, ctxTag c0, [])
    let recs := e.2.2 ++ rec_
    let rest := s.flt.segs.filter fun e => e.1 ≠ c0.sw
    if c.retired.toNat % 65536 = 0 then
      let s1 : State := { s with flt := { s.flt with segs := rest } }
      if s.flt.lsState = 2 ∧ s.flt.lsJob = c0.job then lsOwn s1 ((L * 256 + c.ord) * 2 ^ 40 + c0.retired.toNat / 65536) (tagBatch e.2.1) ((shake recs).take 16)
      else s1
    else { s with flt := { s.flt with segs := rest ++ [(c0.sw, e.2.1, recs)] } }
  else s
/-- Retire an instruction of tile L: counts, trace, next address. `c0` is the context as it issued. -/
def retireCore (s : State) (L : Nat) (d : Deps) (c0 c : Ctx) (pc : Word) (mw : List (Nat × Bytes)) : State × Ctx :=
  let cnt := retireCtx s L { c with priv := c0.priv }
  let p := paceRetire s L { cnt with priv := c.priv, pc := pc, wait := .idle, step := if d.settag then 0 else cnt.step } d
  let kind := b2n d.mark.isSome
  let rec_ := traceRec c0.pc c0.step c0.ord kind (d.mark.getD (traceFp c d.writes mw))
  if c0.priv = 0 then (segRetire (traceRetire p.1 L c0.ord kind (c0.retired.toNat / 65536) rec_) L c0 p.2 rec_, p.2)
  else if d.mark.isSome then (traceRetire p.1 L c0.ord 1 0 rec_, p.2)
  else p
/-- The context goes no further for now: it waits, or stands at a segment boundary. -/
def lsStands (s : State) (c : Ctx) : Bool :=
  lsStops s c || match c.wait with
    | .swait _ _ | .rfence | .exit _ | .pool _ _ _ => true
    | _ => false
/-- Once every resident context of a diverged job has stopped, its tiles are frozen (R495, R473). -/
def lsCheck (s : State) : State :=
  if s.flt.lsState.toNat < 3 then s
  else
    let j := s.flt.lsJob
    let mine := s.tiles.filter fun e => (e.2.hws.any fun h => h.2.job = j) || (e.2.runq ++ e.2.waiting).any fun v => v.job = j
    if mine.all fun e => e.2.hws.all fun h => h.2.job ≠ j || lsStands s h.2 then
      mine.foldl (fun s e => freezeTile s e.1 (if s.flt.lsState = 3 then stLockstepDiverged else stLockstepTimeout) 0 j 0) s
    else s
/-- Retire an instruction in its hardware context. -/
def retire (s : State) (L hw : Nat) (i : Issue) (d : Deps) (c0 c : Ctx) (next : Option Word) (mw : List (Nat × Bytes)) : State :=
  let r := retireCore s L d c0 c (next.getD (c0.pc + BitVec.ofNat 64 (insLen i))) mw
  lsCheck (ctxSet r.1 L hw r.2)

/-- A software context ends (R149): its hardware context loads the head of the run queue, then the counter gains its add. -/
def ctxEnd (s : State) (L hw : Nat) (c : Ctx) (cc : Option Nat) (t : Tag) : State :=
  let s0 := opsForget s c.sw
  let s1 : State := { s0 with flt := { s0.flt with segs := s0.flt.segs.filter fun e => e.1 ≠ c.sw } }
  let s2 := frontDrop (ctxDel s1 L hw) (ctxSrc L hw)
  let s3 := loadHead s2 L hw
  let s4 := match cc with
    | some k => ctrAddTagged s3 k 1 t c.job
    | none => s3
  jobCheckEnd s4 c.job

/-- Save a context that blocks while the run queue is not empty (R102), once its pending gd results have arrived (R103). -/
def blockSave (s : State) (L hw : Nat) : State :=
  if (tileGet s L).runq.isEmpty || (ctxGet s L hw).any (fun c => !c.pend.isEmpty) then s else swapOut s L hw false

/-- ISSUE ONE INSTRUCTION. Nothing happens where the context cannot issue it (log 8). Causes of the fetch and the decoder stand before those of the meaning; the cause with the lowest code is taken (R105). -/
def issue (s : State) (i : Issue) (d : Deps) (enc : Bool) (body : State → Ctx → Body) : State :=
  let L := i.tile.val
  let hw := i.hw.val
  match ctxGet s L hw with
  | none => s
  | some c =>
    if !canIssue s L hw c d then s
    else
      let f := fetch s c i
      let c1 := f.2.1
      let s1 := f.2.2
      let early := if !f.1.isEmpty then f.1 ++ stepExc c
        else if !(enc && profileOk c d) then { cause := 0x06, st := stIllegal } :: stepExc c
        else []
      if !early.isEmpty then
        match lowest early with
        | some e => takeExc s1 L hw c1 e
        | none => s1
      else
        match body s1 c1 with
        | .exc s2 es =>
          match lowest (es ++ stepExc c) with
          | some e => takeExc s2 L hw c1 e
          | none => s2
        | .retire s2 c2 next mw =>
          match lowest (stepExc c) with
          | some e => takeExc s1 L hw c1 e
          | none => retire s2 L hw i d c1 c2 next mw
        | .wait s2 c2 w =>
          match lowest (stepExc c) with
          | some e => takeExc s1 L hw c1 e
          | none =>
            let s3 := ctxSet s2 L hw { c2 with wait := w }
            match w with
            | .swait _ _ | .rfence | .exit _ | .pool _ _ _ => blockSave s3 L hw
            | _ => s3
        | .stay s2 =>
          match lowest (stepExc c) with
          | some e => takeExc s1 L hw c1 e
          | none => ctxSet s2 L hw c1
        | .posted s2 c2 op cls size extra =>
          match lowest (stepExc c) with
          | some e => takeExc s1 L hw c1 e
          | none => retire s2 L hw i { d with cls := cls, size := size, extra := extra, op := some op } c1 c2 none []
        | .gone s2 c2 cc =>
          match lowest (stepExc c) with
          | some e => takeExc s1 L hw c1 e
          | none =>
            let r := retireCore s2 L d c1 c2 (c1.pc + 4) []
            ctxEnd r.1 L hw r.2 cc (ctxTag c1)

/-- An exception outcome with one cause. -/
def exc1 (s : State) (cause : Nat) (st : Status) (addr : Word := 0) : Body := .exc s [{ cause := cause, st := st, addr := addr }]
/-- Plain retirement. -/
def ret (s : State) (c : Ctx) : Body := .retire s c none []
/-- Keep the causes whose condition holds. -/
def causes (l : List (Bool × Exc)) : List Exc := l.filterMap fun e => if e.1 then some e.2 else none
/-- Cause of a failed translation (R89). -/
def xlExc (va : Nat) : Xl → List Exc
  | .ok _ _ => []
  | .fault st => [{ cause := 0x08, st := st, addr := BitVec.ofNat 64 va }]
  | .deny st => [{ cause := 0x01, st := st, addr := BitVec.ofNat 64 va }]

end Sys2Proof.Machine
end

