-- ==== Sys2Proof/Machine/Cullet.lean ====
section
/-! DEFINITION. The CUL instructions (R148) and the events of the Cullet pools (R372, R378, R381): enabling, disabling, and who waits for a buffer. -/

namespace Sys2Proof.Machine

/-- Quota entry of a job's software contexts; runtime level is charged to 4,095 (R377). -/
def quotaCtxOf (s : State) (j : BitVec 16) (priv : BitVec 2) : Nat := if priv = 0 then ((jobOf s j).map (·.quotaCtx)).getD 4095 else 4095
/-- Quota entry of a job's engine descriptors (R377). -/
def quotaEngOf (s : State) (j : BitVec 16) (priv : BitVec 2) : Nat := if priv = 0 then ((jobOf s j).map (·.quotaEng)).getD 4095 else 4095
/-- Every source of the job but `own` has a frontier strictly above `t` (R55). -/
def frontsAboveBut (s : State) (j : BitVec 16) (own : Nat) (t : Tag) : Bool :=
  frontsAbove { s with fronts := kvDel s.fronts own } j t
/-- At job level a pool must be READY and bound to the job; at runtime level READY (R148, R372). -/
def poolUnbound (s : State) (c : Ctx) (p : Nat) : Bool :=
  !(poolGet s p).ready || (c.priv = 0 && (poolGet s p).job ≠ c.job)

/-- CUL functions that name no register in a field need it zero (R148); none takes a prefix. -/
def culDeps (rd rs1 rs2 : BitVec 6) : Deps := { slot := 4, reads := [rG rs1, rG rs2], writes := [rG rd], cls := 11, ends := true }
/-- CALLOC and CALLOCN (R148, R378): served at once where satisfiable; else CALLOC, and CALLOCN under STRICT, waits. -/
def callocOp (i : Issue) (f : R3) (nb : Bool) (s : State) : State :=
  issue s i (culDeps f.rd f.rs1 0) (i.pre.isNone && f.rs2 = 0) fun s c =>
    let p := (gv c f.rs1).toNat
    if 63 < p then exc1 s 0x03 stMalformed
    else if poolUnbound s c p then exc1 s 0x01 stUnbound
    else
      let q := quotaCtxOf s c.job c.priv
      let r := alloc s p q
      match r.1 with
      | .got h => ret r.2 (setG c f.rd.toNat h)
      | .bad st => .exc r.2 [{ cause := 0x04, st := st }]
      | .short =>
        if nb && !strictJob s c.job then ret (tdcCount r.2 0) (setG c f.rd.toNat 0)
        else .wait (poolUpd r.2 p fun x => { x with waiters := x.waiters ++
          [{ tag := ctxTag c, job := c.job, quota := q, src := ctxSrc i.tile.val i.hw.val, strict := strictJob s c.job, since := s.now, sw := some c.sw }] })
          c (.pool p f.rd.toNat nb)
/-- CALLOC. -/
def execCalloc (i : Issue) (f : R3) (s : State) : Out_ := .next (callocOp i f false s)
/-- CALLOCN. -/
def execCallocn (i : Issue) (f : R3) (s : State) : Out_ := .next (callocOp i f true s)
/-- A reference-count function on handle g[RS1]: under STRICT it waits for its turn in tag order (R374, R55). -/
def refOp (i : Issue) (f : R3) (enc : Bool) (early : Ctx → List Exc) (op : State → Ctx → Word → RefOut × State) (s : State) : State :=
  issue s i (culDeps 0 f.rs1 f.rs2) (i.pre.isNone && f.rd = 0 && enc) fun s c =>
    let h := gv c f.rs1
    if poolUnbound s c (hPool h) then exc1 s 0x01 stUnbound
    else if !(early c).isEmpty then .exc s (early c)
    else if strictJob s c.job && !frontsAboveBut s c.job (ctxSrc i.tile.val i.hw.val) (ctxTag c) then .stay s
    else
      let r := op s c h
      match r.1 with
      | .ok => ret r.2 c
      | .stale => .exc r.2 [{ cause := 0x03, st := stMalformed }]
      | .bad st => .exc r.2 [{ cause := 0x04, st := st }]
/-- CREF (R148, R374): an amount from 1 to 65,535. -/
def execCref (i : Issue) (f : R3) (s : State) : Out_ :=
  .next (refOp i f true (fun c => causes [(!decide (1 ≤ (gv c f.rs2).toNat ∧ (gv c f.rs2).toNat ≤ 65535), { cause := 0x03, st := stMalformed })])
    (fun s c h => handleRef s h (gv c f.rs2).toNat) s)
/-- CFREE (R148, R374). -/
def execCfree (i : Issue) (f : R3) (s : State) : Out_ :=
  .next (refOp i f (f.rs2 = 0) (fun _ => []) (fun s _ h => handleRelease s h) s)

/-! ## Enabling, disabling and serving waiters (R372, R378) -/

/-- The range `[a, a + n)` lies wholly in one populated range of the HBM flat view or one per-stack window. -/
def oneHbmRange (a n : Nat) : Bool :=
  decide (a + n ≤ Config.hbmSize) ||
  (decide (0x020000000000 ≤ a) && decide (a < 0x050000000000) &&
    decide ((a - 0x020000000000) % 2 ^ 37 + n ≤ Config.stackSize) && decide ((a - 0x020000000000) / 2 ^ 37 < 24))
/-- The range lies wholly in one logical tile's populated window (R28). -/
def oneTileWindow (s : State) (a n : Nat) : Bool :=
  decide (0x080000000000 ≤ a) && decide (a < 0x0800C0000000) &&
  decide ((a - 0x080000000000) % 0x400000 + n ≤ 0x300000) && backed s ((a - 0x080000000000) / 0x400000)
/-- The checks of R372. -/
def poolOk (s : State) (p : Pool) : Bool :=
  let a := p.addr.toNat * 256
  let n := p.count.toNat * poolSize p
  decide (8 ≤ p.bufLog2.toNat ∧ p.bufLog2.toNat ≤ 26) && decide (1 ≤ p.count.toNat) && decide (a % poolSize p = 0) &&
  (if p.loc then oneTileWindow s a n else oneHbmRange a n) &&
  oneHbmRange (p.sbase.toNat * 4096) (8 * p.count.toNat) &&
  decide (p.wm2.toNat ≤ p.wm1.toNat ∧ p.wm3.toNat ≤ p.wm2.toNat) && p.genSeed ≠ 0
/-- Write EN from 0 to 1 (R372). -/
def poolEnable (s : State) (n : Nat) : State :=
  let p := poolGet s n
  if p.en then s
  else if !poolOk s p then poolSet s n { p with refused := true }
  else
    let word := leBytes 8 (mkStateWord 0 p.genSeed.toNat 0 false)
    let w := physWrite s (stateAddr p 0) (8 * p.count.toNat) (memOfBytes 0 ((List.range p.count.toNat).flatMap fun _ => word))
    let z := (List.range 4096).foldl (fun (acc : Status × Nat × State) q =>
      let a := quotaAddr acc.2.2 q n + 4
      let r := physPut acc.2.2 a (zeros 4)
      if acc.1 = stOk then (r.1, a, r.2) else acc) (w.1, stateAddr p 0, w.2)
    if z.1 = stOk then
      poolSet z.2.2 n (poolRelevel { p with en := true, ready := true, freed := [], fresh := 0, dead := 0, waiters := [], level := 0 })
    else ownFail (poolSet z.2.2 n { p with refused := true }) 3 z.2.1 z.1
/-- Buffers of a pool that are allocated. -/
def poolUsed (p : Pool) : Nat := p.count.toNat - p.dead - poolFree p
/-- Write EN from 1 to 0 (R372). -/
def poolDisable (s : State) (n : Nat) : State :=
  let p := poolGet s n
  if !p.en then s
  else if poolUsed p ≠ 0 ∨ !p.waiters.isEmpty then poolSet s n { p with refused := true }
  else poolSet s n { p with en := false, ready := false, level := 0 }
/-- POOL_ENABLE. -/
def execPoolEnable (p : Fin 64) (s : State) : Out_ := .next (poolEnable s p.val)
/-- POOL_DISABLE. -/
def execPoolDisable (p : Fin 64) (s : State) : Out_ := .next (poolDisable s p.val)

/-- A waiter can be served now: quota and, under STRICT, every other source beyond its tag (R378). -/
def waiterReady (s : State) (p : Nat) (w : PoolWaiter) : Bool :=
  let q := quotaRead s w.quota p
  q.1 = stOk && decide (q.2.2.1 < q.2.1) && (!w.strict || frontsAboveBut s w.job w.src w.tag)
/-- The waiter to serve: the least tag under STRICT, else the oldest. -/
def waiterPick (s : State) (p : Nat) (ws : List PoolWaiter) : Option PoolWaiter :=
  (ws.filter fun w => let q := quotaRead s w.quota p; q.1 = stOk && decide (q.2.2.1 < q.2.1)).foldl (fun b w =>
    match b with
    | none => some w
    | some v => if w.strict && v.strict && decide (w.tag.toNat < v.tag.toNat) then some w else b) none
/-- Retire the CUL instruction of a resident context with its result. -/
def culRetire (s : State) (L hw : Nat) (c : Ctx) (rd : Nat) (h : Word) : State :=
  let r := retireCore s L { slot := 4, reads := [], writes := [rd], cls := 11, ends := true } c (setG c rd h) (c.pc + 4) []
  ctxSet r.1 L hw r.2
/-- Retire the CUL instruction of a saved context in its save area; it joins the tail of the run queue (R102, R558). -/
def culRetireSaved (s : State) (v : Saved) (L rd : Nat) (h : Word) : State :=
  let r := areaRead s v.areaLo v.areaHi
  if r.1 ≠ stOk then freezeTile r.2.2 L r.1 0 v.job v.areaLo
  else
    let c := { ctxOfImage v.sw v.areaLo v.areaHi r.2.1 with ord := v.ord, wait := v.wait }
    let t := retireCore r.2.2 L { slot := 4, reads := [], writes := [rd], cls := 11, ends := true } c (setG c rd h) (c.pc + 4) []
    let w := areaWrite t.1 v.areaLo v.areaHi (ctxImage t.1 L t.2)
    if w.1 ≠ stOk then freezeTile w.2 L w.1 0 v.job v.areaLo
    else tileUpd w.2 L fun x => { x with waiting := x.waiting.filter fun y => y.sw ≠ v.sw, runq := x.runq ++ [savedOf { t.2 with wait := .idle }] }
/-- Hand a buffer to a waiting software context. -/
def serveCtx (s : State) (sw : Nat) (h : Word) : State :=
  match ctxFind s sw with
  | some (L, hw) =>
    match ctxGet s L hw with
    | some c =>
      match c.wait with
      | .pool _ rd _ => culRetire s L hw c rd h
      | _ => s
    | none => s
  | none =>
    match s.tiles.findSome? (fun t => (t.2.waiting.find? fun v => v.sw = sw).map fun v => (t.1, v)) with
    | some (L, v) =>
      match v.wait with
      | .pool _ rd _ => culRetireSaved s v L rd h
      | _ => s
    | none => s
/-- The quota of a waiting context does not read: its CUL function takes UNCORRECTABLE_READ (R148, R558 row 5). -/
def serveBad (s : State) (sw : Nat) (st : Status) : State :=
  match ctxFind s sw with
  | some (L, hw) =>
    match ctxGet s L hw with
    | some c => takeExc s L hw c { cause := 0x04, st := st }
    | none => s
  | none =>
    match s.tiles.findSome? (fun t => (t.2.waiting.find? fun v => v.sw = sw).map fun v => (t.1, v)) with
    | some (L, v) =>
      let r := areaRead s v.areaLo v.areaHi
      let c := excRegs { ctxOfImage v.sw v.areaLo v.areaHi r.2.1 with ord := v.ord } { cause := 0x04, st := st }
      freezeTile (areaWrite r.2.2 v.areaLo v.areaHi (ctxImage r.2.2 L c)).2 L st 0x04 v.job v.areaLo
    | none => s
/-- Give a buffer to a waiting descriptor: it joins the buffers the descriptor holds (R242). -/
def serveDesc (s : State) (id : Nat) (h : Word) : State :=
  { s with engines := s.engines.map fun q => (q.1, q.2.map fun d => if d.id = id then { d with bufs := d.bufs ++ [h] } else d) }
/-- Serve one waiter of a pool (R378). -/
def waiterServe (s : State) (p : Nat) : State :=
  let x := poolGet s p
  if poolFree x = 0 then s
  else
    match waiterPick s p x.waiters with
    | none => s
    | some w =>
      if !waiterReady s p w then s
      else
        let r := alloc s p w.quota
        let drop := fun (s : State) => poolUpd s p fun x => { x with waiters := x.waiters.filter fun y => y ≠ w }
        match r.1, w.sw, w.desc with
        | .got h, some sw, _ => serveCtx (drop r.2) sw h
        | .got h, none, some d => serveDesc (drop r.2) d h
        | .bad st, some sw, _ => serveBad (drop r.2) sw st
        | _, _, _ => r.2

end Sys2Proof.Machine
end

