-- ==== Sys2Proof/Machine/Scalar.lean ====
section
/-! DEFINITION. Scalar instructions: integer operations, immediates, tile-store loads and stores, branches and jumps, special registers and system operations (R123-R129). -/

namespace Sys2Proof.Machine

/-- High 64 bits of an exact product. -/
def mulHigh (a b : Int) : Word := BitVec.ofInt 64 (a * b / 2 ^ 64)
/-- Leading zeros of a 64-bit value, 64 for zero (R123). -/
def clz64 (a : Word) : Nat := ((List.range 64).find? fun i => a.getLsbD (63 - i)).getD 64
/-- Trailing zeros of a 64-bit value, 64 for zero (R123). -/
def ctz64 (a : Word) : Nat := ((List.range 64).find? fun i => a.getLsbD i).getD 64
/-- Number of 1 bits (R123). -/
def popc64 (a : Word) : Nat := ((List.range 64).filter fun i => a.getLsbD i).length
/-- Bytes in reverse order (R123). -/
def bswap64 (a : Word) : Word := BitVec.ofNat 64 (leNat (leBytes 8 a.toNat).reverse)
/-- One or zero. -/
def boolW (b : Bool) : Word := if b then 1 else 0

/-- ALU function FN on two values (R123, R124); none for a reserved code. -/
def aluFn (fn : Nat) (a b : Word) : Option Word :=
  let n := b.toNat % 64
  match fn with
  | 0x00 => some (a + b)
  | 0x01 => some (a - b)
  | 0x02 => some (a &&& b)
  | 0x03 => some (a ||| b)
  | 0x04 => some (a ^^^ b)
  | 0x05 => some (a <<< n)
  | 0x06 => some (a >>> n)
  | 0x07 => some (a.sshiftRight n)
  | 0x08 => some (a.rotateRight n)
  | 0x09 => some (boolW (a.slt b))
  | 0x0A => some (boolW (a.ult b))
  | 0x0B => some (if a.slt b then a else b)
  | 0x0C => some (if a.slt b then b else a)
  | 0x0D => some (if a.ult b then a else b)
  | 0x0E => some (if a.ult b then b else a)
  | 0x10 => some (a * b)
  | 0x11 => some (mulHigh a.toInt b.toInt)
  | 0x12 => some (mulHigh a.toNat b.toNat)
  | 0x13 => some (mulHigh a.toInt b.toNat)
  | 0x14 => some (if b = 0 then BitVec.allOnes 64 else a.sdiv b)
  | 0x15 => some (if b = 0 then BitVec.allOnes 64 else a.udiv b)
  | 0x16 => some (if b = 0 then a else a.srem b)
  | 0x17 => some (if b = 0 then a else a.umod b)
  | 0x18 => some (BitVec.ofNat 64 (popc64 a))
  | 0x19 => some (BitVec.ofNat 64 (clz64 a))
  | 0x1A => some (BitVec.ofNat 64 (ctz64 a))
  | 0x1B => some (bswap64 a)
  | _ => none
/-- DIV, DIVU, REM and REMU take budget class VECTOR (R124). -/
def aluClass (fn : Nat) : Nat := if 0x14 ≤ fn ∧ fn ≤ 0x17 then 1 else 0

/-- Sources and destination of a two-source scalar instruction. -/
def scalarDeps (rd rs1 rs2 : BitVec 6) : Deps := { slot := 0, reads := [rG rs1, rG rs2], writes := [rG rd] }
/-- Sources and destination of an immediate instruction. -/
def immDeps (rd rs1 : BitVec 6) : Deps := { slot := 0, reads := [rG rs1], writes := [rG rd] }

/-- ALU (R123). -/
def execAlu (i : Issue) (f : RFmt) (s : State) : Out_ :=
  .next (issue s i { scalarDeps f.rd f.rs1 f.rs2 with cls := aluClass f.fn.toNat }
    (i.pre.isNone && (aluFn f.fn.toNat 0 0).isSome && (f.fn.toNat < 0x18 || f.rs2 = 0))
    fun s c => ret s (setG c f.rd.toNat ((aluFn f.fn.toNat (gv c f.rs1) (gv c f.rs2)).getD 0)))

/-- RD := f(RS1, imm) with the sign-extended immediate (R125). -/
def immOp (i : Issue) (f : IFmt) (fn : Word → Word → Word) (s : State) : State :=
  issue s i (immDeps f.rd f.rs1) true fun s c => ret s (setG c f.rd.toNat (fn (gv c f.rs1) (immI i.pre f.imm)))
/-- ADDI. -/
def execAddi (i : Issue) (f : IFmt) (s : State) : Out_ := .next (immOp i f (fun a b => a + b) s)
/-- ANDI. -/
def execAndi (i : Issue) (f : IFmt) (s : State) : Out_ := .next (immOp i f (fun a b => a &&& b) s)
/-- ORI. -/
def execOri (i : Issue) (f : IFmt) (s : State) : Out_ := .next (immOp i f (fun a b => a ||| b) s)
/-- XORI. -/
def execXori (i : Issue) (f : IFmt) (s : State) : Out_ := .next (immOp i f (fun a b => a ^^^ b) s)
/-- SLTI. -/
def execSlti (i : Issue) (f : IFmt) (s : State) : Out_ := .next (immOp i f (fun a b => boolW (a.slt b)) s)
/-- SLTIU. -/
def execSltiu (i : Issue) (f : IFmt) (s : State) : Out_ := .next (immOp i f (fun a b => boolW (a.ult b)) s)

/-- RD := RS1 shifted by the count; IMM bits 13:8 are zero and no prefix is accepted (R125). -/
def shiftOp (i : Issue) (f : ShFmt) (fn : Word → Nat → Word) (s : State) : State :=
  issue s i (immDeps f.rd f.rs1) (i.pre.isNone && f.hi = 0) fun s c => ret s (setG c f.rd.toNat (fn (gv c f.rs1) f.count.toNat))
/-- SLLI. -/
def execSlli (i : Issue) (f : ShFmt) (s : State) : Out_ := .next (shiftOp i f (fun a n => a <<< n) s)
/-- SRLI. -/
def execSrli (i : Issue) (f : ShFmt) (s : State) : Out_ := .next (shiftOp i f (fun a n => a >>> n) s)
/-- SRAI. -/
def execSrai (i : Issue) (f : ShFmt) (s : State) : Out_ := .next (shiftOp i f (fun a n => a.sshiftRight n) s)
/-- RORI. -/
def execRori (i : Issue) (f : ShFmt) (s : State) : Out_ := .next (shiftOp i f (fun a n => a.rotateRight n) s)

/-- LI (R125): RD := the sign-extended IMM; RS1 is not read. -/
def execLi (i : Issue) (f : JFmt) (s : State) : Out_ :=
  .next (issue s i { slot := 0, reads := [], writes := [rG f.rd] } true fun s c => ret s (setG c f.rd.toNat (immJ i.pre f.imm)))
/-- RD with bits 63:46 replaced (R125). -/
def lihValue (old : Word) (imm : BitVec 20) : Word :=
  BitVec.ofNat 64 (old.toNat % 2 ^ 46 + (imm.toNat % 2 ^ 18) * 2 ^ 46)
/-- LIH (R125): keeps RD bits 45:0; IMM bits 19:18 are zero. -/
def execLih (i : Issue) (f : JFmt) (s : State) : Out_ :=
  .next (issue s i { slot := 0, reads := [rG f.rd], writes := [rG f.rd] } (i.pre.isNone && f.imm.toNat < 2 ^ 18)
    fun s c => ret s (setG c f.rd.toNat (lihValue (gv c f.rd) f.imm)))

/-! ## Loads and stores (R126) -/

/-- Window offset RS1 + OFF as an exact sum: a negative result is out of bounds (R126). -/
def memOffset (i : Issue) (f : MFmt) (c : Ctx) (scale : Int) : Int := (gv c f.rs1).toNat + scale * (offM i.pre f.off).toInt
/-- The offset as a number, or a value beyond any window where it is negative. -/
def offNat (o : Int) : Nat := if o < 0 then 2 ^ 40 else o.toNat
/-- Access checks of a load or store of n bytes (R85, R126). -/
def accessExc (c : Ctx) (o n : Nat) : List Exc :=
  causes [(!decide (o + n ≤ c.tsSize.toNat * 4096), { cause := 0x01, st := stOutOfBounds, addr := BitVec.ofNat 64 o }),
    (o % n ≠ 0, { cause := 0x07, st := stMisaligned, addr := BitVec.ofNat 64 o })]
/-- Zero- or sign-extend n bytes (R126). -/
def extendTo (x n : Nat) (sx : Bool) : Word :=
  if sx then BitVec.ofInt 64 (sInt (8 * n) x) else BitVec.ofNat 64 x
/-- LD (R126). -/
def execLd (i : Issue) (f : MFmt) (s : State) : Out_ :=
  let n := 2 ^ f.sz.toNat
  .next (issue s i { slot := 0, reads := [rG f.rs1, rWin], writes := [rG f.rt], cls := 4 } true fun s c =>
    let o := offNat (memOffset i f c 1)
    let es := accessExc c o n
    if !es.isEmpty then .exc s es
    else
      let r := winRead s i.tile.val c o n
      if r.1 = stOk then ret r.2.2 (setG c f.rt.toNat (extendTo (memNat r.2.1 0 n) n (f.sx = 1)))
      else .exc r.2.2 [{ cause := 0x04, st := r.1 }])
/-- ST (R126): SX is zero; a merge that fails leaves the word unchanged and the ST retires (R462). -/
def execSt (i : Issue) (f : MFmt) (s : State) : Out_ :=
  let n := 2 ^ f.sz.toNat
  .next (issue s i { slot := 0, reads := [rG f.rs1, rG f.rt], writes := [rWin], cls := 4 } (f.sx = 0) fun s c =>
    let o := offNat (memOffset i f c 1)
    let es := accessExc c o n
    if !es.isEmpty then .exc s es
    else
      let b := leBytes n (gv c f.rt).toNat
      .retire (winWrite s i.tile.val c o n (memOfBytes 0 b)) c none [(winAddr s i.tile.val c o, b)])
/-- VLD and VST need RT bit 5, SZ and SX zero (R117, R126). -/
def vmemEnc (f : MFmt) : Bool := f.sz = 0 && f.sx = 0 && f.rt.toNat < 32
/-- VLD (R126): 128 bytes; OFF counts 128-byte units. -/
def execVld (i : Issue) (f : MFmt) (s : State) : Out_ :=
  .next (issue s i { slot := 1, reads := [rG f.rs1, rWin], writes := [rV f.rt.toNat], cls := 4, prof := 2 } (vmemEnc f) fun s c =>
    let o := offNat (memOffset i f c 128)
    let es := accessExc c o 128
    if !es.isEmpty then .exc s es
    else
      let r := winRead s i.tile.val c o 128
      if r.1 = stOk then ret r.2.2 (setV c f.rt.toNat (BitVec.ofNat 1024 (memNat r.2.1 0 128)))
      else .exc r.2.2 [{ cause := 0x04, st := r.1 }])
/-- VST (R126). -/
def execVst (i : Issue) (f : MFmt) (s : State) : Out_ :=
  .next (issue s i { slot := 1, reads := [rG f.rs1, rV f.rt.toNat], writes := [rWin], cls := 4, prof := 2 } (vmemEnc f) fun s c =>
    let o := offNat (memOffset i f c 128)
    let es := accessExc c o 128
    if !es.isEmpty then .exc s es
    else
      let b := leBytes 128 (getV c f.rt.toNat).toNat
      .retire (winWrite s i.tile.val c o 128 (memOfBytes 0 b)) c none [(winAddr s i.tile.val c o, b)])

/-! ## Branches and jumps (R127) -/

/-- Address A + 4 * OFF. -/
def branchTarget (pc off : Word) : Word := pc + off * 4
/-- A branch on a comparison of RS1 with RS2 (R127). -/
def branchOp (i : Issue) (f : BFmt) (t : Word → Word → Bool) (s : State) : State :=
  issue s i { slot := 0, reads := [rG f.rs1, rG f.rs2], writes := [], ends := true } true fun s c =>
    .retire s c (if t (gv c f.rs1) (gv c f.rs2) then some (branchTarget c.pc (offB i.pre f.off)) else none) []
/-- BEQ. -/
def execBeq (i : Issue) (f : BFmt) (s : State) : Out_ := .next (branchOp i f (fun a b => a = b) s)
/-- BNE. -/
def execBne (i : Issue) (f : BFmt) (s : State) : Out_ := .next (branchOp i f (fun a b => a ≠ b) s)
/-- BLT. -/
def execBlt (i : Issue) (f : BFmt) (s : State) : Out_ := .next (branchOp i f (fun a b => a.slt b) s)
/-- BGE. -/
def execBge (i : Issue) (f : BFmt) (s : State) : Out_ := .next (branchOp i f (fun a b => !a.slt b) s)
/-- BLTU. -/
def execBltu (i : Issue) (f : BFmt) (s : State) : Out_ := .next (branchOp i f (fun a b => a.ult b) s)
/-- BGEU. -/
def execBgeu (i : Issue) (f : BFmt) (s : State) : Out_ := .next (branchOp i f (fun a b => !a.ult b) s)
/-- Address of the next instruction. -/
def nextPc (i : Issue) (c : Ctx) : Word := c.pc + BitVec.ofNat 64 (insLen i)
/-- JAL (R127). -/
def execJal (i : Issue) (f : JFmt) (s : State) : Out_ :=
  .next (issue s i { slot := 0, reads := [], writes := [rG f.rd], ends := true } true fun s c =>
    .retire s (setG c f.rd.toNat (nextPc i c)) (some (branchTarget c.pc (immJ i.pre f.imm))) [])
/-- JALR (R127): a target that is no multiple of 4 takes MISALIGNED with RD unchanged. -/
def execJalr (i : Issue) (f : IFmt) (s : State) : Out_ :=
  .next (issue s i { slot := 0, reads := [rG f.rs1], writes := [rG f.rd], ends := true } true fun s c =>
    let t := gv c f.rs1 + immI i.pre f.imm
    if t.toNat % 4 ≠ 0 then exc1 s 0x07 stMisaligned t
    else .retire s (setG c f.rd.toNat (nextPc i c)) (some t) [])

/-! ## Special registers and system operations (R128, R129) -/

/-- Registers marked R46: zero at job level under STRICT. -/
def r46 (n : Nat) : Bool := 5 ≤ n && n ≤ 10
/-- Registers with no job-level access (R81). -/
def rtOnly (n : Nat) : Bool := n = 2 || (11 ≤ n && n ≤ 18)
/-- SRR (R128). -/
def execSrr (i : Issue) (f : IFmt) (s : State) : Out_ :=
  let n := f.imm.toNat % 32
  let hi := f.imm.getLsbD 5
  .next (issue s i { slot := 0, reads := [], writes := [rG f.rd] }
    (i.pre.isNone && f.rs1 = 0 && f.imm.toNat < 64 && n < 23 && (!hi || n = 0)) fun s c =>
    if c.priv = 0 && rtOnly n then exc1 s 0x02 stPrivilege
    else
      let v := if c.priv = 0 && r46 n && strictJob s c.job then 0 else specReg s i.tile.val c n
      ret s (setG c f.rd.toNat (if hi then (v >>> 64).setWidth 64 else v.setWidth 64)))
/-- Registers that runtime level may write with SRW (R81, R128): SEQTAG is excluded. -/
def srwWritable (n : Nat) : Bool := 11 ≤ n && n ≤ 19
/-- Write a special register at runtime level (R81, R82, R128). A write of TTB discards the cached translations; any write of RERR clears it. -/
def writeSpec (c : Ctx) (n : Nat) (v : Word) : Ctx :=
  match n with
  | 11 => { c with ttb := v, tlb := [] }
  | 12 => { c with pkr0 := v }
  | 13 => { c with pkr1 := v }
  | 14 => { c with tsBase := fld v 0 10, tsSize := fld v 16 10 }
  | 15 => { c with xvec := v }
  | 16 => { c with xpc := v }
  | 17 => { c with xcause := fld v 0 8, xstatus := fld v 16 16 }
  | 18 => { c with xaddr := v }
  | 19 => { c with rerrStatus := 0, rerrMore := false, rerrStep := 0 }
  | _ => c
/-- SRW (R128): job level and read-only registers are privilege breaches; TSWIN is checked. -/
def execSrw (i : Issue) (f : IFmt) (s : State) : Out_ :=
  let n := f.imm.toNat % 32
  .next (issue s i { slot := 0, reads := [rG f.rs1], writes := [], ends := true }
    (i.pre.isNone && f.rd = 0 && f.imm.toNat < 32 && n < 23 && n ≠ 0) fun s c =>
    let v := gv c f.rs1
    if c.priv = 0 || !srwWritable n then exc1 s 0x02 stPrivilege
    else if n = 14 && decide (768 < bitsAt v.toNat 0 10 + bitsAt v.toNat 16 10) then exc1 s 0x03 stMalformed
    else ret s (writeSpec c n v))

/-- Fields of a SYS function that names no register are zero (R129). -/
def sysEnc (i : Issue) (f : R3) : Bool := i.pre.isNone && f.rd = 0 && f.rs1 = 0 && f.rs2 = 0
/-- Sources of a SYS function. -/
def sysDeps : Deps := { slot := 0, reads := [], writes := [], ends := true }
/-- ECALL (R129): trap with cause 0x0C; at runtime level it freezes the context (R106). -/
def execEcall (i : Issue) (f : R3) (s : State) : Out_ :=
  .next (issue s i sysDeps (sysEnc i f) fun s _ => exc1 s 0x0C stOk)
/-- BREAK (R129): trap with cause 0x0D; needs profile DEBUG. -/
def execBreak (i : Issue) (f : R3) (s : State) : Out_ :=
  .next (issue s i { sysDeps with prof := 2048 } (sysEnc i f) fun s _ => exc1 s 0x0D stOk)
/-- XRET (R129): a privilege breach at job level. -/
def execXret (i : Issue) (f : R3) (s : State) : Out_ :=
  .next (issue s i sysDeps (sysEnc i f) fun s c =>
    if c.priv = 0 then exc1 s 0x02 stPrivilege else .retire s (xretCtx c) (some c.xpc) [])
/-- A latched remote failure traps (R95, R146). -/
def remoteFailed (s : State) (c : Ctx) : Body := exc1 s 0x0B c.rerrStatus
/-- RFENCE (R94, R129, R146): traps when RERR is latched, waits while a remote operation is not complete. -/
def execRfence (i : Issue) (f : R3) (s : State) : Out_ :=
  .next (issue s i sysDeps (sysEnc i f) fun s c =>
    if c.rerrStatus ≠ 0 then remoteFailed s c
    else if (opsOf s c.sw).isEmpty then .retire (opsForget s c.sw) c none []
    else .wait s c .rfence)
/-- Drop cached translations that cover `[va, va + len)`; len 0 covers all addresses (R129). -/
def tlbDrop (c : Ctx) (va len : Nat) : Ctx :=
  { c with tlb := c.tlb.filter fun e => !(len = 0 || decide (e.va < va % 2 ^ 56 + len ∧ va % 2 ^ 56 < e.va + e.size)) }
/-- TLBINV (R129): every context of the job on this device drops the covered entries. -/
def execTlbinv (i : Issue) (f : R3) (s : State) : Out_ :=
  .next (issue s i { slot := 0, reads := [rG f.rs1, rG f.rs2], writes := [], cls := 7, ends := true }
    (i.pre.isNone && f.rd = 0) fun s c =>
    if c.priv = 0 then exc1 s 0x02 stPrivilege
    else
      let va := (gv c f.rs1).toNat
      let len := (gv c f.rs2).toNat
      .retire { s with tiles := s.tiles.map fun t => (t.1, { t.2 with hws := t.2.hws.map fun h =>
          (h.1, if h.2.job = c.job then tlbDrop h.2 va len else h.2) }) } (tlbDrop c va len) none [])

end Sys2Proof.Machine
end

