-- ==== Sys2Proof/Machine/Remote.lean ====
section
/-! DEFINITION. Issue of remote operations, sync operations, work requests and engine descriptors (R92-R99, R109-R111, R144-R147, R328), and the context control and trace instructions (R149, R150). -/

namespace Sys2Proof.Machine

/-! ## Routes, counters and reachable ranges -/

/-- Remote form of a route register (R92). -/
def routeRemote (r : Word) : Bool := r.getLsbD 63
/-- Route register in neither form of R92. -/
def routeBad (r : Word) : Bool := if routeRemote r then bitsAt r.toNat 52 11 ≠ 0 else r ≠ 0
/-- Queue pair of a remote route. -/
def routeQpn (r : Word) : Nat := bitsAt r.toNat 32 20
/-- Memory key of a remote route. -/
def routeKey (r : Word) : BitVec 32 := r.setWidth 32
/-- Queue pair by number. -/
def qpGet (s : State) (n : Nat) : Qp := (kvGet s.qps n).getD {}
/-- Store a queue pair. -/
def qpSet (s : State) (n : Nat) (q : Qp) : State := { s with qps := kvSet s.qps n q }
/-- Change a queue pair. -/
def qpUpd (s : State) (n : Nat) (f : Qp → Qp) : State := qpSet s n (f (qpGet s n))

/-- Counter k is bound to the job of a job-level context (R362). -/
def ctrBound (s : State) (c : Ctx) (k : Nat) : Bool :=
  c.priv ≠ 0 || (jobOf s c.job).any fun j => j.ctrs.any fun r => decide (r.1 ≤ k ∧ k < r.1 + r.2)
/-- Causes of naming counter `k` (R145, R362). -/
def ctrExc (s : State) (c : Ctx) (k : Nat) : List Exc :=
  if 131072 ≤ k then [{ cause := 0x03, st := stMalformed }]
  else if ctrBound s c k then [] else [{ cause := 0x01, st := stUnbound }]
/-- Causes of a route register (R92, R113). -/
def routeExc (s : State) (c : Ctx) (r : Word) : List Exc :=
  if routeBad r then [{ cause := 0x03, st := stMalformed }]
  else if routeRemote r then
    causes [(c.priv = 0 && (qpGet s (routeQpn r)).job ≠ c.job, { cause := 0x01, st := stUnbound }),
      (!c.profile.getLsbD 8, { cause := 0x06, st := stIllegal })]
  else []
/-- The runtime access column of R531 bars a write of the register (log 20). -/
def regNoWrite (blk off : Nat) : Bool := blk = 12 || (blk = 7 && decide (off < 0x1000)) || (blk = 10 && off ≠ 0x100 && off ≠ 0x108)
/-- Causes of reaching a physical piece (R27, R31, R32, R370, R532). `put` marks RPUT, RPUTI and RCAS. -/
def pieceExc (s : State) (c : Ctx) (va : Nat) (pa len : Nat) (a : Acc) (put : Bool) : List Exc :=
  let x := BitVec.ofNat 64 va
  let oob : Exc := { cause := 0x01, st := stOutOfBounds, addr := x }
  let prv : Exc := { cause := 0x02, st := stPrivilege, addr := x }
  if !populated s pa len then [oob]
  else match resolve s pa with
    | .reg blk off =>
      causes [(len ≠ 8 ∨ off % 8 ≠ 0, oob), (c.priv = 0 ∨ (a = .write ∧ regNoWrite blk off), prv)]
    | .ucb u off =>
      causes [(len % 8 ≠ 0 ∨ off % 8 ≠ 0, oob), (c.priv = 0 ∧ (a = .write ∨ ucbKind s u = some 5), prv)]
    | .ctr _ _ => causes [(c.priv = 0 ∧ a = .write ∧ put, { cause := 0x01, st := stRightsDenied, addr := x })]
    | _ => []
/-- Causes of reaching all pieces of a range that starts at `va`. -/
def piecesExc (s : State) (c : Ctx) (a : Acc) (put : Bool) : Nat → List (Nat × Nat) → List Exc
  | _, [] => []
  | va, p :: r =>
    ((chunksOf p.1 p.2).flatMap fun k => pieceExc s c (va + k.2.2) k.1 k.2.1 a put) ++ piecesExc s c a put (va + p.2) r
/-- Translate a range for a context and check that it may reach it: causes, pieces, context, state. -/
def reach (s : State) (c : Ctx) (va : Word) (len : Nat) (a : Acc) (put : Bool) : List Exc × List (Nat × Nat) × Ctx × State :=
  let r := xlSpan s c va len a
  match r.1 with
  | .ok ps => (piecesExc s c a put va.toNat ps, ps, r.2.1, r.2.2)
  | .bad v x => (xlExc v x, [], r.2.1, r.2.2)

/-! ## Fields of the remote formats (R118, R144) -/

/-- CCEN. -/
def fCcen (f : RFmt) : Bool := f.fn.getLsbD 1
/-- SRCWIN or DSTWIN. -/
def fWin (f : RFmt) : Bool := f.fn.getLsbD 0
/-- Value of the g register a prefix field names. -/
def prefG (c : Ctx) (i : Issue) (lo : Nat) : Word := getG c (pay (i.pre.getD 0) lo 6)
/-- Encoding of a remote instruction: function bits, the prefix it needs, its reserved bits, and RC zero without CCEN. -/
def remoteEnc (i : Issue) (f : RFmt) (fnMask : Nat) (req : Bool) (rsvd : BitVec 26) : Bool :=
  f.fn.toNat ||| fnMask = fnMask &&
  match i.pre with
  | none => !req && !fCcen f
  | some p => p &&& rsvd = 0 && (fCcen f || pay p 6 6 = 0)
/-- RC of the instruction where CCEN is 1. -/
def rcOf (c : Ctx) (i : Issue) (f : RFmt) : Option Nat := if fCcen f then some (prefG c i 6).toNat else none
/-- Causes of RC. -/
def rcExc (s : State) (c : Ctx) (i : Issue) (f : RFmt) : List Exc :=
  match rcOf c i f with
  | some k => ctrExc s c k
  | none => []
/-- Registers a remote instruction reads: its own fields, those of the prefix, and the window (R146). -/
def remoteDeps (i : Issue) (reads writes : List Nat) : Deps :=
  { slot := 4, reads := rWin :: reads ++ (match i.pre with
      | some p => [pay p 0 6, pay p 6 6, pay p 12 6]
      | none => []), writes := writes }

/-! ## Budget class of a remote operation (R147) -/

/-- Size term of FRERAK (R62): 900 ticks a link of the queue pair's connection and 66 a KiB, in 1/1,024 ticks. -/
def frerakSize (s : State) (n len : Nat) : Nat := 921600 * ((qpGet s n).links.getD 0) + 66 * len
/-- Class, size term and issue ticks by the remote side. -/
def remoteClass (s : State) (c : Ctx) (L : Nat) (r : Word) (ps : List (Nat × Nat)) (len : Nat) : Nat × Nat × Nat :=
  if routeRemote r then
    (8, frerakSize s (routeQpn r) len, 0)
  else
    let n := ceilDiv len 4096 - 1
    match ps with
    | [] => (6, 0, 0)
    | p :: _ =>
      match resolve s p.1 with
      | .hbm _ => (5, 0, n)
      | .tile M _ => if M = L then (4, 0, 0) else (7, 0, n)
      | .ctr _ _ => (6, 0, 0)
      | _ => (7, 0, n)

/-! ## Work requests -/

/-- The 64-byte image of a work request (R328). -/
def wrBytes (w : Wreq) : Bytes :=
  [w.opcode, w.flags, 0, 0] ++ leBytes 4 w.length ++ leBytes 8 w.local_ ++ leBytes 8 w.offset ++ leBytes 4 w.key.toNat ++ leBytes 4 w.cc ++
  leBytes 8 w.value.toNat ++ leBytes 8 w.compare.toNat ++ leBytes 4 w.gateCtr ++ zeros 4 ++ leBytes 8 w.gateThr.toNat
/-- The work request of a 64-byte image. -/
def wrOf (b : Bytes) : Wreq :=
  { opcode := b.getD 0 0, flags := b.getD 1 0, length := subNat b 4 4, local_ := subNat b 8 8, offset := subNat b 16 8,
    key := BitVec.ofNat 32 (subNat b 24 4), cc := subNat b 28 4, value := BitVec.ofNat 64 (subNat b 32 8),
    compare := BitVec.ofNat 64 (subNat b 40 8), gateCtr := subNat b 48 4, gateThr := BitVec.ofNat 64 (subNat b 56 8) }
/-- Every field of a work request is in range (R328). -/
def wrOk (b : Bytes) : Bool :=
  let w := wrOf b
  let op := w.opcode.toNat
  decide (1 ≤ op ∧ op ≤ 6) && decide (w.flags.toNat < 8) && subNat b 2 2 = 0 && subNat b 0x34 4 = 0 &&
  (if op ≤ 3 then decide (1 ≤ w.length ∧ w.length ≤ 16777216) else w.length = 8) &&
  (if op = 4 ∨ op = 5 then w.local_ % 8 = 0 else op ≠ 6 || w.local_ = 0) && decide (w.offset < 2 ^ 40) &&
  (if w.flags.getLsbD 0 then decide (w.cc < 131072) else w.cc = 0) && (op = 5 || w.compare = 0) &&
  (if w.flags.getLsbD 1 then decide (w.gateCtr < 131072) else w.gateCtr = 0)
/-- The send queue holds all the entries it has (R321). -/
def sqFull (q : Qp) : Bool := decide (2 ^ q.sqLog2 ≤ q.sq.length)
/-- Enter a work request in a send queue: the entry in HBM and the device's own record (R321). -/
def sqPost (s : State) (n : Nat) (w : Wreq) : State :=
  let q := qpGet s n
  let s1 := (physPut s (q.sqBase + 64 * (q.posted % 2 ^ q.sqLog2)) (wrBytes w)).2
  qpUpd s1 n fun q => { q with sq := q.sq ++ [{ w with ord := q.posted }], posted := q.posted + 1, lastWork := s.now }
/-- What a work request keeps of its poster (R329). -/
def wrPoster (s : State) (c : Ctx) (L : Nat) (w : Wreq) : Wreq :=
  { w with tag := ctxTag c, job := c.job, strict := strictJob s c.job, priv := c.priv, ttb := c.ttb.toNat, pkr0 := c.pkr0, pkr1 := c.pkr1, tile := L, sw := c.sw }

/-! ## Remote operations -/

/-- What an operation keeps of its issuer. -/
def opOf (c : Ctx) (L : Nat) (k : OpKind) (len : Nat) (rc : Option Nat) : RemoteOp :=
  { owner := c.sw, tile := L, job := c.job, priv := c.priv, tag := ctxTag c, kind := k, len := len, rc := rc }
/-- Issue an operation: its record, for a remote route its work request, for an atomic the pending gd result. -/
def opIssue (s : State) (c : Ctx) (L : Nat) (r : Word) (o : RemoteOp) (w : Wreq) (ps : List (Nat × Nat)) : Body :=
  let id := s.nextOp
  let cl := remoteClass s c L r ps o.len
  let o1 := if routeRemote r then { o with qpn := some (routeQpn r) } else o
  let s1 := { s with ops := kvSet s.ops id o1, nextOp := id + 1 }
  let s2 := if routeRemote r then sqPost s1 (routeQpn r) (wrPoster s1 c L { w with op := some id, key := routeKey r, length := o.len }) else s1
  let c1 := if o.kind = .rfadd ∨ o.kind = .rcas then { c with pend := c.pend ++ [(o.rd, id)] } else c
  .posted s2 c1 id cl.1 cl.2.1 cl.2.2
/-- The offset of a remote route does not fit the OFFSET field (R328; log 18). -/
def offsetExc (r off : Word) : List Exc := causes [(routeRemote r && decide (2 ^ 40 ≤ off.toNat), { cause := 0x03, st := stMalformed })]
/-- A remote route to a full send queue blocks (R321). -/
def routeFull (s : State) (r : Word) : Bool := routeRemote r && sqFull (qpGet s (routeQpn r))
/-- Causes of a length. -/
def lenExc (n : Nat) : List Exc := causes [(!decide (1 ≤ n ∧ n ≤ 16777216), { cause := 0x03, st := stMalformed })]
/-- A local operand of a transfer: causes, window byte, pieces, context, state. -/
def localOperand (s : State) (c : Ctx) (L : Nat) (win : Bool) (a : Word) (len : Nat) (acc : Acc) : List Exc × Option Nat × List (Nat × Nat) × Ctx × State :=
  if win then
    if inWindow c a len then ([], some (winAddr s L c a.toNat), [], c, s)
    else ([{ cause := 0x01, st := stOutOfBounds, addr := a }], none, [], c, s)
  else
    let r := reach s c a len acc true
    (r.1, none, r.2.1, r.2.2.1, r.2.2.2)

/-- RPUT and RPUTI (R93, R144-R147). -/
def putOp (i : Issue) (f : RFmt) (imm : Bool) (s : State) : State :=
  issue s i (remoteDeps i [rG f.rd, rG f.rs1, rG f.rs2] [])
    (remoteEnc i f 3 true (if imm then 0x3FC0000 else 0x3FFF000)) fun s c =>
    let L := i.tile.val
    let r := gv c f.rs1
    let n := (prefG c i 0).toNat
    let bad := lenExc n
    let len := if bad.isEmpty then n else 0
    let t := if routeRemote r || routeBad r then ([], [], c, s) else reach s c (gv c f.rd) len .write true
    let l := localOperand t.2.2.2 t.2.2.1 L (fWin f) (gv c f.rs2) len .read
    let c1 := l.2.2.2.1
    let s1 := l.2.2.2.2
    let es := routeExc s c r ++ bad ++ rcExc s c i f ++ offsetExc r (gv c f.rd) ++ t.1 ++ l.1
    if !es.isEmpty then .exc s1 es
    else if routeFull s1 r then .wait s1 c1 (.sendFull (routeQpn r))
    else
      let d := if fWin f then winRead s1 L c1 (gv c f.rs2).toNat n else (stOk, [], s1)
      let v := if imm then prefG c i 12 else 0
      let o := { opOf c1 L (if imm then .rputi else .rput) n (rcOf c i f) with
        pieces := t.2.1, win := l.2.1, src := l.2.2.1, data := d.2.1, fail := d.1, val := v }
      let w : Wreq := { opcode := if imm then 2 else 1, offset := (gv c f.rd).toNat, local_ := (gv c f.rs2).toNat, win := l.2.1, data := d.2.1, value := v }
      opIssue d.2.2 c1 L r o w t.2.1
/-- RPUT. -/
def execRput (i : Issue) (f : RFmt) (s : State) : Out_ := .next (putOp i f false s)
/-- RPUTI. -/
def execRputi (i : Issue) (f : RFmt) (s : State) : Out_ := .next (putOp i f true s)
/-- RGET (R93, R144-R147). -/
def execRget (i : Issue) (f : RFmt) (s : State) : Out_ :=
  .next (issue s i (remoteDeps i [rG f.rd, rG f.rs1, rG f.rs2] []) (remoteEnc i f 3 true 0x3FFF000) fun s c =>
    let L := i.tile.val
    let r := gv c f.rs1
    let n := (prefG c i 0).toNat
    let bad := lenExc n
    let len := if bad.isEmpty then n else 0
    let t := if routeRemote r || routeBad r then ([], [], c, s) else reach s c (gv c f.rd) len .read false
    let l := localOperand t.2.2.2 t.2.2.1 L (fWin f) (gv c f.rs2) len .write
    let c1 := l.2.2.2.1
    let s1 := l.2.2.2.2
    let es := routeExc s c r ++ bad ++ rcExc s c i f ++ offsetExc r (gv c f.rd) ++ t.1 ++ l.1
    if !es.isEmpty then .exc s1 es
    else if routeFull s1 r then .wait s1 c1 (.sendFull (routeQpn r))
    else
      let o := { opOf c1 L .rget n (rcOf c i f) with pieces := t.2.1, win := l.2.1, dst := l.2.2.1 }
      opIssue s1 c1 L r o { opcode := 3, offset := (gv c f.rd).toNat, local_ := (gv c f.rs2).toNat, win := l.2.1 } t.2.1)

/-- RFADD and RCAS (R93, R144): an aligned 8-byte location, read and written. -/
def atomicOp (i : Issue) (f : RFmt) (cas : Bool) (s : State) : State :=
  issue s i (remoteDeps i [rG f.rs1, rG f.rs2] [rG f.rd]) (remoteEnc i f 2 true (if cas then 0x3FC0000 else 0x3FFF000)) fun s c =>
    let L := i.tile.val
    let a := gv c f.rs1
    let r := gv c f.rs2
    let t := if routeRemote r || routeBad r then ([], [], c, s) else reach s c a 8 .read false
    let u := if routeRemote r || routeBad r then ([], [], c, s) else reach t.2.2.2 t.2.2.1 a 8 .write cas
    let c1 := u.2.2.1
    let s1 := u.2.2.2
    let es := routeExc s c r ++ causes [(a.toNat % 8 ≠ 0, { cause := 0x07, st := stMisaligned, addr := a })] ++ rcExc s c i f ++
      offsetExc r a ++ t.1 ++ u.1
    if !es.isEmpty then .exc s1 es
    else if routeFull s1 r then .wait s1 c1 (.sendFull (routeQpn r))
    else
      let o := { opOf c1 L (if cas then .rcas else .rfadd) 8 (rcOf c i f) with
        pieces := u.2.1, rd := f.rd.toNat, val := prefG c i 0, cmp := if cas then prefG c i 12 else 0 }
      opIssue s1 c1 L r o { opcode := if cas then 5 else 4, offset := a.toNat, value := o.val, compare := o.cmp } u.2.1
/-- RFADD. -/
def execRfadd (i : Issue) (f : RFmt) (s : State) : Out_ := .next (atomicOp i f false s)
/-- RCAS. -/
def execRcas (i : Issue) (f : RFmt) (s : State) : Out_ := .next (atomicOp i f true s)
/-- SADD (R93, R144, R145): RD is a counter index on the local route, a region offset on a remote route. -/
def execSadd (i : Issue) (f : RFmt) (s : State) : Out_ :=
  .next (issue s i (remoteDeps i [rG f.rd, rG f.rs1, rG f.rs2] []) (remoteEnc i f 2 false 0x3FFF03F) fun s c =>
    let L := i.tile.val
    let r := gv c f.rs1
    let k := gv c f.rd
    let es := routeExc s c r ++ (if routeRemote r || routeBad r then [] else ctrExc s c k.toNat) ++ rcExc s c i f ++ offsetExc r k
    if !es.isEmpty then .exc s es
    else if routeFull s r then .wait s c (.sendFull (routeQpn r))
    else
      let o := { opOf c L .sadd 8 (rcOf c i f) with ctr := k.toNat, val := gv c f.rs2 }
      opIssue s c L r o { opcode := 6, offset := k.toNat, value := o.val } [])

/-- The counter unit can serve a read with tag t of the job: every other source lies above t, and no add below t is on its way (R55, R367). -/
def addsSettled (s : State) (j : BitVec 16) (own : Nat) (t : Tag) : Bool :=
  frontsAboveBut s j own t &&
  (s.ops.all fun o => o.2.job ≠ j || o.2.done || decide (t.toNat ≤ o.2.tag.toNat) ||
    (o.2.rc.isNone && o.2.kind ≠ .sadd && o.2.kind ≠ .rfadd)) &&
  (s.engines.all fun e => e.2.all fun d => d.job ≠ j || !d.ccEn || decide (t.toNat ≤ d.tag.toNat)) &&
  (s.qps.all fun q => q.2.sq.all fun w => w.job ≠ j || !w.flags.getLsbD 0 || decide (t.toNat ≤ w.tag.toNat))
/-- A wait on counter k with tag t and threshold h is over (R364, R367, R369). -/
def waitOver (s : State) (k : Nat) (t : Tag) (h : Word) (j : BitVec 16) (own : Nat) : Bool :=
  if strictJob s j then addsSettled s j own t && reached (ctrSeen s k t) h else reached (ctrGet s k) h
/-- Under FREE, a read served while some other source could still add counts (R58 item 1). -/
def tdcRead (s : State) (j : BitVec 16) (own : Nat) (t : Tag) : State :=
  if strictJob s j ∨ (jobOf s j).isNone ∨ frontsAboveBut s j own t then s else tdcCount s 0
/-- Add a request at a decision point. -/
def dpAdd (s : State) (dp : Nat) (r : DpReq) : State := { s with dps := kvSet s.dps dp (((kvGet s.dps dp).getD []) ++ [r]) }
/-- Remove a source's request with a tag from a decision point. -/
def dpDel (s : State) (dp src : Nat) (t : Tag) : State :=
  { s with dps := kvUpd s.dps dp fun q => q.filter fun r => !(r.src = src && r.tag = t) }
/-- SWAIT (R144, R365): traps when RERR is latched, retires when the counter has reached the threshold, else waits. -/
def execSwait (i : Issue) (f : RFmt) (s : State) : Out_ :=
  .next (issue s i { slot := 4, reads := [rG f.rs1, rG f.rs2], writes := [], ends := true } (i.pre.isNone && f.fn = 0 && f.rd = 0) fun s c =>
    let k := (gv c f.rs1).toNat
    let h := gv c f.rs2
    let own := ctxSrc i.tile.val i.hw.val
    let es := ctrExc s c k ++ causes [(c.rerrStatus ≠ 0, { cause := 0x0B, st := c.rerrStatus })]
    if !es.isEmpty then .exc s es
    else if waitOver s k (ctxTag c) h c.job own then ret (opsForget (tdcRead s c.job own (ctxTag c)) c.sw) c
    else .wait (if strictJob s c.job then dpAdd s k { src := own, tag := ctxTag c, job := c.job, strict := true, since := s.now } else s) c (.swait k h))

/-- Read a range as memory for an instruction that takes its operand from it: causes, bytes, context, state (log 19). -/
def operandRead (s : State) (c : Ctx) (va : Word) (len : Nat) : List Exc × Bytes × Ctx × State :=
  let t := reach s c va len .read false
  if !t.1.isEmpty then (t.1, [], t.2.2.1, t.2.2.2)
  else
    let r := piecesRead t.2.2.2 t.2.1
    if r.1 = stOk then ([], memBytes r.2.1 0 len, t.2.2.1, r.2.2)
    else if r.1 = stOutOfBounds then ([{ cause := 0x01, st := r.1, addr := va }], [], t.2.2.1, r.2.2)
    else ([{ cause := 0x04, st := r.1, addr := va }], [], t.2.2.1, r.2.2)
/-- A posted work request is one of the context's remote operations (R93, log 117); its transfer starts from the SCALAR release and takes FRERAK (R147). -/
def qpostIssue (s : State) (c : Ctx) (L n : Nat) (w : Wreq) : Body :=
  let o := { opOf c L .qpost w.length (if w.flags.getLsbD 0 then some w.cc else none) with qpn := some n }
  .posted (sqPost { s with ops := kvSet s.ops s.nextOp o, nextOp := s.nextOp + 1 } n (wrPoster s c L { w with op := some s.nextOp })) c s.nextOp
    8 (frerakSize s n w.length) (((jobOf s c.job).map fun j => budget j 0 2 0).getD 0)
/-- QPOST (R144, R321, R328). -/
def execQpost (i : Issue) (f : RFmt) (s : State) : Out_ :=
  .next (issue s i { slot := 4, reads := [rG f.rs1, rG f.rs2], writes := [], ends := true, prof := 256 } (i.pre.isNone && f.fn = 0 && f.rd = 0) fun s c =>
    let n := (gv c f.rs1).toNat
    let va := gv c f.rs2
    let m := operandRead s c va 64
    let w := wrOf m.2.1
    let es := causes [(decide (2 ^ 20 ≤ n), { cause := 0x03, st := stMalformed }),
        (c.priv = 0 && (decide (2 ^ 20 ≤ n) || (qpGet s n).job ≠ c.job), { cause := 0x01, st := stUnbound }),
        (va.toNat % 64 ≠ 0, { cause := 0x07, st := stMisaligned, addr := va })] ++ m.1 ++
      (if m.1.isEmpty then
        (if wrOk m.2.1 then
          (if w.flags.getLsbD 0 then ctrExc s c w.cc else []) ++ (if w.flags.getLsbD 1 then ctrExc s c w.gateCtr else [])
        else [{ cause := 0x03, st := stMalformed }])
      else [])
    let c1 := m.2.2.1
    let s1 := m.2.2.2
    if !es.isEmpty then .exc s1 es
    else if sqFull (qpGet s1 n) then .wait s1 c1 (.sendFull n)
    else qpostIssue s1 c1 i.tile.val n w)

/-! ## Descriptors (R98, R99, R109-R111) -/

/-- UCB index a local handle names, where it is in the local form and names one (R97). -/
def handleUcb (s : State) (h : Word) : Option Nat :=
  let a := h.toNat
  if 0x0C0000000000 ≤ a ∧ a < 0x0E0000000000 ∧ a % 4096 = 0 ∧ (ucbKind s ((a - 0x0C0000000000) / 4096)).isSome then some ((a - 0x0C0000000000) / 4096)
  else none
/-- The unit is bound to the job: it or an ancestor is listed (R98). -/
def unitBound (s : State) (j : BitVec 16) (u : Nat) : Bool := (jobOf s j).any fun x => x.units.any fun a => covers a u
/-- Causes of a handle for a purpose that accepts UCB kind `kind` (R98, R99). -/
def handleExc (s : State) (c : Ctx) (h : Word) (kind : Nat) : List Exc :=
  match handleUcb s h with
  | none => if c.priv = 0 then [{ cause := 0x01, st := stUnbound }] else [{ cause := 0x03, st := stMalformed }]
  | some u =>
    causes [(c.priv = 0 && !unitBound s c.job (ucbHome s u), { cause := 0x01, st := stUnbound }),
      (ucbKind s u ≠ some kind, { cause := 0x03, st := stMalformed })]
/-- UCB kind of the handle that posts to an engine (R99). -/
def engineKind (e : Nat) : Nat := if e = 4 then 3 else if e = 5 then 2 else 1
/-- Code of the engine instance in BLK_RESET.TARGET that a handle names; both Gather engines share code 200 (R195). -/
def engineCode (e u : Nat) : Nat :=
  if e = 1 then u - 8 else if e = 2 then 64 + (u - 8) else if e = 3 then 128 + (u - 8) else if e = 5 then 192 + (u - 1) else 200
/-- The header checks of R110: ENGINE, rsvd fields, LENGTH, CC and STATUS_ADDR. -/
def headerOk (s : State) (c : Ctx) (b : Bytes) : Bool :=
  let e := subNat b 0 1
  let len := subNat b 4 4
  let cc := subNat b 8 4
  decide (1 ≤ e ∧ e ≤ 5) && subNat b 2 2 = 0 && len % 64 = 0 && decide (64 ≤ len ∧ len ≤ 4096) && bitsAt cc 17 14 = 0 && subNat b 12 4 = 0 &&
  subNat b 16 8 % 16 = 0 && (!bitOf cc 31 || ctrBound s c (cc % 2 ^ 17))
/-- The descriptor queue of an engine instance. -/
def engQueue (s : State) (code : Nat) : List Desc := (kvGet s.engines code).getD []
/-- Store a descriptor queue. -/
def engSet (s : State) (code : Nat) (q : List Desc) : State := { s with engines := kvSet s.engines code q }
/-- Engine operations for runtime level only: the history-carrying BRL streams (R271). -/
def runtimeOp (engine op : Nat) : Bool := engine = 1 && decide (0x12 ≤ op ∧ op ≤ 0x16)
/-- EPOST (R109-R111, R144). -/
def execEpost (i : Issue) (f : RFmt) (s : State) : Out_ :=
  .next (issue s i { slot := 4, reads := [rG f.rs1, rG f.rs2], writes := [], ends := true, prof := 512 } (i.pre.isNone && f.fn = 0 && f.rd = 0) fun s c =>
    let h := gv c f.rs1
    let va := gv c f.rs2
    let m := operandRead s c va 24
    let b := m.2.1
    let e := subNat b 0 1
    let es := causes [(va.toNat % 64 ≠ 0, { cause := 0x07, st := stMisaligned, addr := va })] ++ m.1 ++
      (if m.1.isEmpty then
        (if headerOk s c b then handleExc s c h (engineKind e) else [{ cause := 0x03, st := stMalformed }]) ++
        causes [(c.priv = 0 && runtimeOp e (subNat b 1 1), { cause := 0x02, st := stPrivilege })]
      else (if (handleUcb s h).isNone then handleExc s c h 1 else []))
    let c1 := m.2.2.1
    let s1 := m.2.2.2
    if !es.isEmpty then .exc s1 es
    else
      let code := engineCode e ((handleUcb s h).getD 0)
      if 256 ≤ (engQueue s1 code).length then .wait s1 c1 (.queueFull code)
      else
        let d : Desc := {
          va := va.toNat, engine := e, op := subNat b 1 1, length := subNat b 4 4, ccEn := bitOf (subNat b 8 4) 31,
          cc := subNat b 8 4 % 2 ^ 17, statusAddr := subNat b 16 8, tag := withOrigin (ctxTag c) e, ttb := c.ttb.toNat, pkr0 := c.pkr0,
          pkr1 := c.pkr1, priv := c.priv, job := c.job, tile := i.tile.val, sw := c.sw, id := s1.nextDesc,
          ready := max s1.pace.tick.toNat (max (tabGet 0 c.rel (rG f.rs1)) (tabGet 0 c.rel (rG f.rs2))) +
            (((jobOf s1 c.job).map fun j => budget j 0 2 0).getD 0) }
        let s2 := engSet { s1 with nextDesc := s1.nextDesc + 1 } code (engQueue s1 code ++ [d])
        let low := (engQueue s1 code).foldl (fun t x => if x.tag.toNat < t.toNat then x.tag else t) d.tag
        ret (frontSet s2 (engSrc code) c.job low) c1)

/-! ## Context control and trace marks (R149, R150) -/

/-- CTX functions: FN bits 7:5 zero and, but for EXIT, CCEN zero; no prefix. -/
def ctxEnc (i : Issue) (f : R4) (exit : Bool) : Bool :=
  i.pre.isNone && f.rd = 0 && (if exit then decide (f.hi.toNat < 2) && f.rs2 = 0 && (f.hi = 1 || f.rs1 = 0) else f.hi = 0)
/-- Sources of a CTX function. -/
def ctxDeps (f : R4) : Deps := { slot := 4, reads := [rG f.rs1, rG f.rs2], writes := [], ends := true }
/-- EXIT (R149): as RFENCE; then the software context ends. -/
def execExit (i : Issue) (f : R4) (s : State) : Out_ :=
  .next (issue s i (ctxDeps f) (ctxEnc i f true) fun s c =>
    let cc := if f.hi = 1 then some (gv c f.rs1).toNat else none
    let es := (match cc with
      | some k => ctrExc s c k
      | none => []) ++ causes [(c.rerrStatus ≠ 0, { cause := 0x0B, st := c.rerrStatus })]
    if !es.isEmpty then .exc s es
    else if (opsOf s c.sw).isEmpty then .gone s c cc
    else .wait s c (.exit cc))
/-- The triple of R49 as a number. -/
def triple (b : Word) (p : BitVec 8) (t : BitVec 24) : Nat := (b.toNat * 2 ^ 8 + p.toNat) * 2 ^ 24 + t.toNat
/-- SETTAG (R48, R49, R149). -/
def execSettag (i : Issue) (f : R4) (s : State) : Out_ :=
  .next (issue s i { ctxDeps f with settag := true } (ctxEnc i f false) fun s c =>
    let b := gv c f.rs1
    let x := gv c f.rs2
    let p := (x >>> 56).setWidth 8
    let t := (x >>> 32).setWidth 24
    let es := causes [(x.toNat % 2 ^ 32 ≠ 0, { cause := 0x03, st := stMalformed }),
      (!decide (triple c.batch c.phase c.item < triple b p t), { cause := 0x09, st := stSeqtag })]
    if !es.isEmpty then .exc s es else ret s { c with batch := b, phase := p, item := t })
/-- Saved software contexts of a tile (R102). -/
def savedCount (t : Tile) : Nat := t.runq.length + t.waiting.length + t.frozen.length
/-- A resident context is blocked (R102): its wait is one that gives up the hardware context and is not over, and its pending gd results have arrived (R103). -/
def ctxBlocked (s : State) (L hw : Nat) : Bool :=
  match ctxGet s L hw with
  | none => false
  | some c => c.pend.isEmpty &&
    match c.wait with
    | .swait k h => c.rerrStatus = 0 && !waitOver s k (ctxTag c) h c.job (ctxSrc L hw)
    | .rfence | .exit _ => c.rerrStatus = 0 && !(opsOf s c.sw).isEmpty
    | .pool _ _ _ => true
    | _ => false
/-- While contexts wait for a hardware context, one that is blocked gives its own up (R102). -/
def blockStep (s : State) (L : Nat) : State :=
  if (tileGet s L).runq.isEmpty || !tileLoads s L then s
  else match (List.range 8).find? fun h => ctxBlocked s L h with
    | some h => swapOut s L h false
    | none => s
/-- A tile whose run queue has gained an entry: free hardware contexts load from it, then those of blocked contexts. -/
def tileSettle (s : State) (L : Nat) : State := (List.range (8 + (tileGet s L).runq.length)).foldl (fun s _ => blockStep s L) (fillTile s L)
/-- A blocked context whose pending gd results have arrived is saved when others wait (R102, R103). -/
def ctxSettle (s : State) (sw : Nat) : State :=
  match ctxFind s sw with
  | some (L, hw) => if ctxBlocked s L hw then blockSave s L hw else s
  | none => s
/-- Append a software context to the run queue of a tile (R149). -/
def launchAt (s : State) (L : Nat) (lo hi : Nat) (c : Ctx) : State :=
  let t := tileGet s L
  let n := if (tileSws t).isEmpty then 0 else t.launched
  let v : Saved := { savedOf c with sw := s.nextSw, ord := n % 256, areaLo := lo, areaHi := hi, wait := .idle }
  tileSettle (tileSet { s with nextSw := s.nextSw + 1 } L { t with runq := t.runq ++ [v], launched := n + 1 }) L
/-- LAUNCH (R149): runtime level. -/
def execLaunch (i : Issue) (f : R4) (s : State) : Out_ :=
  .next (issue s i (ctxDeps f) (ctxEnc i f false) fun s c =>
    if c.priv = 0 then exc1 s 0x02 stPrivilege
    else
      let h := gv c f.rs1
      let va := gv c f.rs2
      let r := reach s c va 0x20000 .read false
      let w := reach r.2.2.2 r.2.2.1 va 0x20000 .write true
      let es := handleExc s c h 0 ++ causes [(va.toNat % 0x20000 ≠ 0, { cause := 0x03, st := stMalformed })] ++ r.1 ++ w.1
      let c1 := w.2.2.1
      let s1 := w.2.2.2
      if !es.isEmpty then .exc s1 es
      else
        let L := ((handleUcb s h).getD 64) - 64
        let lo := ((w.2.1.map (·.1)).getD 0 0)
        let hi := ((w.2.1.map (·.1)).getD 1 0)
        let a := areaRead s1 lo hi
        if a.1 ≠ stOk then ret (freezeTile a.2.2 L a.1 0 c.job lo) c1
        else
          let x := ctxOfImage 0 lo hi a.2.1
          let priv := memNat a.2.1 (0x300 + 16 * 20) 16
          if 1 < priv || (priv = 0 && !unitBound s x.job (tileUcb L)) then .exc a.2.2 [{ cause := 0x03, st := stMalformed }]
          else if 256 ≤ savedCount (tileGet a.2.2 L) then .wait a.2.2 c1 (.launchFull L)
          else ret (launchAt a.2.2 L lo hi x) c1)
/-- TRMARK (R150). -/
def execTrmark (i : Issue) (f : RFmt) (s : State) : Out_ :=
  match ctxGet s i.tile.val i.hw.val with
  | none => .next s
  | some c =>
    .next (issue s i {
        slot := 4, reads := [rG f.rs1], writes := [], prof := 2048,
        mark := some (leBytes 8 (gv c f.rs1).toNat ++ leBytes 8 (ctxTag c).toNat) }
      (i.pre.isNone && f.rd = 0 && f.rs2 = 0 && f.fn = 0) fun s c => ret s c)

end Sys2Proof.Machine
end

