-- ==== Sys2Proof/Machine/Rings.lean ====
section
/-! DEFINITION. The rings of the ring table (R356, R357, R538), the slip journal (R67, R68, R79), and the delivery of raised events. -/

namespace Sys2Proof.Machine

/-- An entry of the ring table (R356). -/
structure RingEntry where
  base : Nat
  sizeLog2 : Nat
  kind : Nat
  signal : Nat
  head : Nat
  tail : Nat
  lost : Nat
  evmask : Nat
  deriving DecidableEq, Repr

/-- Device physical address of the table entry of ring r. -/
def ringAddr (s : State) (r : Nat) : Nat := s.xp.ringt.toNat * 4096 + 64 * r
/-- Read the table entry of ring r; an entry that does not read is off. -/
def ringGet (s : State) (r : Nat) : RingEntry × State :=
  let x := physRead s (ringAddr s r) 64
  let m := if x.1 = stOk then x.2.1 else []
  ({ base := memNat m 0 8, sizeLog2 := memNat m 8 1, kind := memNat m 9 1, signal := memNat m 12 4, head := memNat m 0x10 8,
     tail := memNat m 0x18 8, lost := memNat m 0x20 8, evmask := memNat m 0x28 8 }, x.2.2)
/-- Ring r holds as many unconsumed entries as it has places. -/
def ringFull (e : RingEntry) : Bool := decide (2 ^ e.sizeLog2 ≤ e.head - e.tail)
/-- Write entry HEAD of ring r, advance HEAD and add SIGNAL (R356); with `lossy`, a full ring loses its oldest entry (R357). An entry over a hole or a failed merge is lost (R558 row 1). -/
def ringWrite (s : State) (r : Nat) (e : RingEntry) (lossy : Bool) (b : Bytes) (add : State → Nat → State) : State :=
  let pa := e.base + 32 * (e.head % 2 ^ e.sizeLog2)
  let w := if inHbm s pa 32 then physPut s pa (sub b 0 32) else (stOutOfBounds, s)
  let s1 := if w.1 = stOk then w.2 else ownFail w.2 1 pa w.1
  let full := lossy && ringFull e
  let s2 := (physPut s1 (ringAddr s r + 0x10) (leBytes 8 (e.head + 1))).2
  let s3 := if full then (physPut s2 (ringAddr s r + 0x18) (leBytes 8 (e.tail + 1) ++ leBytes 8 (e.lost + 1))).2 else s2
  if bitOf e.signal 31 then add s3 (e.signal % 2 ^ 17) else s3

/-- The 32 bytes of an event entry (R357). -/
def eventBytes (e : Event) : Bytes :=
  leBytes 8 e.time.toNat ++ [e.type, 0] ++ leBytes 2 e.status.toNat ++ leBytes 4 e.subject.toNat ++ sub e.detail 0 16
/-- Rings whose KIND byte in the ring table says event. -/
def eventRings (s : State) : List Nat :=
  match resolve s (s.xp.ringt.toNat * 4096) with
  | .hbm f => ((memSlice s.hbm f (4096 * 64)).filter fun c => c.1 % 64 = 9 && c.2 = 3).map fun c => c.1 / 64
  | _ => []
/-- Deliver one event to every event ring that selects its type; none selecting it counts EVT_UNROUTED (R357, R538). -/
def eventDeliver (s : State) (e : Event) : State :=
  let r := (eventRings s).foldl (fun (acc : Bool × State) r =>
    let x := ringGet acc.2 r
    if x.1.kind = 3 ∧ bitOf x.1.evmask e.type.toNat then
      (true, ringWrite x.2 r x.1 true (eventBytes e) fun s k => ctrAdd s k 1)
    else (acc.1, x.2)) (false, s)
  if r.1 then r.2
  else
    let c := r.2.glob.unrouted
    bumpEvent { r.2 with glob := { r.2.glob with unrouted := bump c 1 } } c 1 0 0x088
/-- Deliver every event raised so far, oldest first. -/
def eventsDeliver (s : State) : State :=
  s.evq.foldl (fun s e => eventDeliver s e) { s with evq := [] }

/-- Record a slip (R67, R68, R79): the journal entry, SLIP_TOTAL, and the first slip event since the commit point. -/
def slipRecord (s : State) (unit release late cause cls : Nat) (batch detail : Word) (j : BitVec 16) : State :=
  let p := s.pace
  let b := leBytes 8 release ++ leBytes 4 (min 0xFFFFFFFF late) ++ [BitVec.ofNat 8 cause, BitVec.ofNat 8 cls] ++ leBytes 2 unit ++
    leBytes 8 batch.toNat ++ leBytes 8 detail.toNat
  let s1 :=
    if p.ringEn then
      let pa := p.ringBase.toNat * 4096 + 32 * (p.ringHead.toNat % 2 ^ p.ringSize.toNat)
      let w := if inHbm s pa 32 then physPut s pa b else (stOutOfBounds, s)
      let s1 := if w.1 = stOk then w.2 else ownFail w.2 1 pa w.1
      let full := decide (2 ^ p.ringSize.toNat ≤ (p.ringHead - p.ringTail).toNat)
      let s2 := { s1 with pace := { s1.pace with
        ringHead := p.ringHead + 1
        ringTail := if full then p.ringTail + 1 else p.ringTail
        ringLost := if full then bump p.ringLost 1 else p.ringLost } }
      if full then bumpEvent s2 p.ringLost 1 2 0x048 else s2
    else s
  let s2 := bumpEvent { s1 with pace := { s1.pace with slips := bump p.slips 1 } } p.slips 1 2 0x020
  match jobOf s2 j with
  | some x =>
    if x.slipSeen then s2
    else jobUpd (raise s2 10 0 unit (leBytes 8 release ++ [BitVec.ofNat 8 cause])) j fun x => { x with slipSeen := true }
  | none => s2
/-- A replay has passed the highest delivered horizon: under PACED its time is one RECOVERY slip for each tile of the job (R72, R487); CLASS and BATCH of such a slip have no value in the manual (log 37). -/
def replayPassed (s : State) (j : BitVec 16) (b : Nat) : State :=
  match jobOf s j with
  | none => s
  | some x =>
    match x.replay with
    | none => s
    | some (target, horizon, t0) =>
      if b ≤ horizon then s
      else
        let s1 := jobUpd s j fun y => { y with replay := none }
        if !x.paced then s1
        else
          let now := s.pace.tick.toNat
          ((x.units.flatMap tilesUnder).eraseDups).foldl (fun s L =>
            slipRecord { s with freeCtr := s.freeCtr + 1 } (tileUcb L) now (now - t0) 8 ((Config.freeByte s.freeCtr).toNat) (Config.freeWord s.freeCtr) target j) s1

end Sys2Proof.Machine
end

