-- ==== Sys2Proof/Machine/Pace.lean ====
section
/-! DEFINITION. Waits, time slices, issue groups, hold buffers, slips and frontiers: the events of the chapters 02, 03 and 04 that are no instruction (R53, R57, R60, R67, R101, R102, R121, R365). -/

namespace Sys2Proof.Machine

/-! ## Waits (R94, R102, R149, R365) -/

/-- The wait of a context is over: its counter, or its remote operations. -/
def ctxWaitOver (s : State) (c : Ctx) (own : Nat) : Bool :=
  match c.wait with
  | .swait k h => waitOver s k (ctxTag c) h c.job own
  | .rfence | .exit _ => (opsOf s c.sw).isEmpty
  | _ => false
/-- The wait is one that WAIT_SATISFIED ends. -/
def waitKind (w : Wait) : Bool :=
  match w with
  | .swait _ _ | .rfence | .exit _ => true
  | _ => false
/-- Issue slot and group end of the waiting instruction. -/
def waitDeps (w : Wait) : Deps :=
  match w with
  | .rfence => { slot := 0, reads := [], writes := [], ends := true }
  | _ => { slot := 4, reads := [], writes := [], ends := true }
/-- A resident context's wait ends: REMOTE_FAILED when RERR is latched (R95, R146), else it retires, or for EXIT the context ends. -/
def waitEnd (s : State) (L hw : Nat) (c : Ctx) : State :=
  let own := ctxSrc L hw
  if !waitKind c.wait then s
  else if c.rerrStatus ≠ 0 then
    takeExc (dpDel s 0 own (ctxTag c)) L hw { c with wait := .idle } { cause := 0x0B, st := c.rerrStatus }
  else if ctxWaitOver s c own then
    match c.wait with
    | .exit cc =>
      let r := retireCore s L (waitDeps c.wait) c c (c.pc + 4) []
      ctxEnd r.1 L hw r.2 cc (ctxTag c)
    | .swait k _ =>
      let s1 := opsForget (dpDel (tdcRead s c.job own (ctxTag c)) k own (ctxTag c)) c.sw
      let r := retireCore s1 L (waitDeps c.wait) c c (c.pc + 4) []
      ctxSet r.1 L hw r.2
    | _ =>
      let r := retireCore (opsForget s c.sw) L (waitDeps c.wait) c c (c.pc + 4) []
      ctxSet r.1 L hw r.2
  else s
/-- RERR of a saved context, in its save area (R95, R100). -/
def savedRerr (s : State) (v : Saved) : Nat :=
  match hbmPeek s v.areaLo 65536 with
  | some m => memNat m (0x300 + 16 * 19) 2
  | none => 0
/-- The wait of a saved context is over. -/
def savedWaitOver (s : State) (v : Saved) : Bool :=
  savedRerr s v ≠ 0 ||
  match v.wait with
  | .swait k h => waitOver s k (v.tag - 16) h v.job (2 ^ 32)
  | .rfence | .exit _ => (opsOf s v.sw).isEmpty
  | _ => false
/-- WAIT_SATISFIED (R365, R102): a resident wait that is over ends; a saved waiter whose wait is over joins the tail of its tile's run queue, and goes on waiting when it is loaded. -/
def execWaitSatisfied (sw : Nat) (s : State) : Out_ :=
  match ctxFind s sw with
  | some (L, hw) =>
    match ctxGet s L hw with
    | some c => .next (if issuing s && tileIssues s L then waitEnd s L hw c else s)
    | none => .next s
  | none =>
    match s.tiles.findSome? (fun t => (t.2.waiting.find? fun v => v.sw = sw).map fun v => (t.1, v)) with
    | some (L, v) =>
      if waitKind v.wait && savedWaitOver s v then
        .next (tileSettle (tileUpd s L fun t => { t with waiting := t.waiting.filter fun y => y.sw ≠ sw, runq := t.runq ++ [v] }) L)
      else .next s
    | none => .next s

/-- Tile on which a saved context waits. -/
def waitTile (s : State) (sw : Nat) : Option Nat := s.tiles.findSome? fun t => if t.2.waiting.any fun v => v.sw = sw then some t.1 else none
/-- ALLOC_WAITER_SERVED: a saved context that is served joins its tile's run queue (R102, R378). -/
def execAllocWaiterServed (p : Fin 64) (s : State) : Out_ :=
  let t := waiterServe s p.val
  match ((waiterPick s p.val (poolGet s p.val).waiters).bind (·.sw)).bind (waitTile s) with
  | some L => .next (if (tileGet t L).waiting.length < (tileGet s L).waiting.length then tileSettle t L else t)
  | none => .next t

/-! ## Time slices (R101) -/

/-- SLICE_BOUNDARY (R101, R103): at a boundary the context goes to the tail of a non-empty queue and the head is loaded, once its pending gd results have arrived. -/
def execSliceBoundary (tile : Fin 768) (hw : Fin 8) (s : State) : Out_ :=
  match ctxGet s tile.val hw.val with
  | none => .next s
  | some c =>
    if !c.sliceDue then .next s
    else if (tileGet s tile.val).runq.isEmpty then .next (ctxSet s tile.val hw.val { c with sliceDue := false })
    else if c.pend.isEmpty then .next (swapOut (ctxSet s tile.val hw.val { c with sliceDue := false }) tile.val hw.val true)
    else .next s

/-! ## Issue groups and hold buffers (R60, R61, R67, R121) -/

/-- A context of a PACED job whose next group can issue now. -/
def groupCan (s : State) (L hw : Nat) : Bool :=
  match ctxGet s L hw with
  | none => false
  | some c => pacedJob s c.job && issuing s && tileIssues s L && !c.sliceDue && mayTry c && !commitHolds s c
/-- ISSUE_GROUP (R60, R61, R121): at most one group a tick, from the first context in cyclic order after the one that issued last. -/
def execIssueGroup (tile : Fin 768) (s : State) : Out_ :=
  let L := tile.val
  let t := tileGet s L
  let now := s.pace.tick.toNat
  if 64 ≤ t.hold.length || t.group.any fun g => g.tick = now then .next s
  else
    match ((List.range 8).map fun k => (t.last + 1 + k) % 8).find? fun hw => groupCan s L hw with
    | some hw => .next (tileSet s L { t with group := some { hw := hw, tick := now }, last := hw })
    | none => .next s

/-- Release one hold-buffer entry: the completion it keeps, of a descriptor or of a remote operation (R60, R147). -/
def holdFree (s : State) (h : Hold) : State :=
  let s1 := match h.fin with
    | some (code, d, st, r) => if (engQueue s code).any (fun x => x.id = d.id) then descComplete s code d st r else s
    | none => s
  match h.op with
  | some id =>
    match kvGet s1.ops id with
    | some o =>
      match o.result with
      | some r => ctxSettle (opComplete { s1 with ops := kvSet s1.ops id { o with release := none } } id r.1 r.2) o.owner
      | none => s1
    | none => s1
  | none => s1
/-- The result of an entry is there. -/
def holdReady (s : State) (h : Hold) : Bool :=
  match h.op with
  | some id => ((kvGet s.ops id).map fun o => o.result.isSome || o.done).getD true
  | none => h.ready
/-- Hold-buffer entries of a unit: a tile by UCB index, an engine instance by 0xF000 plus its code (R68). -/
def holdGet (s : State) (unit : Nat) : List Hold :=
  if 0xF000 ≤ unit then (kvGet s.engHold (unit - 0xF000)).getD [] else (tileGet s (unit - 64)).hold
/-- Store the entries of a unit. -/
def holdSet (s : State) (unit : Nat) (l : List Hold) : State :=
  if 0xF000 ≤ unit then { s with engHold := kvSet s.engHold (unit - 0xF000) l } else tileUpd s (unit - 64) fun t => { t with hold := l }
/-- HOLD_RELEASE (R60): every entry that is ready and whose release tick has come. -/
def execHoldRelease (unit : Nat) (s : State) : Out_ :=
  let now := s.pace.tick.toNat
  let due := fun h => decide (h.release ≤ now) && holdReady s h
  let l := holdGet s unit
  .next ((l.filter due).foldl holdFree (holdSet s unit (l.filter fun h => !due h)))
/-- The job that runs PACED. -/
def pacedNum (s : State) : BitVec 16 := ((s.jobs.find? fun j => j.paced).map (·.num)).getD 0xFFFF
/-- SLIP (R67, R69): an entry that missed its release tick is released at the present tick, and the slip is recorded. -/
def execSlip (unit idx : Nat) (cause : BitVec 8) (detail : Word) (s : State) : Out_ :=
  let now := s.pace.tick.toNat
  let l := holdGet s unit
  match l[idx]? with
  | none => .next s
  | some h =>
    if h.release < now ∧ holdReady s h then
      .next (slipRecord (holdFree (holdSet s unit (l.eraseIdx idx)) h) unit now (now - h.release) cause.toNat h.cls h.batch detail (pacedNum s))
    else .next s

/-! ## Frontiers and stalls (R53, R57) -/

/-- FRONTIER_ADVANCE (R53): the source publishes the lowest tag it can still issue; a source without work for the job publishes all ones. -/
def execFrontierAdvance (src : BitVec 32) (job : BitVec 16) (s : State) : Out_ :=
  let n := src.toNat
  if n < 6144 then
    match ctxGet s (n / 8) (n % 8) with
    | some c => if c.job = job then .next (frontRaise s n job (ctxFront c)) else .next s
    | none => .next (frontDrop s n)
  else if n < 16384 then
    match (engQueue s (n - 8192)).filter fun d => d.job = job with
    | [] => .next (frontDrop s n)
    | d :: r => .next (frontRaise s n job (r.foldl (fun t x => if x.tag.toNat < t.toNat then x.tag else t) d.tag))
  else
    let q := qpGet s (n - 16384)
    if q.job = job ∧ q.state = .ready ∧ 0x20 ≤ q.version.toNat then .next (frontRaise s n job q.recvFrontier) else .next (frontDrop s n)

/-- A published frontier of the job at or below `t`: the lagging input. -/
def lagging (s : State) (j : BitVec 16) (own : Nat) (t : Tag) : Option Nat :=
  (s.fronts.find? fun e => e.1 ≠ own && e.2.job = j && decide (e.2.tag.toNat ≤ t.toNat)).map (·.1)
/-- DETAIL of an order event (R557). -/
def orderDetail (t : Tag) (src : Nat) : Bytes := leBytes 12 (t.toNat / 2 ^ 32) ++ leBytes 4 src
/-- UCB index of the unit that owns a decision point: a UCB arbiter's own, else the device. -/
def dpUnit (dp : Nat) : Nat := if 2 ^ 20 ≤ dp ∧ dp < 2 ^ 20 + 4096 then dp - 2 ^ 20 else 0
/-- A wait since `t0` has passed ORDER_STALL_LIMIT (R57). -/
def pastLimit (s : State) (t0 : Word) : Bool := s.pace.stallLimit ≠ 0 && decide (s.pace.stallLimit.toNat * 1000 < (s.now - t0).toNat)
/-- ORDER_STALL (R57): requests that have waited past the limit for a lagging frontier are reported once each; STALLED shows whether any still waits. -/
def execOrderStall (dp : Nat) (s : State) : Out_ :=
  if 2 ^ 18 ≤ dp ∧ dp < 2 ^ 18 + 64 then
    let p := dp - 2 ^ 18
    let hit := (poolGet s p).waiters.filter fun w => w.strict && !w.stalled && pastLimit s w.since && (lagging s w.job w.src w.tag).isSome
    let s1 := hit.foldl (fun s w => deviceError (addTrouble s 0 30) stOrderStall 0 (orderDetail w.tag ((lagging s w.job w.src w.tag).getD 0))) s
    let s2 := if hit.isEmpty then s1 else poolUpd s1 p fun x => { x with waiters := x.waiters.map fun w => if hit.contains w then { w with stalled := true } else w }
    .next { s2 with pace := { s2.pace with stalled := s2.pace.stalled || !hit.isEmpty } }
  else
    let q := (kvGet s.dps dp).getD []
    let hit := q.filter fun r => r.strict && !r.stalled && pastLimit s r.since && (lagging s r.job r.src r.tag).isSome
    let s1 := hit.foldl (fun s r => deviceError (addTrouble s 0 30) stOrderStall (dpUnit dp) (orderDetail r.tag ((lagging s r.job r.src r.tag).getD 0))) s
    let s2 := { s1 with dps := kvUpd s1.dps dp fun q => q.map fun r => if hit.contains r then { r with stalled := true } else r }
    let any := (s2.dps.any fun e => e.2.any fun r => r.stalled) || s2.cul.pools.any fun e => e.2.waiters.any fun w => w.stalled
    .next { s2 with pace := { s2.pace with stalled := any } }

/-- HS_RATE_UPDATE (UCB_HS_RATE): a unit's replica delay line measured its rate. -/
def execHsRateUpdate (u : BitVec 12) (rate : BitVec 16) (s : State) : Out_ :=
  if (ucbKind s u.toNat).isSome then .next (unitSet s (ucbHome s u.toNat) { unitGet s (ucbHome s u.toNat) with rate := rate }) else .next s

end Sys2Proof.Machine
end

