-- ==== Sys2Proof/Machine/Engine.lean ====
section
/-! DEFINITION. What the engines share (R50, R60, R63, R109-R111): reading and writing memory with the translation a descriptor holds, picking a descriptor, completing it, and engine counters (R540). -/

namespace Sys2Proof.Machine

/-- An engine stops a descriptor: the completion status, and whether the posting context is frozen (R110, R253). -/
structure EngErr where
  st : Status
  freeze : Bool := false
  deriving DecidableEq, Repr
/-- Engine actions: they change the state even where they end in an error. -/
abbrev EM := ExceptT EngErr (StateM State)
/-- The descriptor's own fields are malformed (R110). -/
def engBad {α : Type} : EM α := throw { st := stMalformed, freeze := true }
/-- Require a field to be in range. -/
def engNeed (b : Bool) : EM Unit := if b then pure () else engBad
/-- Stop with a status of the engine's class. -/
def engStop {α : Type} (st : Status) : EM α := throw { st := st }
/-- Change the state. -/
def engDo (f : State → State) : EM Unit := modify f

/-- The context as far as an access check needs it: the privilege and the job of the poster. -/
def descCtx (d : Desc) : Ctx := { ({} : Ctx) with priv := d.priv, job := d.job }
/-- Physical pieces of a range of a descriptor (R110). -/
def engPieces (d : Desc) (va len : Nat) (a : Acc) : EM (List (Nat × Nat)) := do
  let s ← get
  match xlHeld s d.ttb d.pkr0.toNat d.pkr1.toNat d.priv.toNat va len a with
  | .ok ps =>
    match lowest (piecesExc s (descCtx d) a true va ps) with
    | some e => throw { st := e.st, freeze := true }
    | none => pure ps
  | .bad _ (.fault st) => throw { st := st }
  | .bad _ (.deny st) => throw { st := st, freeze := true }
  | .bad _ (.ok _ _) => pure []
/-- Read a range (R253): an uncorrectable read gives its memory status. -/
def engRead (d : Desc) (va len : Nat) : EM Mem := do
  let ps ← engPieces d va len .read
  let r := piecesRead (← get) ps
  set r.2.2
  if r.1 = stOk then pure r.2.1 else throw { st := r.1, freeze := r.1 = stOutOfBounds }
/-- Read a range as bytes. -/
def engBytes (d : Desc) (va len : Nat) : EM Bytes := return memBytes (← engRead d va len) 0 len
/-- A sparse memory as an array of n bytes. -/
def arrOfMem (m : Mem) (n : Nat) : Array Byte := m.foldl (fun a c => a.setIfInBounds c.1 c.2) (Array.replicate n 0)
/-- Read a range as an array. -/
def engArr (d : Desc) (va len : Nat) : EM (Array Byte) := return arrOfMem (← engRead d va len) len
/-- Write sparse cells over a range. -/
def engWriteMem (d : Desc) (va len : Nat) (m : Mem) : EM Unit := do
  let ps ← engPieces d va len .write
  let r := piecesWrite (← get) ps m
  set r.2
  if r.1 = stOk then pure () else throw { st := r.1, freeze := r.1 = stOutOfBounds }
/-- Write bytes. -/
def engWrite (d : Desc) (va : Nat) (b : Bytes) : EM Unit := engWriteMem d va b.length (memOfBytes 0 b)
/-- `n` free bytes (log 4). -/
def engFree (n : Nat) : EM Bytes := do
  let r := freeCells (← get) n
  set r.2
  pure (memBytes r.1 0 n)
/-- Write free bytes over a range: output the manual leaves undefined. -/
def engBlur (d : Desc) (va len : Nat) : EM Unit := do
  let r := freeCells (← get) len
  set r.2
  engWriteMem d va len r.1
/-- Two lists of physical pieces share a byte. -/
def piecesMeet (a b : List (Nat × Nat)) : Bool := a.any fun x => b.any fun y => decide (x.1 < y.1 + y.2 ∧ y.1 < x.1 + x.2)

/-! ## Instances and units -/

/-- UCB index of the unit that an engine instance belongs to (R99). -/
def engUnit (code : Nat) : Nat := if code < 48 then 8 + code else if code < 112 then 8 + (code - 64) else if code < 176 then 8 + (code - 128) else if code < 198 then 1 + (code - 192) else 0
/-- An instance's code is one of a codec, token, Marver, Parison or Gather instance (BLK_RESET). -/
def engIs (engine code : Nat) : Bool :=
  match engine with
  | 1 => decide (code < 48)
  | 2 => decide (64 ≤ code ∧ code < 112)
  | 3 => decide (128 ≤ code ∧ code < 176)
  | 5 => decide (192 ≤ code ∧ code < 198)
  | _ => code = 200
/-- Operations of an engine that have a meaning: codec and compression (R235, R264), token (R284), Marver, Gather and Parison. -/
def engListed (engine op : Nat) : Bool :=
  match engine with
  | 1 => decide (1 ≤ op ∧ op ≤ 6) || decide (0x10 ≤ op ∧ op ≤ 0x16) || op = 0x18 || op = 0x19
  | 2 => decide (1 ≤ op ∧ op ≤ 8)
  | 3 => op = 1
  | 4 => decide (1 ≤ op ∧ op ≤ 3)
  | _ => decide (1 ≤ op ∧ op ≤ 3)
/-- The instance works on active descriptors: its unit is not frozen, failed, off or reset. -/
def engWorks (s : State) (code : Nat) : Bool :=
  let st := (unitGet s (engUnit code)).st
  issuing s && (st = .ready || st = .running || st = .quiescing)
/-- The instance starts descriptors (R510: not while it is quiescing; R61: a full hold buffer stops it). -/
def engStarts (s : State) (code : Nat) : Bool :=
  let st := (unitGet s (engUnit code)).st
  issuing s && (st = .ready || st = .running) && !s.engQuiesce.contains code && decide (((kvGet s.engHold code).getD []).length < 32)
/-- Replace a descriptor in its queue. -/
def descPut (s : State) (code : Nat) (d : Desc) : State :=
  { s with engines := kvUpd s.engines code fun q => q.map fun x => if x.id = d.id then d else x }
/-- Complete every descriptor whose OP the engine does not list (R235). -/
def engFlush (s : State) (code : Nat) : State :=
  ((engQueue s code).filter fun d => !engListed d.engine d.op).foldl (fun s d => if (engQueue s code).any (fun x => x.id = d.id) then descMalformed s code d else s) s
/-- The descriptor to start among those with one operation: queue order, or the least tag under STRICT (R251). -/
def engPick (s : State) (code op : Nat) : Option Desc :=
  ((engQueue s code).filter fun d => d.op = op && !d.active && !batchHeld s d.job (tagBatch d.tag).toNat).foldl (fun b d =>
    match b with
    | none => some d
    | some x => if strictJob s d.job && strictJob s x.job && decide (d.tag.toNat < x.tag.toNat) then some d else b) none

/-! ## Completion -/

/-- How an engine leaves a descriptor. -/
inductive EngOut where
  /-- Complete: status and RESULT. -/
  | done (st : Status) (result : Word)
  /-- It stays active. -/
  | wait
  deriving DecidableEq, Repr
/-- Freeze cause of a status (R105). -/
def freezeCause (st : Status) : Nat := if st = stMalformed then 0x03 else if st = stPrivilege then 0x02 else 0x01
/-- Complete a descriptor, or under PACED hold its completion until its release tick (R60, R111). -/
def engFinish (s : State) (code : Nat) (d : Desc) (st : Status) (result : Word) (fixed size : Nat) : State :=
  match (jobOf s d.job).filter fun j => j.paced with
  | none => descComplete s code d st result
  | some j =>
    let h : Hold := { release := d.ready + budget j 9 fixed size, cls := 9, batch := tagBatch d.tag, fin := some (code, d, st, result) }
    { s with
      engHold := kvSet s.engHold code (((kvGet s.engHold code).getD []) ++ [h])
      engines := kvUpd s.engines code fun q => q.map fun x => if x.id = d.id then { x with active := true } else x }
/-- End a descriptor with an error: a violation freezes its poster at once. -/
def engFail (s : State) (code : Nat) (d : Desc) (e : EngErr) (fixed size : Nat) : State :=
  if e.freeze then freezeSw (descComplete s code d e.st 0) d.sw d.tile e.st (freezeCause e.st) d.job
  else engFinish s code d e.st 0 fixed size
/-- CODEC_DESC counts the descriptors a codec complex completes (R540). -/
def codecCount (s : State) (code : Nat) : State := if code < 48 then engCount s (0x100 * code) 1 else s
/-- Settle what an engine action left; `bud` is the fixed part and size term of its budget (R63). -/
def engSettle (code : Nat) (d : Desc) (bud : Nat × Nat) (r : Except EngErr EngOut × State) : State :=
  match r.1 with
  | .ok (.done st res) => engFinish (codecCount r.2 code) code d st res bud.1 bud.2
  | .ok .wait => r.2
  | .error e => engFail (codecCount r.2 code) code d e bud.1 bud.2
/-- Bytes of a descriptor as they stand in memory, for its budget; zeros where they do not read. -/
def descPeek (s : State) (d : Desc) : Bytes :=
  match ((engBytes d d.va d.length : EM Bytes).run s).1 with
  | .ok b => b
  | .error _ => zeros d.length
/-- Start the next descriptor with an operation: its bytes are read and given to the engine. -/
def engStart (engine code op len : Nat) (bud : Bytes → Nat × Nat) (body : Desc → Bytes → EM EngOut) (s0 : State) : State :=
  if !engIs engine code || !engStarts s0 code then s0
  else
    let s := engFlush s0 code
    match engPick s code op with
    | none => s
    | some d =>
      engSettle code d (bud (descPeek s d)) ((do
        engNeed (d.length = len)
        let b ← engBytes d d.va len
        body d b : EM EngOut).run s)
/-- Bytes `[i, j)` of a descriptor are zero. -/
def zeroIn (b : Bytes) (i j : Nat) : Bool := ((b.drop i).take (j - i)).all (· = 0)

end Sys2Proof.Machine
end

