-- ==== Sys2Proof/Machine/Png.lean ====
section
/-! DEFINITION. Images as the codec complex handles them: plans, pixel conversions (R238, R244), and the PNG decoder with concealment (R232, R239, R240, R246, R248-R250). -/

namespace Sys2Proof.Machine

/-- An error and where it lies: status, byte offset from IN, ERR_POS, ERR_BIT (R245, R246). -/
structure DErr where
  st : Status
  off : Nat
  pos : Nat := 0
  bit : Nat := 0
  deriving DecidableEq, Repr
/-- ERR_POS of an error in the header structure: the ordinal of the segment or chunk (R246). -/
def hdrPos (n : Nat) : Nat := 2 ^ 63 + n

/-- What a header claims and what its output takes (R239-R241, R245). -/
structure Plan where
  elements : Nat := 0
  width : Nat := 0
  height : Nat := 0
  comps : Nat := 0
  depth : Nat := 0
  /-- Resolved output format; none where the stored form has no code of R238. -/
  outFmt : Option Nat := none
  elemBytes : Nat := 1
  /-- Rows of the output and elements in a row: an audio frame is a row (R241). -/
  rows : Nat := 0
  rowElems : Nat := 1
  least : Nat := 0
  have_ : Nat := 0
  flags : Nat := 0
  deriving DecidableEq, Repr
/-- What decoding gave. -/
structure ImgOut where
  data : Array Byte := #[]
  err : Option DErr := none
  /-- Completion status where it is not SUCCESS. -/
  fail : Option Status := none
  conceal : Nat := 0
  units : Nat := 0
  flags : Nat := 0

/-- Round n / d to nearest, ties to even (R155); d positive. -/
def rneQ (n : Int) (d : Nat) : Int :=
  let q := n / (d : Int)
  let r := n - q * d
  if 2 * r < d then q else if (d : Int) < 2 * r then q + 1 else if q % 2 = 0 then q else q + 1
/-- Clamp to 0 .. 2^b - 1. -/
def clampTo (b : Nat) (x : Int) : Nat := (max 0 (min x (2 ^ b - 1))).toNat
/-- CONCEAL (R250). -/
def concealOf (u t : Nat) : Nat := if u = 0 then 0 else min 0xFFFF (ceilDiv (65536 * u) t)

/-- A pixel: red, green, blue and alpha at 8 or 16 bits, or grey. -/
structure Pix where
  grey : Bool
  wide : Bool
  r : Nat
  g : Nat := 0
  b : Nat := 0
  a : Option Nat := none
  deriving DecidableEq, Repr
/-- 0.299 R + 0.587 G + 0.114 B, rounded to nearest even (R244). -/
def toGrey (r g b : Nat) : Nat := (rneQ (299 * r + 587 * g + 114 * b : Nat) 1000).toNat
/-- A sample widened to 16 bits or narrowed to 8 (R244). -/
def toDepth (wide want : Bool) (v : Nat) : Nat :=
  if wide = want then v else if want then v * 257 else (rneQ v 257).toNat
/-- Bytes of a sample. -/
def sampBytes (wide : Bool) (v : Nat) : Bytes := leBytes (if wide then 2 else 1) v
/-- Bytes of a pixel in an output format of R238; conversion to grey comes before a change of depth (log 23). -/
def pixBytes (fmt : Nat) (p : Pix) : Bytes :=
  let want := fmt = 4 || fmt = 5
  let top := if want then 65535 else 255
  let al := match p.a with
    | some a => toDepth p.wide want a
    | none => top
  if fmt = 1 then sampBytes false (toDepth p.wide false (if p.grey then p.r else toGrey p.r p.g p.b))
  else
    let c := fun v => sampBytes want (toDepth p.wide want v)
    let rgb := if p.grey then c p.r ++ c p.r ++ c p.r else c p.r ++ c p.g ++ c p.b
    if fmt = 3 ∨ fmt = 5 then rgb ++ sampBytes want al else rgb
/-- Bytes of an element in an output format. -/
def fmtElem (fmt : Nat) : Nat := [1, 1, 3, 4, 6, 8].getD fmt 1

/-! ## PNG structure -/

/-- A chunk: type, where its data begins, its length, and the bytes of it that are there. -/
structure Chunk where
  ty : Nat
  at_ : Nat
  len : Nat
  have_ : Nat
  crcOk : Bool
  deriving DecidableEq, Repr
/-- Chunks from offset i; the last one may be cut short by the end of the input. -/
def pngChunks (a : Arr) : Nat → Nat → List Chunk
  | 0, _ => []
  | f + 1, i =>
    if a.size < i + 8 then []
    else
      let n := aBe a i 4
      let d := i + 8
      let c : Chunk := {
        ty := aBe a (i + 4) 4, at_ := d, len := n, have_ := min n (a.size - d)
        crcOk := decide (d + n + 4 ≤ a.size) && aBe a (d + n) 4 = crc32 (aSub a (i + 4) (d + n)) }
      if a.size < d + n + 4 then [c] else if c.ty = 0x49454E44 then [c] else c :: pngChunks a f (d + n + 4)
def tyIHDR : Nat := 0x49484452
def tyPLTE : Nat := 0x504C5445
def tyIDAT : Nat := 0x49444154
def tyIEND : Nat := 0x49454E44
def tyTRNS : Nat := 0x74524E53
/-- A critical chunk: bit 5 of its first byte is clear. -/
def critical (ty : Nat) : Bool := !ty.testBit 29
/-- The chunk is there whole. -/
def chunkWhole (c : Chunk) : Bool := c.have_ = c.len

/-- A parsed PNG. -/
structure PngHdr where
  w : Nat
  h : Nat
  depth : Nat
  color : Nat
  inter : Bool
  plte : Array Byte := #[]
  trns : Option (Array Byte) := none
  chunks : List Chunk := []
  ancBad : Bool := false
  trailing : Bool := false
/-- Channels of a colour type. -/
def pngChans (c : Nat) : Nat := [1, 0, 3, 1, 2, 0, 4].getD c 0
/-- Depth and colour type the standard allows together. -/
def pngDepthOk (c d : Nat) : Bool :=
  match c with
  | 0 => d = 1 || d = 2 || d = 4 || d = 8 || d = 16
  | 3 => d = 1 || d = 2 || d = 4 || d = 8
  | 2 | 4 | 6 => d = 8 || d = 16
  | _ => false
/-- Positions of the IDAT chunks are consecutive. -/
def idatRun (l : List Chunk) : Bool :=
  let p := (l.zipIdx.filter fun e => e.1.ty = tyIDAT).map (·.2)
  p.length = 0 || (p.getLast?.getD 0) + 1 - p.headD 0 = p.length
/-- Parse a PNG (R232, R239 step 1). -/
def pngParse (a : Arr) : Except DErr PngHdr :=
  let bad := fun (st : Status) (off n : Nat) => (Except.error { st := st, off := off, pos := hdrPos n } : Except DErr PngHdr)
  if a.size < 8 then bad 0x020B 0 0
  else if aBe a 0 8 ≠ 0x89504E470D0A1A0A then bad 0x0202 0 0
  else
    let cs := pngChunks a a.size 8
    match cs with
    | [] => bad 0x020B 8 0
    | h :: _ =>
      if h.ty ≠ tyIHDR ∨ h.len ≠ 13 then bad 0x0202 8 0
      else if !chunkWhole h ∨ a.size < h.at_ + 17 then bad 0x020B 8 0
      else if !h.crcOk then bad 0x020E (h.at_ + 13) 0
      else
        let d := ab a (h.at_ + 8)
        let c := ab a (h.at_ + 9)
        let w := aBe a h.at_ 4
        let hh := aBe a (h.at_ + 4) 4
        if w = 0 ∨ hh = 0 ∨ 2 ^ 31 ≤ w ∨ 2 ^ 31 ≤ hh ∨ !pngDepthOk c d ∨ ab a (h.at_ + 10) ≠ 0 ∨ ab a (h.at_ + 11) ≠ 0 ∨ 1 < ab a (h.at_ + 12) then bad 0x0202 8 0
        else
          -- the first chunk whose type or content breaks the structure
          let firstIdat := (cs.findIdx? fun x => x.ty = tyIDAT).getD cs.length
          let wrong : Option DErr := (cs.zipIdx.drop 1).findSome? fun e =>
            let x := e.1
            let n := e.2
            let er := fun (st : Status) (o : Nat) => some ({ st := st, off := o, pos := hdrPos n } : DErr)
            if critical x.ty ∧ x.ty ≠ tyPLTE ∧ x.ty ≠ tyIDAT ∧ x.ty ≠ tyIEND then
              (if x.ty = tyIHDR then er 0x0202 (x.at_ - 8) else er 0x0201 (x.at_ - 8))
            else if x.ty = tyPLTE then
              (if !chunkWhole x then er 0x020B (x.at_ - 8)
               else if x.len % 3 ≠ 0 ∨ x.len = 0 ∨ 768 < x.len ∨ c = 0 ∨ c = 4 ∨ firstIdat < n ∨ (c = 3 ∧ 3 * 2 ^ d < x.len) then er 0x0202 (x.at_ - 8)
               else if !x.crcOk then er 0x020E (x.at_ + x.len) else none)
            else if x.ty = tyTRNS ∧ n < firstIdat then
              (if !chunkWhole x then er 0x020B (x.at_ - 8)
               else if (c = 0 ∧ x.len ≠ 2) ∨ (c = 2 ∧ x.len ≠ 6) ∨ (c = 3 ∧ 256 < x.len) ∨ c = 4 ∨ c = 6 then er 0x0202 (x.at_ - 8) else none)
            else if !chunkWhole x ∧ x.ty ≠ tyIDAT ∧ n < firstIdat then er 0x020B (x.at_ - 8)
            else none
          match wrong with
          | some e => .error e
          | none =>
            let pl := cs.find? fun x => x.ty = tyPLTE
            let tr := (cs.take firstIdat).find? fun x => x.ty = tyTRNS
            if c = 3 ∧ pl.isNone then bad 0x0202 8 0
            else if firstIdat = cs.length ∧ !(cs.any fun x => x.ty = tyIEND) then bad 0x020B a.size cs.length
            else if !idatRun cs then
              let p := ((cs.zipIdx.filter fun e => e.1.ty = tyIDAT).getLast?).map fun e => (e.1.at_ - 8, e.2)
              bad 0x0202 (p.getD (8, 0)).1 (p.getD (8, 0)).2
            else
              let last := cs.getLast?.getD h
              .ok {
                w := w, h := hh, depth := d, color := c, inter := ab a (h.at_ + 12) = 1
                plte := (pl.map fun x => a.extract x.at_ (x.at_ + x.len)).getD #[]
                trns := tr.map fun x => a.extract x.at_ (x.at_ + x.len)
                chunks := cs
                ancBad := cs.any fun x => !critical x.ty && chunkWhole x && !x.crcOk
                trailing := last.ty = tyIEND && decide (last.at_ + last.len + 4 < a.size) }

/-- Passes of an image: first column and row, and steps (Adam7, or the whole image). -/
def pngPasses (inter : Bool) : List (Nat × Nat × Nat × Nat) :=
  if inter then [(0, 0, 8, 8), (4, 0, 8, 8), (0, 4, 4, 8), (2, 0, 4, 4), (0, 2, 2, 4), (1, 0, 2, 2), (0, 1, 1, 2)] else [(0, 0, 1, 1)]
/-- Width and height of a pass. -/
def passSize (w h : Nat) (p : Nat × Nat × Nat × Nat) : Nat × Nat :=
  (if w ≤ p.1 then 0 else ceilDiv (w - p.1) p.2.2.1, if h ≤ p.2.1 then 0 else ceilDiv (h - p.2.1) p.2.2.2)
/-- Bits of a pixel as stored. -/
def pngBits (p : PngHdr) : Nat := pngChans p.color * p.depth
/-- Filtered bytes of the image, F of R240. -/
def pngF (p : PngHdr) : Nat :=
  (pngPasses p.inter).foldl (fun t q =>
    let z := passSize p.w p.h q
    if z.1 = 0 then t else t + z.2 * (1 + ceilDiv (z.1 * pngBits p) 8)) 0
/-- NATIVE of a PNG: code where it has one, and bytes per element (R238). -/
def pngNative (p : PngHdr) : Option Nat × Nat :=
  if p.color = 3 then (if p.trns.isSome then (some 3, 4) else (some 2, 3))
  else if p.depth < 16 then
    (if p.color = 0 then (some 1, 1) else if p.color = 2 then (some 2, 3) else if p.color = 6 then (some 3, 4) else (none, 2))
  else (if p.color = 2 then (some 4, 6) else if p.color = 6 then (some 5, 8) else if p.color = 0 then (none, 2) else (none, 4))
/-- Plan of a PNG. -/
def pngPlan (p : PngHdr) (fmt : Nat) : Plan :=
  let nat := pngNative p
  {
    elements := p.w * p.h, width := p.w, height := p.h, comps := pngChans p.color, depth := p.depth
    outFmt := if fmt = 0 then nat.1 else some fmt
    elemBytes := if fmt = 0 then nat.2 else fmtElem fmt
    rows := p.h, rowElems := p.w
    least := ceilDiv (pngF p) 1032 + 6
    have_ := (p.chunks.filter fun c => c.ty = tyIDAT).foldl (fun t c => t + c.len) 0
    flags := (if p.inter then 2 else 0) + (if p.trailing then 8 else 0) + (if p.ancBad then 16 else 0) }

/-- Paeth predictor (ISO/IEC 15948). -/
def paeth (a b c : Nat) : Nat :=
  let p : Int := a + b - c
  let pa := (p - a).natAbs
  let pb := (p - b).natAbs
  let pc := (p - c).natAbs
  if pa ≤ pb ∧ pa ≤ pc then a else if pb ≤ pc then b else c
/-- Undo a filter on one row: `up` is the row above as reconstructed, `bpp` the filter's byte distance. -/
def unfilter (ty bpp : Nat) (row up : Array Byte) : Array Byte :=
  row.foldl (fun acc x =>
    let i := acc.size
    let l := if i < bpp then 0 else ab acc (i - bpp)
    let u := ab up i
    let c := if i < bpp then 0 else ab up (i - bpp)
    let p := if ty = 1 then l else if ty = 2 then u else if ty = 3 then (l + u) / 2 else if ty = 4 then paeth l u c else 0
    acc.push (x + BitVec.ofNat 8 p)) #[]
/-- Sample k of a row at a depth. -/
def rowSample (row : Array Byte) (depth k : Nat) : Nat :=
  if depth = 16 then aBe row (2 * k) 2
  else if depth = 8 then ab row k
  else ab row (k * depth / 8) / 2 ^ (8 - depth - k * depth % 8) % 2 ^ depth
/-- Widen a sample below 8 bits by bit replication (R238). -/
def widen (depth v : Nat) : Nat := if depth = 1 then 255 * v else if depth = 2 then 85 * v else if depth = 4 then 17 * v else v
/-- Pixel x of a reconstructed row. -/
def pngPix (p : PngHdr) (row : Array Byte) (x : Nat) : Pix :=
  let n := pngChans p.color
  let s := fun k => rowSample row p.depth (n * x + k)
  let wide := p.depth = 16
  let top := if wide then 65535 else 255
  let v := fun k => if p.color = 0 then widen p.depth (s k) else s k
  match p.color with
  | 3 =>
    let i := s 0
    -- an index beyond the palette has no stated colour (log 4)
    let c := fun k => if 3 * i + k < p.plte.size then ab p.plte (3 * i + k) else (Config.freeByte (3 * i + k)).toNat
    { grey := false, wide := false, r := c 0, g := c 1, b := c 2, a := p.trns.map fun t => if i < t.size then ab t i else 255 }
  | 0 => { grey := true, wide := wide, r := v 0, a := p.trns.map fun t => if s 0 = aBe t 0 2 % 2 ^ p.depth then 0 else top }
  | 2 =>
    { grey := false, wide := wide, r := v 0, g := v 1, b := v 2,
      a := p.trns.map fun t => if s 0 = aBe t 0 2 ∧ s 1 = aBe t 2 2 ∧ s 2 = aBe t 4 2 then 0 else top }
  | 4 => { grey := true, wide := wide, r := v 0, a := some (v 1) }
  | _ => { grey := false, wide := wide, r := v 0, g := v 1, b := v 2, a := some (v 3) }
/-- Bytes of a pixel in the chosen format, NATIVE included (R238). -/
def pngOutPix (p : PngHdr) (fmt : Nat) (x : Pix) : Bytes :=
  if fmt ≠ 0 then pixBytes fmt x
  else match (pngNative p).1 with
    | some f => pixBytes f x
    | none => if p.color = 0 then sampBytes x.wide x.r else sampBytes x.wide x.r ++ sampBytes x.wide (x.a.getD 0)

/-- Progress of the image data of a PNG. -/
structure PngRun where
  /-- Pixels' output bytes by y * W + x. -/
  cells : Array Bytes
  last : Array Byte := #[]
  good : Array Byte := #[]
  u : Nat := 0
  units : Nat := 0
  stop : Bool := false
/-- A row of the inflated data: pass, row, pass geometry, width, offset. -/
structure PngRow where
  pass : Nat
  row : Nat
  geo : Nat × Nat × Nat × Nat
  width : Nat
  off : Nat
/-- All rows in order. -/
def pngRows (p : PngHdr) : List PngRow :=
  ((pngPasses p.inter).zipIdx.foldl (fun (acc : List PngRow × Nat) e =>
    let z := passSize p.w p.h e.1
    let rb := 1 + ceilDiv (z.1 * pngBits p) 8
    if z.1 = 0 then acc
    else (acc.1 ++ (List.range z.2).map (fun r => { pass := if p.inter then e.2 + 1 else 0, row := r, geo := e.1, width := z.1, off := acc.2 + r * rb }),
      acc.2 + z.2 * rb)) ([], 0)).1

/-- Decode the image data of a PNG (R241, R244, R248-R250). -/
def pngDecode (a : Arr) (p : PngHdr) (fmt cmax : Nat) : ImgOut :=
  let idats := p.chunks.filter fun c => c.ty = tyIDAT
  -- the zlib stream and, for each of its bytes, the file offset and the IDAT chunk it came from
  let data := idats.foldl (fun (d : Arr) c => d ++ a.extract c.at_ (c.at_ + c.have_)) #[]
  let starts := (idats.foldl (fun (acc : List (Nat × Chunk) × Nat) c => (acc.1 ++ [(acc.2, c)], acc.2 + c.have_)) ([], 0)).1
  let chunkAt := fun i => (starts.filter fun s => decide (s.1 ≤ i ∧ i < s.1 + s.2.have_)).head?
  let fileOff := fun i => match chunkAt i with
    | some s => s.2.at_ + (i - s.1)
    | none => (idats.getLast?.map fun c => c.at_ + c.have_).getD 0
  let F := pngF p
  let zh := zlibHeader data 0 data.size
  let inf : Inf := match zh with
    | some 0x020B => { pos := 0, err := some (0x020B, 0) }
    | some _ => { pos := 0, err := some (0x020C, 0) }
    | none => inflateAt data 2 data.size (max F data.size * 1100) { pos := 0 }
  let rows := pngRows p
  let rowOf := fun o => (rows.find? fun r => decide (r.off ≤ o ∧ o < r.off + 1 + ceilDiv (r.width * pngBits p) 8)).getD
    (rows.getLast?.getD { pass := 0, row := 0, geo := (0, 0, 1, 1), width := 0, off := 0 })
  let posOf := fun (r : PngRow) => r.pass * 2 ^ 32 + r.row
  -- stream ends early: by an error, or by its end before the image is full
  let short := inf.out.size < F
  let infE : Option DErr := match inf.err with
    | some e => some { st := e.1, off := fileOff (e.2 / 8), pos := posOf (rowOf inf.out.size), bit := e.2 % 8 }
    | none => if short then some { st := 0x020B, off := fileOff (infEnd inf), pos := posOf (rowOf inf.out.size), bit := 0 } else none
  let badChunks := starts.filter fun s => chunkWhole s.2 && !s.2.crcOk
  let hitBy := fun (s : Nat × Chunk) (o : Nat) => let q := inf.src.getD o 0; decide (s.1 ≤ q ∧ q < s.1 + s.2.have_)
  let bpp := max 1 (pngBits p / 8)
  let rbOf := fun (r : PngRow) => ceilDiv (r.width * pngBits p) 8
  let crcE := badChunks.map fun s =>
    let o := ((List.range (min F inf.out.size)).filter fun o => hitBy s o).getLast?.getD 0
    ({ st := 0x020E, off := s.2.at_ + s.2.len, pos := posOf (rowOf o) } : DErr)
  let filtE := rows.filterMap fun r =>
    if r.off < inf.out.size ∧ 4 < ab inf.out r.off then
      some ({ st := 0x020F, off := fileOff (inf.src.getD r.off 0), pos := posOf r } : DErr)
    else none
  let errs := (match infE with
    | some e => [e]
    | none => []) ++ crcE ++ filtE
  let first := errs.foldl (fun (b : Option DErr) e => match b with
    | none => some e
    | some x => if e.off < x.off then some e else b) none
  let tail : Option DErr :=
    if errs.isEmpty then
      let e := infEnd inf
      if data.size < e + 4 then some { st := 0x020B, off := fileOff e, pos := posOf (rowOf (F - 1)) }
      else if aBe data e 4 ≠ adler32 inf.out.toList then some { st := 0x020D, off := fileOff e, pos := posOf (rowOf (F - 1)) }
      else (p.chunks.find? fun c => c.ty = tyIEND && chunkWhole c && !c.crcOk).map fun c => { st := 0x020E, off := c.at_ + c.len, pos := posOf (rowOf (F - 1)) }
    else none
  -- a stream cut inside its check value damages no row
  let first := match tail with
    | some e => if e.st = 0x020B then some e else first
    | none => first
  match first, cmax with
  | some e, 0 => { err := some e, fail := some e.st }
  | _, _ =>
    match tail.filter fun e => e.st ≠ 0x020B with
    | some e => { err := some e, fail := some e.st }
    | none =>
      let damaged := fun (r : PngRow) =>
        decide (inf.out.size < r.off + 1 + rbOf r) || decide (4 < ab inf.out r.off) ||
        badChunks.any fun s => (List.range (1 + rbOf r)).any fun k => hitBy s (r.off + k)
      let run := rows.foldl (fun (x : PngRun) r =>
        if x.stop then x
        else
          let x := if r.row = 0 then { x with last := #[], good := #[] } else x
          let bad := damaged r
          let row := if bad then (if x.good.size = 0 then (zeros (rbOf r)).toArray else x.good)
            else unfilter (ab inf.out r.off) bpp (inf.out.extract (r.off + 1) (r.off + 1 + rbOf r)) x.last
          let u := if bad then x.u + r.width else x.u
          let y := r.geo.2.1 + r.row * r.geo.2.2.2
          let cells := (List.range r.width).foldl (fun (c : Array Bytes) k =>
            c.setIfInBounds (y * p.w + (r.geo.1 + k * r.geo.2.2.1)) (pngOutPix p fmt (pngPix p row k))) x.cells
          { cells := cells, last := row, good := if bad then x.good else row, u := u,
            units := if bad then x.units + 1 else x.units, stop := decide (cmax < concealOf u (p.w * p.h)) })
        { cells := Array.replicate (p.w * p.h) [] }
      let c := concealOf run.u (p.w * p.h)
      if cmax < c then { err := first, fail := some 0x0210, conceal := c, units := run.units }
      else {
        data := (run.cells.toList.flatMap id).toArray, err := first, conceal := c, units := run.units
        flags := if run.u = 0 then 0 else 4 }

end Sys2Proof.Machine
end

