-- ==== Sys2Proof/Machine/Jpeg.lean ====
section
/-! DEFINITION. The JPEG decoder (R231, R239, R240, R244-R250): marker segments, Huffman-coded sequential and progressive scans, concealment by restart intervals, the exactly rounded inverse DCT and colour conversion. -/

namespace Sys2Proof.Machine

/-! ## Header (R231, R239 step 1) -/

/-- A Huffman table of a JPEG: codes of each length 1 to 16, symbols in code order. -/
structure JHuff where
  count : Array Nat := #[]
  syms : Array Nat := #[]
  /-- A table was defined here. -/
  set : Bool := false
/-- A frame component. -/
structure JComp where
  id : Nat
  h : Nat
  v : Nat
  tq : Nat
/-- A frame. -/
structure JFrame where
  prog : Bool
  x : Nat
  y : Nat
  comps : List JComp
/-- A scan header. -/
structure JScanHdr where
  /-- Component index in the frame, DC table, AC table. -/
  comps : List (Nat × Nat × Nat)
  ss : Nat
  se : Nat
  ah : Nat
  al : Nat
  /-- Where the entropy-coded data begins. -/
  data : Nat
/-- Tables and frame gathered from marker segments. -/
structure JTabs where
  qt : Array (Array Nat) := #[#[], #[], #[], #[]]
  dc : Array JHuff := #[{}, {}, {}, {}]
  ac : Array JHuff := #[{}, {}, {}, {}]
  ri : Nat := 0
  frame : Option JFrame := none
  rgb : Bool := false
  /-- Marker segments read so far. -/
  segs : Nat := 0

/-- What the marker reader stops at. -/
inductive JStop where
  | sos (t : JTabs) (at_ : Nat) (h : JScanHdr)
  | eoi (t : JTabs) (end_ : Nat)
  | none (t : JTabs)
  | err (e : DErr)

/-- Natural position of zigzag index k. -/
def zigzag : Array Nat :=
  #[0, 1, 8, 16, 9, 2, 3, 10, 17, 24, 32, 25, 18, 11, 4, 5, 12, 19, 26, 33, 40, 48, 41, 34, 27, 20, 13, 6, 7, 14, 21, 28, 35, 42, 49, 56,
    57, 50, 43, 36, 29, 22, 15, 23, 30, 37, 44, 51, 58, 59, 52, 45, 38, 31, 39, 46, 53, 60, 61, 54, 47, 55, 62, 63]
/-- Quantization tables of a DQT segment in `[i, j)`. -/
def jDqt (a : Arr) : Nat → Nat → Nat → Array (Array Nat) → Option (Array (Array Nat))
  | 0, _, _, _ => none
  | f + 1, i, j, qt =>
    if i = j then some qt
    else
      let pq := ab a i / 16
      let tq := ab a i % 16
      let n := if pq = 0 then 64 else 128
      if 1 < pq ∨ 3 < tq ∨ j < i + 1 + n then none
      else
        let q := (List.range 64).map fun k => if pq = 0 then ab a (i + 1 + k) else aBe a (i + 1 + 2 * k) 2
        if q.any (· = 0) then none else jDqt a f (i + 1 + n) j (qt.setIfInBounds tq q.toArray)
/-- Huffman tables of a DHT segment in `[i, j)`. -/
def jDht (a : Arr) : Nat → Nat → Nat → Array JHuff × Array JHuff → Option (Array JHuff × Array JHuff)
  | 0, _, _, _ => none
  | f + 1, i, j, t =>
    if i = j then some t
    else
      let tc := ab a i / 16
      let th := ab a i % 16
      if 1 < tc ∨ 3 < th ∨ j < i + 17 then none
      else
        let ns := (List.range 16).map fun k => ab a (i + 1 + k)
        let n := ns.foldl (· + ·) 0
        let left := ns.foldl (fun (t : Int × Bool) (c : Nat) => let l := 2 * t.1 - (c : Int); (l, t.2 && decide (0 ≤ l))) ((1 : Int), true)
        if 256 < n ∨ j < i + 17 + n ∨ !left.2 then none
        else
          let h : JHuff := { count := (0 :: ns).toArray, syms := ((List.range n).map fun k => ab a (i + 17 + k)).toArray, set := true }
          jDht a f (i + 17 + n) j (if tc = 0 then (t.1.setIfInBounds th h, t.2) else (t.1, t.2.setIfInBounds th h))
/-- No number stands twice in a list. -/
def distinct : List Nat → Bool
  | [] => true
  | x :: r => !r.contains x && distinct r
/-- Frame header of a SOF0, SOF1 or SOF2 segment with data in `[i, j)`: a status or the frame. -/
def jSof (a : Arr) (i j : Nat) (prog : Bool) : Except Status JFrame :=
  if j < i + 6 then .error 0x0202
  else
    let p := ab a i
    let y := aBe a (i + 1) 2
    let x := aBe a (i + 3) 2
    let n := ab a (i + 5)
    if p = 12 then .error 0x0201
    else if p ≠ 8 ∨ x = 0 ∨ n = 0 ∨ j ≠ i + 6 + 3 * n then .error 0x0202
    else if y = 0 ∨ (n ≠ 1 ∧ n ≠ 3) then .error 0x0201
    else
      let cs := (List.range n).map fun k =>
        ({ id := ab a (i + 6 + 3 * k), h := ab a (i + 7 + 3 * k) / 16, v := ab a (i + 7 + 3 * k) % 16, tq := ab a (i + 8 + 3 * k) } : JComp)
      if cs.any (fun c => c.h = 0 || c.v = 0 || decide (4 < c.h) || decide (4 < c.v) || decide (3 < c.tq)) ∨ !distinct (cs.map fun c => c.id) then .error 0x0202
      else if cs.any (fun c => decide (2 < c.h) || decide (2 < c.v)) then .error 0x0201
      else .ok { prog := prog, x := x, y := y, comps := cs }
/-- Scan header of an SOS segment with data in `[i, j)`. -/
def jSos (a : Arr) (t : JTabs) (fr : JFrame) (i j : Nat) : Option JScanHdr :=
  let n := ab a i
  if n = 0 ∨ 4 < n ∨ j ≠ i + 4 + 2 * n then none
  else
    let cs : List (Nat × Nat × Nat) := (List.range n).map fun k =>
      ((fr.comps.findIdx? fun c => c.id = ab a (i + 1 + 2 * k)).getD 99, ab a (i + 2 + 2 * k) / 16, ab a (i + 2 + 2 * k) % 16)
    let ss := ab a (i + 1 + 2 * n)
    let se := ab a (i + 2 + 2 * n)
    let ah := ab a (i + 3 + 2 * n) / 16
    let al := ab a (i + 3 + 2 * n) % 16
    let okBand := if fr.prog then
        decide (ss ≤ se ∧ se ≤ 63) && (ss ≠ 0 || se = 0) && (ss = 0 || n = 1) && decide (al ≤ 13) && (ah = 0 || ah = al + 1)
      else ss = 0 && se = 63 && ah = 0 && al = 0
    let needDc := ss = 0 && ah = 0
    let needAc := !fr.prog || ss ≠ 0
    let okTab := cs.all fun c =>
      c.1 ≠ 99 && decide (c.2.1 < 4 ∧ c.2.2 < 4) && (!needDc || (t.dc.getD c.2.1 {}).set) && (!needAc || (t.ac.getD c.2.2 {}).set) &&
      (t.qt.getD ((fr.comps.map (·.tq)).getD c.1 0) #[]).size = 64
    let units : Nat := cs.foldl (fun (u : Nat) c => match fr.comps[c.1]? with
      | some k => u + k.h * k.v
      | none => u) 0
    if okBand && okTab && distinct (cs.map fun c => c.1) && (n = 1 || decide (units ≤ 10)) then some { comps := cs, ss := ss, se := se, ah := ah, al := al, data := j } else none

/-- Read marker segments from `i` up to an SOS, EOI or the end of the input. -/
def jSegs (a : Arr) : Nat → Nat → JTabs → JStop
  | 0, _, t => .none t
  | f + 1, i, t =>
    let er := fun (st : Status) => JStop.err { st := st, off := i, pos := hdrPos t.segs }
    if a.size < i + 2 then .none t
    else if ab a i ≠ 0xFF then er 0x0202
    else
      let m := ab a (i + 1)
      if m = 0xFF then jSegs a f (i + 1) t
      else if m = 0xD9 then .eoi t (i + 2)
      else if m = 0x01 then jSegs a f (i + 2) t
      else if m = 0 ∨ (0xD0 ≤ m ∧ m ≤ 0xD8) then er 0x0202
      else if a.size < i + 4 then er 0x020B
      else
        let d := i + 4
        let e := i + 2 + aBe a (i + 2) 2
        if aBe a (i + 2) 2 < 2 then er 0x0202
        else if a.size < e then er 0x020B
        else
          let t1 := { t with segs := t.segs + 1 }
          if m = 0xDB then
            match jDqt a 70 d e t.qt with
            | some q => jSegs a f e { t1 with qt := q }
            | none => er 0x0202
          else if m = 0xC4 then
            match jDht a 5000 d e (t.dc, t.ac) with
            | some h => jSegs a f e { t1 with dc := h.1, ac := h.2 }
            | none => er 0x0202
          else if m = 0xDD then
            if e ≠ d + 2 then er 0x0202 else jSegs a f e { t1 with ri := aBe a d 2 }
          else if m = 0xC0 ∨ m = 0xC1 ∨ m = 0xC2 then
            if t.frame.isSome then er 0x0202
            else match jSof a d e (m = 0xC2) with
              | .ok fr => jSegs a f e { t1 with frame := some fr }
              | .error st => er st
          else if m = 0xDA then
            match t.frame with
            | none => er 0x0202
            | some fr =>
              match jSos a t fr d e with
              | some h => .sos t1 i h
              | none => er 0x0202
          else if m = 0xEE then
            let adobe := decide (e ≥ d + 12) && aSub a d (d + 5) = ascii "Adobe"
            jSegs a f e { t1 with rgb := if adobe then ab a (d + 11) = 0 else t.rgb }
          else if (0xE0 ≤ m ∧ m ≤ 0xEF) ∨ m = 0xFE then jSegs a f e t1
          else er 0x0201
/-- Parse the header of a JPEG up to its first scan. -/
def jParse (a : Arr) : JStop :=
  if a.size < 2 then .err { st := 0x020B, off := 0, pos := hdrPos 0 }
  else if aBe a 0 2 ≠ 0xFFD8 then .err { st := 0x0202, off := 0, pos := hdrPos 0 }
  else match jSegs a a.size 2 {} with
    | .eoi t e => .err { st := 0x0202, off := e - 2, pos := hdrPos t.segs }
    | .none t => .err { st := 0x020B, off := a.size, pos := hdrPos t.segs }
    | x => x

/-! ## Geometry -/

/-- Largest sampling factors. -/
def jHmax (fr : JFrame) : Nat := fr.comps.foldl (fun m c => max m c.h) 1
def jVmax (fr : JFrame) : Nat := fr.comps.foldl (fun m c => max m c.v) 1
/-- Blocks of a component across and down (R240). -/
def jGrid (fr : JFrame) (c : JComp) : Nat × Nat :=
  (ceilDiv (ceilDiv (fr.x * c.h) (jHmax fr)) 8, ceilDiv (ceilDiv (fr.y * c.v) (jVmax fr)) 8)
/-- MCUs of an interleaved scan across and down. -/
def jMcus (fr : JFrame) : Nat × Nat := (ceilDiv fr.x (8 * jHmax fr), ceilDiv fr.y (8 * jVmax fr))
/-- Blocks across and down of a component's padded grid. -/
def jPad (fr : JFrame) (c : JComp) : Nat × Nat := ((jMcus fr).1 * c.h, (jMcus fr).2 * c.v)
/-- BL of R240. -/
def jBl (fr : JFrame) : Nat := fr.comps.foldl (fun t c => t + (jGrid fr c).1 * (jGrid fr c).2) 0
/-- Plan of a JPEG; `sos` is the offset of its first SOS marker. -/
def jPlan (a : Arr) (fr : JFrame) (sos fmt : Nat) : Plan :=
  let f := if fmt = 0 then (if fr.comps.length = 1 then 1 else 2) else fmt
  {
    elements := fr.x * fr.y, width := fr.x, height := fr.y, comps := fr.comps.length, depth := 8
    outFmt := some f, elemBytes := fmtElem f, rows := fr.y, rowElems := fr.x
    least := ceilDiv ((if fr.prog then 1 else 2) * jBl fr) 8, have_ := a.size - sos
    flags := if fr.prog then 1 else 0 }

/-! ## Entropy-coded data -/

/-- A bit position: byte, and bit counted from the most significant. -/
structure BP where
  p : Nat
  b : Nat := 0
/-- A failure while decoding: status and where the failing code began. -/
abbrev JM := Except (Status × BP)
/-- One bit with stuffing removed; a marker or the end of the input stops the data. -/
def jBit (a : Arr) (at_ x : BP) : JM (Nat × BP) :=
  if a.size ≤ x.p then .error (0x020B, at_)
  else
    let v := ab a x.p
    if v = 0xFF ∧ ab a (x.p + 1) ≠ 0 then
      -- an RST marker inside an interval is out of sequence; any other marker ends the data (log 25)
      .error (if x.p + 1 < a.size ∧ 0xD0 ≤ ab a (x.p + 1) ∧ ab a (x.p + 1) ≤ 0xD7 then 0x020A else 0x020B, at_)
    else if v = 0xFF ∧ a.size ≤ x.p + 1 then .error (0x020B, at_)
    else
      let bit := v / 2 ^ (7 - x.b) % 2
      .ok (bit, if x.b = 7 then { p := x.p + (if v = 0xFF then 2 else 1) } else { x with b := x.b + 1 })
/-- n bits, first bit most significant. -/
def jBits (a : Arr) (at_ : BP) : Nat → BP → Nat → JM (Nat × BP)
  | 0, x, v => .ok (v, x)
  | n + 1, x, v => do
    let r ← jBit a at_ x
    jBits a at_ n r.2 (2 * v + r.1)
/-- One Huffman symbol; a code that is not in the table is ENTROPY_INVALID (R247). -/
def jSymGo (a : Arr) (h : JHuff) (at_ : BP) : Nat → Nat → BP → Nat → Nat → Nat → JM (Nat × BP)
  | 0, _, _, _, _, _ => .error (0x0208, at_)
  | f + 1, len, x, code, first, index => do
    let r ← jBit a at_ x
    let code := 2 * code + r.1
    let n := h.count.getD len 0
    if code < first + n then pure (h.syms.getD (index + (code - first)) 0, r.2)
    else jSymGo a h at_ f (len + 1) r.2 code (2 * (first + n)) (index + n)
/-- One Huffman symbol. -/
def jSym (a : Arr) (h : JHuff) (x : BP) : JM (Nat × BP) := jSymGo a h x 16 1 x 0 0 0
/-- EXTEND of ISO/IEC 10918-1. -/
def jExtend (v n : Nat) : Int := if n = 0 then 0 else if v < 2 ^ (n - 1) then (v : Int) - 2 ^ n + 1 else v
/-- A difference or coefficient of n bits. -/
def jReceive (a : Arr) (at_ x : BP) (n : Nat) : JM (Int × BP) := do
  let r ← jBits a at_ n x 0
  pure (jExtend r.1 n, r.2)

/-- A block: 64 coefficients in natural order. -/
abbrev Blk := Array Int
/-- The zero block. -/
def blk0 : Blk := Array.replicate 64 0
/-- DC difference of a block: the new predictor. -/
def jDc (a : Arr) (h : JHuff) (pred : Int) (x : BP) : JM (Int × BP) := do
  let s ← jSym a h x
  if 11 < s.1 then .error (0x0209, x)
  let d ← jReceive a x s.2 s.1
  pure (pred + d.1, d.2)
/-- AC coefficients of a sequential block from index k. -/
def jAcSeq (a : Arr) (h : JHuff) : Nat → Nat → Blk → BP → JM (Blk × BP)
  | 0, _, b, x => .ok (b, x)
  | f + 1, k, b, x =>
    if 63 < k then .ok (b, x)
    else do
      let s ← jSym a h x
      let r := s.1 / 16
      let n := s.1 % 16
      if n = 0 then
        if r = 0 then pure (b, s.2)
        else if r = 15 ∧ k + 15 ≤ 63 then jAcSeq a h f (k + 16) b s.2
        else .error (0x0209, x)
      else if 10 < n ∨ 63 < k + r then .error (0x0209, x)
      else
        let v ← jReceive a x s.2 n
        jAcSeq a h f (k + r + 1) (b.setIfInBounds (zigzag.getD (k + r) 0) v.1) v.2
/-- AC coefficients of a first progressive scan: block, EOB run left, position. -/
def jAcFirst (a : Arr) (h : JHuff) (se al : Nat) : Nat → Nat → Blk → BP → JM (Blk × Nat × BP)
  | 0, _, b, x => .ok (b, 0, x)
  | f + 1, k, b, x =>
    if se < k then .ok (b, 0, x)
    else do
      let s ← jSym a h x
      let r := s.1 / 16
      let n := s.1 % 16
      if n = 0 then
        if r = 15 then
          if k + 15 ≤ 63 then jAcFirst a h se al f (k + 16) b s.2 else .error (0x0209, x)
        else
          let e ← jBits a x r s.2 0
          pure (b, 2 ^ r + e.1 - 1, e.2)
      else if 10 < n ∨ 63 < k + r then .error (0x0209, x)
      else
        let v ← jReceive a x s.2 n
        jAcFirst a h se al f (k + r + 1) (b.setIfInBounds (zigzag.getD (k + r) 0) (v.1 * 2 ^ al)) v.2
/-- Correction bit of a coefficient with history. -/
def jCorrect (al : Nat) (v : Int) (bit : Nat) : Int := if bit = 0 then v else if v < 0 then v - 2 ^ al else v + 2 ^ al
/-- Skip `r` coefficients without history in a refinement scan, correcting those with history on the way: block, index reached, position. -/
def jSkip (a : Arr) (se al : Nat) (at_ : BP) : Nat → Nat → Nat → Blk → BP → JM (Blk × Nat × BP)
  | 0, k, _, b, x => .ok (b, k, x)
  | f + 1, k, r, b, x =>
    if se < k then .ok (b, k, x)
    else
      let z := zigzag.getD k 0
      let v := b.getD z 0
      if v = 0 then
        if r = 0 then .ok (b, k, x) else jSkip a se al at_ f (k + 1) (r - 1) b x
      else do
        let c ← jBit a at_ x
        jSkip a se al at_ f (k + 1) r (b.setIfInBounds z (jCorrect al v c.1)) c.2
/-- Correct every coefficient with history from k on (an end-of-band block). -/
def jSweep (a : Arr) (se al : Nat) (k : Nat) (b : Blk) (x : BP) : JM (Blk × BP) := do
  let r ← jSkip a se al x 65 k 64 b x
  pure (r.1, r.2.2)
/-- AC refinement of one block. -/
def jAcRefine (a : Arr) (h : JHuff) (se al : Nat) : Nat → Nat → Blk → BP → JM (Blk × Nat × BP)
  | 0, _, b, x => .ok (b, 0, x)
  | f + 1, k, b, x =>
    if se < k then .ok (b, 0, x)
    else do
      let s ← jSym a h x
      let r := s.1 / 16
      let n := s.1 % 16
      if n = 0 ∧ r < 15 then
        let e ← jBits a x r s.2 0
        let w ← jSweep a se al k b e.2
        pure (w.1, 2 ^ r + e.1 - 1, w.2)
      else if 1 < n then .error (0x0209, x)
      else
        let sg ← if n = 1 then jBit a x s.2 else pure (0, s.2)
        let w ← jSkip a se al x 65 k r b sg.2
        if n = 0 then jAcRefine a h se al f (w.2.1 + 1) w.1 w.2.2
        else if se < w.2.1 then .error (0x0209, x)
        else
          jAcRefine a h se al f (w.2.1 + 1) (w.1.setIfInBounds (zigzag.getD w.2.1 0) (if sg.1 = 1 then 2 ^ al else -(2 ^ al))) w.2.2

/-! ## Scans with concealment (R247, R249, R250) -/

/-- Coefficients and marks of the image, by component and block of its padded grid. -/
structure JImg where
  coef : Array (Array Blk)
  /-- AC coefficients lost in an AC scan. -/
  dead : Array (Array Bool)
  /-- Concealed in some scan. -/
  conc : Array (Array Bool)
  /-- Quantization table of each component, as its first scan found it. -/
  qts : Array (Array Nat)
  u : Nat := 0
  first : Option DErr := none
  stop : Bool := false
/-- Progress within a scan. -/
structure JRun where
  img : JImg
  pred : Array Int
  eob : Nat := 0
  bp : BP
  mcu : Nat := 0
  /-- Decoding has just resumed at this interval: its marker is behind. -/
  fresh : Bool := true
  /-- The scan ended in damage: the marker it resumes at, or none. -/
  ended : Option (Option Nat) := none

/-- Blocks of MCU m of a scan: component's place in the scan, component, block index in the padded grid, within the real grid. -/
def jMcuBlocks (fr : JFrame) (h : JScanHdr) (m : Nat) : List (Nat × Nat × Nat × Bool) :=
  h.comps.zipIdx.flatMap fun e =>
    match fr.comps[e.1.1]? with
    | none => []
    | some c =>
      let g := jGrid fr c
      let w := (jPad fr c).1
      if h.comps.length = 1 then [(e.2, e.1.1, m / g.1 * w + m % g.1, true)]
      else
        let mx := (jMcus fr).1
        (List.range (c.h * c.v)).map fun k =>
          let bx := m % mx * c.h + k % c.h
          let by_ := m / mx * c.v + k / c.h
          (e.2, e.1.1, by_ * w + bx, decide (bx < g.1 ∧ by_ < g.2))
/-- MCUs of a scan. -/
def jMcuCount (fr : JFrame) (h : JScanHdr) : Nat :=
  match h.comps with
  | [c] => match fr.comps[c.1]? with
    | some k => (jGrid fr k).1 * (jGrid fr k).2
    | none => 0
  | _ => (jMcus fr).1 * (jMcus fr).2
/-- Block b of component c. -/
def jBlk (i : JImg) (c b : Nat) : Blk := (i.coef.getD c #[]).getD b blk0
/-- Store a block. -/
def jPut (i : JImg) (c b : Nat) (v : Blk) : JImg := { i with coef := i.coef.setIfInBounds c ((i.coef.getD c #[]).setIfInBounds b v) }

/-- Decode one block of a scan. -/
def jBlock (a : Arr) (t : JTabs) (prog : Bool) (h : JScanHdr) (r : JRun) (e : Nat × Nat × Nat × Bool) : JM JRun := do
  let k := h.comps.getD e.1 (0, 0, 0)
  let old := jBlk r.img e.2.1 e.2.2.1
  let dct := t.dc.getD k.2.1 {}
  let act := t.ac.getD k.2.2 {}
  if !prog then
    let d ← jDc a dct (r.pred.getD e.1 0) r.bp
    let c ← jAcSeq a act 65 1 (blk0.setIfInBounds 0 d.1) d.2
    pure { r with img := jPut r.img e.2.1 e.2.2.1 c.1, pred := r.pred.setIfInBounds e.1 d.1, bp := c.2 }
  else if h.ss = 0 then
    if h.ah = 0 then
      let d ← jDc a dct (r.pred.getD e.1 0) r.bp
      pure { r with img := jPut r.img e.2.1 e.2.2.1 (old.setIfInBounds 0 (d.1 * 2 ^ h.al)), pred := r.pred.setIfInBounds e.1 d.1, bp := d.2 }
    else
      let b ← jBit a r.bp r.bp
      let v := old.getD 0 0
      pure { r with img := jPut r.img e.2.1 e.2.2.1 (old.setIfInBounds 0 (if b.1 = 1 then v + 2 ^ h.al else v)), bp := b.2 }
  else
    let dead := (r.img.dead.getD e.2.1 #[]).getD e.2.2.1 false
    let put := fun (i : JImg) (b : Blk) => if dead then i else jPut i e.2.1 e.2.2.1 b
    if h.ah = 0 then
      if 0 < r.eob then pure { r with eob := r.eob - 1 }
      else
        let c ← jAcFirst a act h.se h.al 65 h.ss old r.bp
        pure { r with img := put r.img c.1, eob := c.2.1, bp := c.2.2 }
    else if 0 < r.eob then
      let c ← jSweep a h.se h.al h.ss old r.bp
      pure { r with img := put r.img c.1, eob := r.eob - 1, bp := c.2 }
    else
      let c ← jAcRefine a act h.se h.al 65 h.ss old r.bp
      pure { r with img := put r.img c.1, eob := c.2.1, bp := c.2.2 }
/-- Decode the blocks of an MCU; a failure tells which block failed. -/
def jMcu (a : Arr) (t : JTabs) (prog : Bool) (h : JScanHdr) : Nat → List (Nat × Nat × Nat × Bool) → JRun → Except (Status × BP × Nat) JRun
  | _, [], r => .ok r
  | n, e :: l, r =>
    match jBlock a t prog h r e with
    | .ok r1 => jMcu a t prog h (n + 1) l r1
    | .error x => .error (x.1, x.2, n)

/-- Conceal one block (R247 items 3 to 5). -/
def jConcealBlk (bl cmax : Nat) (prog : Bool) (h : JScanHdr) (pred : Array Int) (i : JImg) (e : Nat × Nat × Nat × Bool) : JImg :=
  if i.stop then i
  else
    let old := jBlk i e.2.1 e.2.2.1
    let i1 :=
      if !prog ∨ (h.ss = 0 ∧ h.ah = 0) then jPut i e.2.1 e.2.2.1 (blk0.setIfInBounds 0 (pred.getD e.1 0 * 2 ^ (if prog then h.al else 0)))
      else if h.ss = 0 then i
      else
        { jPut i e.2.1 e.2.2.1 (blk0.setIfInBounds 0 (old.getD 0 0)) with
          dead := i.dead.setIfInBounds e.2.1 ((i.dead.getD e.2.1 #[]).setIfInBounds e.2.2.1 true) }
    if !e.2.2.2 ∨ (i.conc.getD e.2.1 #[]).getD e.2.2.1 false then i1
    else
      let u := i1.u + 1
      { i1 with conc := i1.conc.setIfInBounds e.2.1 ((i1.conc.getD e.2.1 #[]).setIfInBounds e.2.2.1 true), u := u, stop := decide (cmax < concealOf u bl) }
/-- Next marker at or after byte i: its offset. -/
def jFindMarker (a : Arr) : Nat → Nat → Option Nat
  | 0, _ => none
  | f + 1, i =>
    if a.size < i + 2 then none
    else if ab a i = 0xFF ∧ ab a (i + 1) ≠ 0 ∧ ab a (i + 1) ≠ 0xFF then some i
    else jFindMarker a f (i + 1)
/-- An error at MCU m of the scan, in interval `cur` (R247). -/
def jFail (a : Arr) (fr : JFrame) (ri cmax ord : Nat) (h : JScanHdr) (r : JRun) (m cur : Nat) (st : Status) (at_ : BP) (blk : Nat) : JRun :=
  let total := jMcuCount fr h
  let e : DErr := { st := st, off := at_.p, pos := blk * 2 ^ 40 + ord * 2 ^ 32 + m, bit := 7 - at_.b }
  let img := { r.img with first := some (r.img.first.getD e) }
  if cmax = 0 then { r with img := { img with stop := true } }
  else
    let mk := jFindMarker a a.size at_.p
    let rst := mk.filter fun p => 0xD0 ≤ ab a (p + 1) ∧ ab a (p + 1) ≤ 0xD7
    let m2 := match rst with
      | some p =>
        let n := ab a (p + 1) - 0xD0
        let j := cur + (n + 8 - cur % 8) % 8
        if ri = 0 then total else min total ((j + 1) * ri)
      | none => total
    let img2 := ((List.range (m2 - m)).flatMap fun k => jMcuBlocks fr h (m + k)).foldl (jConcealBlk (jBl fr) cmax fr.prog h r.pred) img
    { r with
      img := img2, pred := r.pred.map fun _ => 0, eob := 0, mcu := m2, fresh := true
      bp := { p := match mk with
        | some p => p + 2
        | none => a.size }
      ended := if rst.isSome then none else some (mk.filter fun p => ab a (p + 1) = 0xDA) }
/-- Byte position after the padding of a partly read byte. -/
def jAlign (a : Arr) (x : BP) : Nat := if x.b = 0 then x.p else x.p + (if ab a x.p = 0xFF then 2 else 1)
/-- Skip fill bytes before a marker. -/
def jFill (a : Arr) : Nat → Nat → Nat
  | 0, i => i
  | f + 1, i => if ab a i = 0xFF ∧ ab a (i + 1) = 0xFF then jFill a f (i + 1) else i
/-- The MCUs of a scan one after another. -/
def jScanGo (a : Arr) (t : JTabs) (fr : JFrame) (cmax ord : Nat) (h : JScanHdr) : Nat → JRun → JRun
  | 0, r => r
  | f + 1, r =>
    let total := jMcuCount fr h
    if r.img.stop || r.ended.isSome || decide (total ≤ r.mcu) then r
    else if t.ri ≠ 0 ∧ r.mcu % t.ri = 0 ∧ !r.fresh then
      let p := jFill a a.size (jAlign a r.bp)
      let cur := r.mcu / t.ri - 1
      if ab a p = 0xFF ∧ ab a (p + 1) = 0xD0 + cur % 8 then
        jScanGo a t fr cmax ord h f { r with bp := { p := p + 2 }, pred := r.pred.map fun _ => 0, eob := 0, fresh := true }
      else
        let st := if a.size ≤ p then 0x020B else 0x020A
        jScanGo a t fr cmax ord h f (jFail a fr t.ri cmax ord h r r.mcu cur st { p := p } 0)
    else
      match jMcu a t fr.prog h 0 (jMcuBlocks fr h r.mcu) r with
      | .ok r1 => jScanGo a t fr cmax ord h f { r1 with mcu := r.mcu + 1, fresh := false }
      | .error e =>
        jScanGo a t fr cmax ord h f (jFail a fr t.ri cmax ord h r r.mcu (if t.ri = 0 then 0 else r.mcu / t.ri) e.1 e.2.1 e.2.2)

/-- Where the scans end. -/
structure JEnd where
  img : JImg
  fail : Option DErr := none
  trailing : Bool := false
/-- Scans and the segments between them. -/
def jScans (a : Arr) (cmax : Nat) : Nat → Nat → JImg → JStop → JEnd
  | 0, _, i, _ => { img := i }
  | f + 1, ord, i, s =>
    match s with
    | .err e => { img := { i with first := some (i.first.getD e) }, fail := some e }
    | .none _ => { img := i }
    | .eoi _ e => { img := i, trailing := decide (e < a.size) }
    | .sos t at_ h =>
      match t.frame with
      | none => { img := i }
      | some fr =>
        if 128 ≤ ord then
          let e : DErr := { st := 0x0201, off := at_, pos := hdrPos (t.segs - 1) }
          { img := { i with first := some (i.first.getD e) }, fail := some e }
        else
          let qts := h.comps.foldl (fun (q : Array (Array Nat)) c =>
            if (q.getD c.1 #[]).size = 64 then q else q.setIfInBounds c.1 (t.qt.getD ((fr.comps.map (·.tq)).getD c.1 0) #[])) i.qts
          let r := jScanGo a t fr cmax ord h (2 * jMcuCount fr h + a.size + 16)
            { img := { i with qts := qts }, pred := Array.replicate h.comps.length 0, bp := { p := h.data } }
          if r.img.stop then { img := r.img }
          else match r.ended with
            | some none => { img := r.img }
            | some (some p) => jScans a cmax f (ord + 1) r.img (jSegs a a.size p t)
            | none =>
              -- the next marker that is no restart marker
              let next := (jFindMarker a a.size (jAlign a r.bp))
              let next2 := match next with
                | some p => if 0xD0 ≤ ab a (p + 1) ∧ ab a (p + 1) ≤ 0xD7 then jFindMarker a a.size (p + 2) else some p
                | none => none
              match next2 with
              | some p => jScans a cmax f (ord + 1) r.img (jSegs a a.size p t)
              | none => { img := r.img }

/-! ## Samples (R244) -/

/-- cos(k pi / 16) for k = 0 to 7 in units of 2^-400, rounded. -/
def cosTab : List Int :=
  [0x10000000000000000000000000000000000000000000000000000000000000000000000000000000000000000000000000000,
   0xfb14be7fbae581562172a361fd2a722ec5f40e3fd8f18ae1b1997321b48e8b1b947a5373353c45a48d5b15eaa58368eeaad8,
   0xec835e79946a31457e610231ac1d6180f0a83d3cd0dae9b5db897c2384083746a6340cb65c4b11d5b1ec03e9739998c8d8c9,
   0xd4db3148750d1819f630e8b6dac83e68b4691d2f99ec9eaaac08e58a7cd395443f46de4fbafdc08bc63df891efb87d5ba56d,
   0xb504f333f9de6484597d89b3754abe9f1d6f60ba893ba84ced17ac85833399154afc83043ab8a2c3a8b1fe6fdc83db390f75,
   0x8e39d9cd73464364bba4cfecbff548677ca7d749adfba33eca996068c296fd797f9152cba72ae50cdf93eac8ec561d40eb76,
   0x61f78a9abaa58b4698916152cf7eee1bbdf1f5b4ab3de24c3a3c159062718f716d12d59bba9c48817b8a103264edaf263502,
   0x31f17078d34c156c9732300393f33613f394e58d12972f1d39438767895414c1a28fbdbe7eb1987e24859793181c371817e4]
/-- cos(m pi / 16) as a sign and a place among cos(0) to cos(7 pi / 16); place 8 is zero. -/
def cosRed (m : Nat) : Int × Nat :=
  let r := m % 32
  let r := if 16 < r then 32 - r else r
  if r ≤ 8 then (1, r) else (-1, 16 - r)
/-- The factor C(u) cos((2x + 1) u pi / 16) as a sign and a place. -/
def cosAt (u x : Nat) : Int × Nat := if u = 0 then (1, 4) else cosRed ((2 * x + 1) * u)
/-- Add v * e_k to a vector over the basis e_0 .. e_7. -/
def vAdd (t : Array Int) (k : Nat) (v : Int) : Array Int := if k = 8 then t else t.setIfInBounds k (t.getD k 0 + v)
/-- One-dimensional transform of eight integers at place x, over the basis. -/
def idct1 (s : Nat → Int) (x : Nat) : Array Int :=
  (List.range 8).foldl (fun t u => let c := cosAt u x; vAdd t c.2 (c.1 * s u)) (Array.replicate 8 0)
/-- Twice the product of a vector with one of the factors, added to `t`. -/
def vMulAdd (t v : Array Int) (c : Int × Nat) : Array Int :=
  if c.2 = 8 then t
  else (List.range 8).foldl (fun t k =>
    let n := v.getD k 0
    if n = 0 then t
    else
      let p := cosRed (k + c.2)
      let q := cosRed (if k ≤ c.2 then c.2 - k else k - c.2)
      vAdd (vAdd t p.2 (p.1 * c.1 * n)) q.2 (q.1 * c.1 * n)) t
/-- Round (sum of n_k cos(k pi / 16)) / 8 to nearest even: exact where only n_0 is there, else no tie is possible because the sum is irrational. -/
def cosRound (n : Array Int) : Int :=
  if (List.range 7).all fun k => n.getD (k + 1) 0 = 0 then rneQ (n.getD 0 0) 8
  else
    let s := (cosTab.zipIdx.foldl (fun (t : Int) e => t + e.1 * n.getD e.2 0) 0)
    (s + 2 ^ 402) / 2 ^ 403
/-- The 64 samples of a block, row by row (R244). -/
def jSamples (b : Blk) (q : Array Nat) : Array Nat :=
  let s := fun (v u : Nat) => b.getD (8 * v + u) 0 * (q.getD ((zigzag.toList.findIdx? (· = 8 * v + u)).getD 0) 0 : Int)
  let cols := (List.range 8).map fun v => (List.range 8).map fun x => idct1 (fun u => s v u) x
  ((List.range 8).flatMap fun y => (List.range 8).map fun x =>
    let t := (List.range 8).foldl (fun t v => vMulAdd t ((cols.getD v []).getD x #[]) (cosAt v y)) (Array.replicate 8 0)
    clampTo 8 (cosRound t + 128)).toArray
/-- YCbCr to RGB by ITU-T T.871, evaluated exactly (R244). -/
def yccRgb (y cb cr : Nat) : Nat × Nat × Nat :=
  let b : Int := cb - 128
  let r : Int := cr - 128
  (clampTo 8 (rneQ (1000 * y + 1402 * r) 1000),
   clampTo 8 (rneQ (587000 * y - 202008 * b - 419198 * r) 587000),
   clampTo 8 (rneQ (1000 * y + 1772 * b) 1000))
/-- Output of a decoded image in a format (R238, R244). -/
def jOutput (t : JTabs) (fr : JFrame) (img : JImg) (fmt : Nat) : Array Byte :=
  let planes := fr.comps.zipIdx.map fun e =>
    let q := img.qts.getD e.2 #[]
    ((img.coef.getD e.2 #[]).map fun b => jSamples b q, (jPad fr e.1).1, e.1)
  let at_ := fun (p : Array (Array Nat) × Nat × JComp) (x y : Nat) =>
    let sx := x * p.2.2.h / jHmax fr
    let sy := y * p.2.2.v / jVmax fr
    (p.1.getD (sy / 8 * p.2.1 + sx / 8) #[]).getD (sy % 8 * 8 + sx % 8) 0
  ((List.range fr.y).flatMap fun y => (List.range fr.x).flatMap fun x =>
    match planes with
    | [g] => pixBytes fmt { grey := true, wide := false, r := at_ g x y }
    | [p0, p1, p2] =>
      let c := if t.rgb then (at_ p0 x y, at_ p1 x y, at_ p2 x y) else yccRgb (at_ p0 x y) (at_ p1 x y) (at_ p2 x y)
      pixBytes fmt { grey := false, wide := false, r := c.1, g := c.2.1, b := c.2.2 }
    | _ => []).toArray
/-- Decode a JPEG whose header is parsed (R241, R244, R247-R250). -/
def jDecode (a : Arr) (t : JTabs) (at_ : Nat) (h : JScanHdr) (fr : JFrame) (fmt cmax : Nat) : ImgOut :=
  let n := fun (c : JComp) => (jPad fr c).1 * (jPad fr c).2
  let img : JImg := {
    coef := (fr.comps.map fun c => Array.replicate (n c) blk0).toArray
    dead := (fr.comps.map fun c => Array.replicate (n c) false).toArray
    conc := (fr.comps.map fun c => Array.replicate (n c) false).toArray
    qts := Array.replicate fr.comps.length #[] }
  let r := jScans a cmax 130 0 img (.sos t at_ h)
  let c := concealOf r.img.u (jBl fr)
  let tr := if r.trailing then 8 else 0
  match r.fail with
  | some e => { err := r.img.first, fail := some e.st, conceal := c, units := r.img.u, flags := tr }
  | none =>
    if r.img.stop then
      { err := r.img.first, fail := some (if cmax = 0 then (r.img.first.map (·.st)).getD 0 else 0x0210), conceal := c, units := r.img.u }
    else
      { data := jOutput t fr r.img fmt, err := r.img.first, conceal := c, units := r.img.u, flags := tr + if r.img.u = 0 then 0 else 4 }

end Sys2Proof.Machine
end

