-- ==== Sys2Proof/Machine/Fp.lean ====
section
/-! DEFINITION. Number formats and rounding (R152-R157): exact values, decoding and rounding to every format of R136, and the IEEE 754 operations of the vector unit (R132). -/

namespace Sys2Proof.Machine

/-- An exact finite value n * 2^e. -/
structure Dy where
  n : Int
  e : Int
  deriving DecidableEq, Repr

/-- Exact sum. -/
def dyAdd (a b : Dy) : Dy :=
  if a.e ≤ b.e then { n := a.n + b.n * 2 ^ (b.e - a.e).toNat, e := a.e }
  else { n := a.n * 2 ^ (a.e - b.e).toNat + b.n, e := b.e }
/-- Exact product. -/
def dyMul (a b : Dy) : Dy := { n := a.n * b.n, e := a.e + b.e }
/-- Order of two exact values. -/
def dyLt (a b : Dy) : Bool := (dyAdd a { n := -b.n, e := b.e }).n < 0

/-- A decoded element: a NaN, an infinity, or a finite value with its sign kept for zero. -/
inductive FV where
  | nan
  | inf (neg : Bool)
  | fin (neg : Bool) (mag : Nat) (e : Int)
  deriving DecidableEq, Repr

/-- Exact value of a finite element. -/
def fvDy : FV → Dy
  | .fin neg m e => { n := if neg then -(m : Int) else m, e := e }
  | _ => { n := 0, e := 0 }
def fvNan : FV → Bool
  | .nan => true
  | _ => false
def fvInf : FV → Bool
  | .inf _ => true
  | _ => false
def fvNeg : FV → Bool
  | .inf s => s
  | .fin s _ _ => s
  | .nan => false
def fvZero : FV → Bool
  | .fin _ 0 _ => true
  | _ => false

/-- A floating format: width, mantissa bits, bias, largest finite code, results of overflow, of an infinite and of a NaN source (R152, R156). -/
structure Fmt where
  w : Nat
  m : Nat
  bias : Nat
  maxFin : Nat
  ovf : Nat
  infSrc : Nat
  nanSrc : Nat
  /-- First code that is an infinity, and whether codes above `maxFin` hold NaNs only. -/
  infCode : Option Nat
  deriving DecidableEq, Repr

/-- The floating formats by code of R136. -/
def fmtOf (code : Nat) : Option Fmt :=
  match code with
  | 0x3 => some { w := 4, m := 1, bias := 1, maxFin := 7, ovf := 7, infSrc := 7, nanSrc := 7, infCode := none }
  | 0x4 => some { w := 6, m := 2, bias := 3, maxFin := 31, ovf := 31, infSrc := 31, nanSrc := 31, infCode := none }
  | 0x5 => some { w := 6, m := 3, bias := 1, maxFin := 31, ovf := 31, infSrc := 31, nanSrc := 31, infCode := none }
  | 0x6 => some { w := 8, m := 3, bias := 7, maxFin := 0x7E, ovf := 0x7E, infSrc := 0x7E, nanSrc := 0x7F, infCode := none }
  | 0x7 => some { w := 8, m := 2, bias := 15, maxFin := 0x7B, ovf := 0x7B, infSrc := 0x7C, nanSrc := 0x7E, infCode := some 0x7C }
  | 0x8 => some { w := 16, m := 7, bias := 127, maxFin := 0x7F7F, ovf := 0x7F80, infSrc := 0x7F80, nanSrc := 0x7FC0, infCode := some 0x7F80 }
  | 0x9 => some { w := 16, m := 10, bias := 15, maxFin := 0x7BFF, ovf := 0x7C00, infSrc := 0x7C00, nanSrc := 0x7E00, infCode := some 0x7C00 }
  | 0xA => some { w := 32, m := 23, bias := 127, maxFin := 0x7F7FFFFF, ovf := 0x7F800000, infSrc := 0x7F800000, nanSrc := 0x7FC00000, infCode := some 0x7F800000 }
  | _ => none
/-- Bits of a format code (R136); 0 for a reserved code. -/
def fmtBits (code : Nat) : Nat := [4, 8, 32, 4, 6, 6, 8, 8, 16, 16, 32].getD code 0
/-- Integer formats. -/
def fmtIsInt (code : Nat) : Bool := code ≤ 2
/-- Narrow formats (R136). -/
def fmtNarrow (code : Nat) : Bool := code = 0 || code = 1 || (3 ≤ code && code ≤ 7)
/-- Wide formats (R136). -/
def fmtWide (code : Nat) : Bool := 8 ≤ code && code ≤ 10

/-- Decode an element of a floating format (R152). -/
def fpDecode (f : Fmt) (x : Nat) : FV :=
  let neg := x.testBit (f.w - 1)
  let mag := x % 2 ^ (f.w - 1)
  if some mag = f.infCode then .inf neg
  else if f.maxFin < mag then .nan
  else
    let e := mag / 2 ^ f.m
    if e = 0 then .fin neg mag (1 - f.bias - f.m)
    else .fin neg (2 ^ f.m + mag % 2 ^ f.m) ((e : Int) - f.bias - f.m)
/-- Decode an element of any format code of R136 (R152, R153). -/
def elemDecode (code x : Nat) : FV :=
  match fmtOf code with
  | some f => fpDecode f x
  | none => let v := sInt (fmtBits code) x; .fin (decide (v < 0)) v.natAbs 0

/-- Bits of a number. -/
def bitLen (n : Nat) : Nat := if n = 0 then 0 else n.log2 + 1
/-- Round M * 2^e (plus a sticky amount below 2^e) to a multiple of 2^q, ties to even: the multiple (R155). -/
def rneShift (M : Nat) (shift : Int) (sticky : Bool) : Nat :=
  if shift ≤ 0 then M * 2 ^ (-shift).toNat
  else
    let k := shift.toNat
    let n := M / 2 ^ k
    let r := M % 2 ^ k
    let h := 2 ^ (k - 1)
    if h < r ∨ (r = h ∧ (sticky || n % 2 = 1)) then n + 1 else n
/-- Quantum exponent of a magnitude M * 2^e in a format. -/
def quantum (f : Fmt) (M : Nat) (e : Int) : Int := max ((bitLen M : Int) - 1 + e - f.m) (1 - (f.bias : Int) - f.m)
/-- Code (without sign) of N * 2^q, where q is the quantum of the value: it may exceed the largest finite code. -/
def codeOf (f : Fmt) (N : Nat) (q : Int) : Nat :=
  if N < 2 ^ f.m then N else (q + f.m + f.bias).toNat * 2 ^ f.m + (N - 2 ^ f.m)
/-- Sign bit of a format. -/
def signBit (f : Fmt) (neg : Bool) : Nat := if neg then 2 ^ (f.w - 1) else 0
/-- Round a magnitude to a format by nearest even, with the overflow column of R156. -/
def fpRound (f : Fmt) (neg : Bool) (M : Nat) (e : Int) (sticky : Bool) : Nat :=
  let q := quantum f M e
  let c := codeOf f (rneShift M (q - e) sticky) q
  signBit f neg + (if f.maxFin < c then f.ovf else c)
/-- Round to an integer format by nearest even, saturating (R156). -/
def intRound (w : Nat) (neg : Bool) (M : Nat) (e : Int) : Nat :=
  let n := rneShift M (-e) false
  ofInt w (satInt w (if neg then -(n : Int) else n))
/-- Convert a value to a format by round-to-nearest-even (R155, R156): an exact zero gives +0 (log 15). -/
def fpTo (code : Nat) (v : FV) : Nat :=
  match fmtOf code with
  | some f =>
    match v with
    | .nan => f.nanSrc
    | .inf neg => signBit f neg + f.infSrc
    | .fin neg M e => if M = 0 then 0 else fpRound f neg M e false
  | none =>
    let w := fmtBits code
    match v with
    | .nan => 0
    | .inf neg => ofInt w (if neg then -(2 ^ (w - 1) : Int) else 2 ^ (w - 1) - 1)
    | .fin neg M e => intRound w neg M e
/-- An exact value as an element value: zero is positive. -/
def dyFV (d : Dy) : FV := .fin (decide (d.n < 0)) d.n.natAbs d.e
/-- Deterministic stochastic rounding of an exact value with random word r (R157). -/
def fpStoch (code : Nat) (r : Nat) (d : Dy) : Nat :=
  let M := d.n.natAbs
  let neg := decide (d.n < 0)
  match fmtOf code with
  | some f =>
    if M = 0 then 0
    else
      let q := quantum f M d.e
      let sh := q - d.e
      let lo := if sh ≤ 0 then M * 2 ^ (-sh).toNat else M / 2 ^ sh.toNat
      let frac := if sh ≤ 0 then 0 else (M % 2 ^ sh.toNat) * 2 ^ 32 / 2 ^ sh.toNat
      let exact := sh ≤ 0 ∨ M % 2 ^ sh.toNat = 0
      let cl := codeOf f lo q
      let n := if !exact && 2 ^ 32 ≤ frac + r then lo + 1 else lo
      let c := codeOf f n q
      -- a magnitude above the largest finite value has no hi: the overflow column decides
      signBit f neg + (if f.maxFin < cl ∨ (f.maxFin = cl ∧ !exact) then f.ovf else c)
  | none =>
    let w := fmtBits code
    let sh := -d.e
    let lo := if sh ≤ 0 then M * 2 ^ (-sh).toNat else M / 2 ^ sh.toNat
    let frac := if sh ≤ 0 then 0 else (M % 2 ^ sh.toNat) * 2 ^ 32 / 2 ^ sh.toNat
    let n := if 2 ^ 32 ≤ frac + r then lo + 1 else lo
    ofInt w (satInt w (if neg then -(n : Int) else n))

/-! ## IEEE 754 operations with the NaN and zero rules of R132 -/

/-- Round an exact non-zero sum, or give the zero of the stated sign. -/
def fpOfDy (f : Fmt) (d : Dy) (zneg : Bool) : Nat :=
  if d.n = 0 then signBit f zneg else fpRound f (decide (d.n < 0)) d.n.natAbs d.e false
/-- Encode a value that is already in the format or special. -/
def fpEnc (f : Fmt) : FV → Nat
  | .nan => f.nanSrc
  | .inf neg => signBit f neg + f.infSrc
  | .fin neg M e => if M = 0 then signBit f neg else fpRound f neg M e false
/-- Sum of two values: an exact zero is +0 unless both addends are -0. -/
def fvAdd (f : Fmt) (a b : FV) : Nat :=
  match a, b with
  | .nan, _ => f.nanSrc
  | _, .nan => f.nanSrc
  | .inf x, .inf y => if x = y then fpEnc f (.inf x) else f.nanSrc
  | .inf x, _ => fpEnc f (.inf x)
  | _, .inf y => fpEnc f (.inf y)
  | .fin x m e, .fin y n g => fpOfDy f (dyAdd (fvDy (.fin x m e)) (fvDy (.fin y n g))) (x && y && m = 0 && n = 0)
/-- Exact product as a value; none for an infinity times zero. -/
def fvMulV (a b : FV) : FV :=
  match a, b with
  | .nan, _ => .nan
  | _, .nan => .nan
  | .inf x, y => if fvZero y then .nan else .inf (x != fvNeg y)
  | x, .inf y => if fvZero x then .nan else .inf (fvNeg x != y)
  | .fin x m e, .fin y n g => .fin (x != y) (m * n) (e + g)
/-- Product rounded once. -/
def fvMul (f : Fmt) (a b : FV) : Nat := fpEnc f (fvMulV a b)
/-- d + a * b with one rounding (VFMA). -/
def fvFma (f : Fmt) (d a b : FV) : Nat := fvAdd f d (fvMulV a b)
/-- Quotient rounded once (R132). -/
def fvDiv (f : Fmt) (a b : FV) : Nat :=
  match a, b with
  | .nan, _ => f.nanSrc
  | _, .nan => f.nanSrc
  | .inf _, .inf _ => f.nanSrc
  | .inf x, y => fpEnc f (.inf (x != fvNeg y))
  | x, .inf y => signBit f (fvNeg x != y)
  | .fin x m e, .fin y n g =>
    if n = 0 then (if m = 0 then f.nanSrc else fpEnc f (.inf (x != y)))
    else if m = 0 then signBit f (x != y)
    else
      -- the quotient with far more bits than any format keeps, and what is left as a sticky bit
      let k := 64 + bitLen n
      fpRound f (x != y) (m * 2 ^ k / n) (e - g - k) (m * 2 ^ k % n ≠ 0)
/-- Integer square root of x from the bits below 2^n, above the partial root r. -/
def isqrt : Nat → Nat → Nat → Nat
  | 0, _, r => r
  | n + 1, x, r => isqrt n x (if (r + 2 ^ n) * (r + 2 ^ n) ≤ x then r + 2 ^ n else r)
/-- Square root rounded once (R132). -/
def fvSqrt (f : Fmt) (a : FV) : Nat :=
  match a with
  | .nan => f.nanSrc
  | .inf neg => if neg then f.nanSrc else f.infSrc
  | .fin neg m e =>
    if m = 0 then signBit f neg
    else if neg then f.nanSrc
    else
      let k : Nat := if e % 2 = 0 then 128 else 129
      let x := m * 2 ^ k
      let r := isqrt 96 x 0
      fpRound f false r ((e - k) / 2) (r * r ≠ x)
/-- Order on values without NaN, with -0 below +0 where `zs` is set. -/
def fvLt (zs : Bool) (a b : FV) : Bool :=
  match a, b with
  | .inf x, .inf y => x && !y
  | .inf x, _ => x
  | _, .inf y => !y
  | x, y => if fvZero x && fvZero y then zs && fvNeg x && !fvNeg y else dyLt (fvDy x) (fvDy y)
/-- VFMIN and VFMAX (R132): the other operand when exactly one is a NaN. -/
def fvMin (f : Fmt) (mx : Bool) (a b : FV) : Nat :=
  if fvNan a && fvNan b then f.nanSrc
  else if fvNan a then fpEnc f b
  else if fvNan b then fpEnc f a
  else if fvLt true a b = mx then fpEnc f b else fpEnc f a

end Sys2Proof.Machine
end

