-- ==== Sys2Proof/Machine/Wav.lean ====
section
/-! DEFINITION. The WAV decoder of the codec complex (R234, R244): RIFF structure and sample conversions. -/

namespace Sys2Proof.Machine

/-- A parsed WAV file: where the data chunk's bytes begin, their declared size, and the format. -/
structure WavHdr where
  rate : Nat
  chans : Nat
  bits : Nat
  at_ : Nat
  size : Nat
  deriving DecidableEq, Repr
/-- Bytes of a frame. -/
def wavFrame (h : WavHdr) : Nat := h.chans * (h.bits / 8)
/-- Whole frames of the data chunk (R234). -/
def wavFrames (h : WavHdr) : Nat := h.size / wavFrame h
/-- The PCM sub-format of an extensible format chunk, after its first two bytes (PRESUMED: the GUID of the RIFF convention, log 26). -/
def wavGuid : Bytes := [0, 0, 0, 0, 0x10, 0, 0x80, 0, 0, 0xAA, 0, 0x38, 0x9B, 0x71]
/-- Format of a fmt chunk at `i` with `n` bytes (R234). -/
def wavFmt (a : Arr) (i n : Nat) : Except Status (Nat × Nat × Nat) :=
  if n < 16 then .error 0x0202
  else
    let tag := aLe a i 2
    let ch := aLe a (i + 2) 2
    let bits := aLe a (i + 14) 2
    let pcm := tag = 1 || (tag = 0xFFFE && decide (40 ≤ n) && aLe a (i + 24) 2 = 1 && aSub a (i + 26) (i + 40) = wavGuid)
    if tag = 0xFFFE ∧ n < 40 then .error 0x0202
    else if !pcm then .error 0x0201
    else if ch = 0 then .error 0x0202
    else if 16 < ch ∨ (bits ≠ 8 ∧ bits ≠ 16 ∧ bits ≠ 24 ∧ bits ≠ 32) then .error 0x0201
    else if aLe a (i + 12) 2 ≠ ch * (bits / 8) then .error 0x0202
    else .ok (aLe a (i + 4) 4, ch, bits)
/-- Chunks up to data (R239 step 1). -/
def wavChunks (a : Arr) : Nat → Nat → Option (Nat × Nat × Nat) → Except DErr WavHdr
  | 0, i, _ => .error { st := 0x020B, off := i }
  | f + 1, i, fm =>
    if a.size < i + 8 then .error { st := 0x020B, off := min i a.size }
    else
      let ty := aBe a i 4
      let n := aLe a (i + 4) 4
      if ty = 0x64617461 then
        match fm with
        | some (r, c, b) => .ok { rate := r, chans := c, bits := b, at_ := i + 8, size := n }
        | none => .error { st := 0x0202, off := i }
      else if ty = 0x666D7420 then
        if fm.isSome then .error { st := 0x0202, off := i }
        else if a.size < i + 8 + n then .error { st := 0x020B, off := i }
        else
          match wavFmt a (i + 8) n with
          | .ok x => wavChunks a f (i + 8 + n + n % 2) (some x)
          | .error st => .error { st := st, off := i }
      else wavChunks a f (i + 8 + n + n % 2) fm
/-- Parse a WAV file (R234). -/
def wavParse (a : Arr) : Except DErr WavHdr :=
  if a.size < 12 then .error { st := 0x020B, off := 0 }
  else
    let t := aBe a 0 4
    if t = 0x52494658 ∨ t = 0x52463634 then .error { st := 0x0201, off := 0 }
    else if t ≠ 0x52494646 ∨ aBe a 8 4 ≠ 0x57415645 then .error { st := 0x0202, off := 0 }
    else wavChunks a a.size 12 none
/-- Bytes of a sample in an output format. -/
def wavSampBytes (fmt bits : Nat) : Nat := if fmt = 0x10 then 2 else if fmt = 0x11 then 4 else bits / 8
/-- Plan of a WAV file (R240, R241, R245). -/
def wavPlan (a : Arr) (h : WavHdr) (fmt : Nat) : Plan :=
  {
    elements := wavFrames h, width := h.rate, height := h.chans, comps := h.chans, depth := h.bits
    outFmt := if fmt ≠ 0 then some fmt else if h.bits = 16 then some 0x10 else none
    elemBytes := h.chans * wavSampBytes fmt h.bits
    rows := wavFrames h, rowElems := 1
    least := h.size, have_ := a.size - h.at_
    flags := if h.size % wavFrame h = 0 then 0 else 8 }
/-- A stored sample as a signed number: 8-bit samples are unsigned around 128. -/
def wavSample (bits v : Nat) : Int := if bits = 8 then (v : Int) - 128 else if 2 * v < 2 ^ bits then (v : Int) else (v : Int) - 2 ^ bits
/-- A sample in an output format (R244). -/
def wavConv (fmt bits v : Nat) : Bytes :=
  let s := wavSample bits v
  if fmt = 0x11 then leBytes 4 (fpTo 10 (.fin (decide (s < 0)) s.natAbs (1 - bits)))
  else if fmt = 0x10 then
    let x := if bits ≤ 16 then s * 2 ^ (16 - bits) else rneQ s (2 ^ (bits - 16))
    leBytes 2 ((max (-32768) (min 32767 x)) % 65536).toNat
  else leBytes (bits / 8) v
/-- Decode the samples of a WAV file. -/
def wavDecode (a : Arr) (h : WavHdr) (fmt : Nat) : ImgOut :=
  let n := h.bits / 8
  { data := ((List.range (wavFrames h * h.chans)).flatMap fun k => wavConv fmt h.bits (aLe a (h.at_ + k * n) n)).toArray }

end Sys2Proof.Machine
end

