-- ==== Sys2Proof/Machine/Codec.lean ====
section
/-! DEFINITION. Codec complex descriptors (R235-R254, R270): fields, the checks of R239, output stripes (R241-R243), the info record (R245) and the commands JPEG, PNG, INFLATE, WAV, RECORD, PROBE and STRIPE_ALLOC. -/

namespace Sys2Proof.Machine

/-- Engine fields of a codec descriptor (R236). -/
structure CodecF where
  variant : Nat
  outFmt : Nat
  pool : Nat
  expect : Nat
  cmax : Nat
  in_ : Nat
  inLen : Nat
  stripeMax : Nat
  maxEl : Nat
  maxOut : Nat
  stripes : Nat
  info : Nat
  deriving DecidableEq, Repr
/-- The fields of a descriptor's bytes. -/
def codecF (b : Bytes) : CodecF :=
  { variant := subNat b 0x18 1, outFmt := subNat b 0x19 1, pool := subNat b 0x1A 1, expect := subNat b 0x1B 1, cmax := subNat b 0x1C 2,
    in_ := subNat b 0x20 8, inLen := subNat b 0x28 4, stripeMax := subNat b 0x2C 4, maxEl := subNat b 0x30 8, maxOut := subNat b 0x38 8,
    stripes := subNat b 0x40 8, info := subNat b 0x48 8 }
/-- Output format codes that apply to a kind of input, by the CODEC of R188 (R238). -/
def fmtApplies (codec fmt : Nat) : Bool :=
  match codec with
  | 1 => decide (fmt ≤ 3)
  | 2 => decide (fmt ≤ 5)
  | 6 => fmt = 0 || fmt = 0x10 || fmt = 0x11
  | 0 | 3 | 4 | 5 | 7 | 9 => fmt = 0x20
  | _ => true
/-- A listed output format code. -/
def fmtListed (fmt : Nat) : Bool := decide (fmt ≤ 5) || fmt = 0x10 || fmt = 0x11 || fmt = 0x20
/-- CODEC an OP decodes, where the OP fixes it. -/
def opCodec (op variant : Nat) : Nat := if op = 1 then 1 else if op = 2 then 2 else if op = 3 then 3 + variant else 6
/-- Every field in range (R236, R238); `paced` bars EXPECT 0xFF (R252). -/
def codecFOk (op : Nat) (b : Bytes) (paced : Bool) : Bool :=
  let f := codecF b
  (if op = 3 then decide (f.variant ≤ 2) else f.variant = 0) &&
  (if op ≤ 4 then fmtApplies (opCodec op f.variant) f.outFmt
   else fmtListed f.outFmt && (f.expect = 0xFF || f.expect = 8 || fmtApplies f.expect f.outFmt)) &&
  decide (f.pool ≤ 63) && (if op ≤ 4 then f.expect = 0 else (decide (f.expect ≤ 9) || (f.expect = 0xFF && !paced))) &&
  zeroIn b 0x1E 0x20 && decide (1 ≤ f.inLen) && decide (1 ≤ f.stripeMax ∧ f.stripeMax ≤ 65536) && decide (1 ≤ f.maxEl ∧ f.maxEl ≤ 2 ^ 28) &&
  decide (1 ≤ f.maxOut ∧ f.maxOut ≤ 2 ^ 40) && decide (f.stripes % 8 = 0) && decide (f.info % 64 = 0) && zeroIn b 0x50 0x80
/-- Budget of a codec descriptor, from its own fields (R252): the fixed part, and the size term in 1/96 ticks. -/
def codecBudget (op : Nat) (b : Bytes) : Nat × Nat :=
  let f := codecF b
  let c := if op ≤ 4 then opCodec op f.variant else f.expect
  if op = 6 then (500, 4 * f.inLen)
  else match c with
    | 1 => (4000, 96 * f.maxEl)
    | 2 | 3 | 4 | 5 => (2000, 16 * f.maxOut)
    | _ => (1000, 8 * f.maxOut)

/-! ## Decoding by kind -/

/-- What a decode gives, apart from where it goes. -/
structure Coded where
  plan : Plan := {}
  /-- BYTES output. -/
  bytes : Bool := false
  data : Array Byte := #[]
  fail : Option Status := none
  err : Option DErr := none
  conceal : Nat := 0
  units : Nat := 0
  flags : Nat := 0
  /-- The header did not parse: nothing of the plan is known. -/
  noHdr : Bool := false
/-- The limits a decode works under (R239). -/
structure Limits where
  fmt : Nat
  cmax : Nat
  maxEl : Nat
  maxOut : Nat
  stripeMax : Nat
  buf : Nat
  probe : Bool
/-- Bytes of an output row. -/
def planRow (p : Plan) : Nat := p.rowElems * p.elemBytes
/-- Rows of a stripe (R241). -/
def planRps (p : Plan) (buf : Nat) : Nat := if planRow p = 0 then 0 else buf / planRow p
/-- Steps 2 to 5 of R239. -/
def planCheck (p : Plan) (l : Limits) : Option Status :=
  if l.maxEl < p.elements then some 0x0203
  else if l.maxOut < p.elements * p.elemBytes then some 0x0203
  else if p.have_ < p.least then some 0x0204
  else if l.buf < planRow p then some 0x0205
  else if l.stripeMax < ceilDiv p.rows (planRps p l.buf) then some 0x0206
  else none
/-- Finish a planned decode: the checks, then the samples. -/
def codedOf (p : Plan) (l : Limits) (dec : Unit → ImgOut) : Coded :=
  match planCheck p l with
  | some st => { plan := p, fail := some st, flags := p.flags }
  | none =>
    if l.probe then { plan := p, flags := p.flags }
    else
      let o := dec ()
      { plan := p, data := o.data, fail := o.fail, err := o.err, conceal := o.conceal, units := o.units, flags := p.flags ||| o.flags }
/-- A header that does not parse. -/
def codedBad (e : DErr) : Coded := { fail := some e.st, err := some e, noHdr := true }
/-- Byte-stream output: R242 limits it. -/
def codedBytes (o : StreamOut) (l : Limits) : Coded :=
  let cap := min l.maxOut (l.stripeMax * l.buf)
  let st := if o.overLim ∨ cap < o.out.size then some (0x0207 : Status) else o.err.map (·.1)
  {
    bytes := true, data := o.out.extract 0 cap, fail := st, flags := if o.trailing then 8 else 0
    err := o.err.map fun e => { st := e.1, off := e.2.1, pos := e.2.2.1 * 2 ^ 40 + e.2.2.2.1, bit := e.2.2.2.2 } }
/-- Decode an input of a kind (CODEC of R188). -/
def decodeKind (codec : Nat) (a : Arr) (l : Limits) : Coded :=
  let cap := min l.maxOut (l.stripeMax * l.buf)
  match codec with
  | 1 =>
    match jParse a with
    | .sos t p h =>
      match t.frame with
      | some fr => codedOf (jPlan a fr p l.fmt) l fun _ => jDecode a t p h fr ((jPlan a fr p l.fmt).outFmt.getD 2) l.cmax
      | none => codedBad { st := 0x0202, off := p }
    | .err e => codedBad e
    | _ => codedBad { st := 0x020B, off := a.size }
  | 2 =>
    match pngParse a with
    | .ok h => codedOf (pngPlan h l.fmt) l fun _ => pngDecode a h l.fmt l.cmax
    | .error e => codedBad e
  | 6 =>
    match wavParse a with
    | .ok h => codedOf (wavPlan a h l.fmt) l fun _ => wavDecode a h l.fmt
    | .error e => codedBad e
  | 3 => if l.probe then { bytes := true } else codedBytes (streamDecode 0 a 0 a.size cap) l
  | 4 =>
    if l.probe then (match zlibHeader a 0 a.size with
      | some st => { codedBad { st := st, off := 0 } with bytes := true }
      | none => { bytes := true })
    else codedBytes (streamDecode 1 a 0 a.size cap) l
  | 5 =>
    if l.probe then (match gzipHeader a 0 a.size with
      | .error e => { codedBad { st := e.1, off := e.2 } with bytes := true }
      | .ok _ => { bytes := true })
    else codedBytes (streamDecode 2 a 0 a.size cap) l
  | 7 =>
    if l.probe then (match brlHdrAt a 0 with
      | .error e => { codedBad { st := e.st, off := e.off } with bytes := true }
      | .ok _ => { bytes := true })
    else
      let r := brlDecode a 0 0 cap
      let long := match r.err with
        | some e => decide (e.st = 0x0307)
        | none => false
      {
        bytes := true, data := r.data, fail := if long then some 0x0207 else r.err.map (·.st)
        err := if long then none else r.err.map fun e => { st := e.st, off := e.off, pos := e.block.getD 0 } }
  | 0 | 9 => if l.probe then { bytes := true } else codedBytes { out := a, overLim := decide (cap < a.size) } l
  | _ => codedBad { st := 0x0201, off := 0x0E }

/-! ## The info record (R245) -/

/-- The info record; fields the manual states no value for are free bytes (log 21): what an unparsed header would have given, the position of an error that has none, and a resolved format without a code. -/
def infoRecord (f : CodecF) (buf : Nat) (c : Coded) (used : Nat) : EM Bytes := do
  let p := c.plan
  let hdr ← if c.noHdr then engFree 18
    else if c.bytes then pure (leBytes 8 c.data.size ++ zeros 10)
    else pure (leBytes 8 p.elements ++ leBytes 4 p.width ++ leBytes 4 p.height ++ [BitVec.ofNat 8 p.comps, BitVec.ofNat 8 p.depth])
  let fmt ← if f.outFmt ≠ 0 then pure [BitVec.ofNat 8 f.outFmt]
    else match p.outFmt with
      | some x => if c.noHdr then engFree 1 else pure [BitVec.ofNat 8 x]
      | none => engFree 1
  let geo ← if c.bytes then pure (zeros 8) else if c.noHdr then engFree 8 else pure (leBytes 4 (planRow p) ++ leBytes 4 (planRps p buf))
  let est := match c.err, c.fail with
    | some e, _ => e.st
    | none, some st => st
    | none, none => stOk
  let pos ← match c.err with
    | some e => pure (leBytes 8 e.off ++ leBytes 8 e.pos ++ [BitVec.ofNat 8 e.bit])
    | none => if c.fail.isSome then engFree 17 else pure (zeros 17)
  pure (hdr ++ fmt ++ [BitVec.ofNat 8 c.flags] ++ geo ++ leBytes 4 used ++ leBytes 2 est.toNat ++ leBytes 2 c.conceal ++ leBytes 4 c.units ++ pos ++ zeros 7)
/-- RESULT of a codec descriptor (R245). -/
def codecResult (conceal used : Nat) : Word := BitVec.ofNat 64 (conceal + used * 2 ^ 16)

/-! ## Stripes (R241-R243) -/

/-- Active descriptor's numbers: bytes of output a stripe holds, buffer size, pool, STRIPES, INFO, status, CONCEAL, rows output, stripes in all. -/
def stripeProg (d : Desc) (i : Nat) : Nat := d.prog.getD i 0
/-- Write stripe k of an active descriptor into its buffer: its entry, its bytes, and free bytes behind the last row (R241, R242). -/
def stripeWrite (d : Desc) (k : Nat) (h : Word) : EM Unit := do
  engWrite d (d.entVa + 8 * k) (leBytes 8 h.toNat)
  let per := stripeProg d 0
  let b := ((d.held.drop 64).drop (k * per)).take per
  let s ← get
  let base := bufAddr (poolGet s (hPool h)) (hIndex h)
  let rest := if stripeProg d 7 = 1 then stripeProg d 1 - b.length else 0
  let fr ← engFree rest
  let r := physPut (← get) base (b ++ fr)
  set r.2
  if r.1 = stOk then pure () else throw { st := r.1, freeze := r.1 = stOutOfBounds }
/-- The last stripe is written: success keeps them; any other status frees them (R243). The info record comes before the completion (R245). -/
def stripeEnd (code : Nat) (d : Desc) : EM EngOut := do
  let st : Status := BitVec.ofNat 16 (stripeProg d 5)
  if st ≠ stOk then engDo fun s => descPut (descRelease s d) code { d with bufs := [], entCnt := 0 }
  engWrite d (stripeProg d 4) (d.held.take 64)
  let n := stripeProg d 8
  engDo fun s => engCount s (0x100 * code + 8) (if st = stOk then d.held.length - 64 else 0)
  pure (.done st (codecResult (stripeProg d 6) n))
/-- Take stripes and write them in order until all are written or the pool has no buffer (R242). -/
def stripeGo (code : Nat) : Nat → Desc → EM EngOut
  | 0, d => stripeEnd code d
  | f + 1, d => do
    let k := d.entCnt
    if stripeProg d 8 ≤ k then stripeEnd code d
    else match d.bufs[k]? with
      | some h =>
        engDo fun s => descPut s code { d with entCnt := k + 1 }
        stripeWrite d k h
        stripeGo code f { d with entCnt := k + 1 }
      | none =>
        let s ← get
        let p := stripeProg d 2
        let q := quotaEngOf s d.job d.priv
        let r := alloc s p q
        set r.2
        match r.1 with
        | .got h =>
          let d1 := { d with bufs := d.bufs ++ [h], entCnt := k + 1 }
          engDo fun s => descPut s code d1
          stripeWrite d k h
          stripeGo code f d1
        | .bad st => engStop st
        | .short =>
          let w : PoolWaiter := { tag := d.tag, job := d.job, quota := q, src := engSrc code, strict := strictJob r.2 d.job, since := r.2.now, desc := some d.id }
          engDo fun s => descPut (poolUpd s p fun x => { x with waiters := x.waiters ++ [w] }) code d
          pure .wait
/-- Free what a descriptor took when it ends with an error (R243). -/
def stripeGuard (code id : Nat) (x : EM EngOut) : EM EngOut :=
  tryCatch x fun e => do
    engDo fun s => match (engQueue s code).find? fun d => d.id = id with
      | some d => descPut (descRelease s d) code { d with bufs := [], entCnt := 0 }
      | none => s
    throw e

/-! ## The commands -/

/-- Read the input, decode it, and begin to store the output (R239). -/
def codecBody (code op : Nat) (d : Desc) (b : Bytes) : EM EngOut := do
  let s ← get
  let f := codecF b
  engNeed (codecFOk op b (pacedJob s d.job))
  engNeed (!poolUnbound s (descCtx d) f.pool)
  let buf := poolSize (poolGet s f.pool)
  let a ← engArr d f.in_ f.inLen
  let lim : Limits := { fmt := f.outFmt, cmax := f.cmax, maxEl := f.maxEl, maxOut := f.maxOut, stripeMax := f.stripeMax, buf := buf, probe := op = 6 }
  let isRec := op = 5 || (op = 6 && f.expect = 0xFF)
  let codec := if isRec then ab a 0x0E else if op = 6 then f.expect else opCodec op f.variant
  let base := if isRec then 32 + aLe a 0x0C 2 else 0
  -- R237: the record's lengths and its CODEC
  let c ← if isRec && decide (a.size < 32) then pure (codedBad { st := 0x020B, off := 0 })
    else if isRec && f.expect ≠ 0xFF && decide (codec ≠ f.expect) then pure (codedBad { st := 0x0211, off := 0x0E })
    else if isRec && decide (a.size < base + aLe a 8 4) then pure (codedBad { st := 0x020B, off := 0 })
    else do
      engNeed (!isRec || fmtApplies codec f.outFmt)
      let pay := if isRec then a.extract base (base + aLe a 8 4) else a
      let c := decodeKind codec pay lim
      pure (if codec = 8 ∨ 9 < codec then c else { c with err := c.err.map fun e => { e with off := e.off + base } })
  if op = 6 then
    let r ← infoRecord f buf c 0
    engWrite d f.info r
    pure (.done (c.fail.getD stOk) (codecResult 0 0))
  else
    let per := if c.bytes then buf else planRps c.plan buf * planRow c.plan
    let data := if c.fail.isSome && !c.bytes then #[] else c.data
    let used := if per = 0 then 0 else ceilDiv data.size per
    let r ← infoRecord f buf c used
    if c.flags / 4 % 2 = 1 then engDo fun s => engCount s (0x100 * code + 16) 1
    let d1 := { d with
      active := true, held := r ++ data.toList, entVa := f.stripes
      prog := [per, buf, f.pool, f.stripes, f.info, (c.fail.getD stOk).toNat, c.conceal, b2n (!c.bytes), used] }
    engDo fun s => descPut s code d1
    stripeGuard code d.id (stripeGo code (used + 1) d1)
/-- Level 3 of the pool named stops new descriptors that take buffers (R380). -/
def codecHeld (s : State) (code op : Nat) : Bool :=
  match engPick s code op with
  | some d => op ≠ 6 && (poolGet s (subNat (descPeek s d) 0x1A 1)).level = 3
  | none => false
/-- Start a codec descriptor with an OP. -/
def codecRun (code op : Nat) (s : State) : State :=
  if codecHeld s code op then s else engStart 1 code op 128 (codecBudget op) (codecBody code op) s
/-- JPEG. -/
def execJpeg (code : BitVec 8) (s : State) : Out_ := .next (codecRun code.toNat 1 s)
/-- PNG. -/
def execPng (code : BitVec 8) (s : State) : Out_ := .next (codecRun code.toNat 2 s)
/-- INFLATE. -/
def execInflate (code : BitVec 8) (s : State) : Out_ := .next (codecRun code.toNat 3 s)
/-- WAV. -/
def execWav (code : BitVec 8) (s : State) : Out_ := .next (codecRun code.toNat 4 s)
/-- RECORD. -/
def execRecord (code : BitVec 8) (s : State) : Out_ := .next (codecRun code.toNat 5 s)
/-- PROBE. -/
def execProbe (code : BitVec 8) (s : State) : Out_ := .next (codecRun code.toNat 6 s)
/-- STRIPE_ALLOC (R242): an active descriptor that was handed a buffer goes on; `d` is its place in the queue. -/
def stripeAlloc (code d : Nat) (s : State) : State :=
  match (engQueue s code)[d]? with
  | some x =>
    if engIs 1 code && engWorks s code && x.active && x.op ≤ 5 && decide (x.entCnt < x.bufs.length) then
      engSettle code x (codecBudget x.op (descPeek s x)) ((stripeGuard code x.id (stripeGo code (stripeProg x 8 + 1) x)).run s)
    else s
  | none => s
/-- STRIPE_ALLOC. -/
def execStripeAlloc (code : BitVec 8) (d : Nat) (s : State) : Out_ := .next (stripeAlloc code.toNat d s)

end Sys2Proof.Machine
end

