-- ==== Sys2Proof/Machine/Frb.lean ====
section
/-! DEFINITION. The FRB format (R276-R280): fixed-ratio blocks of 64 values. -/

namespace Sys2Proof.Machine

/-- Bits of a code by TYPE and RATIO (R276). -/
def frbQ (type ratio : Nat) : Nat := if type = 0xA then (if ratio = 1 then 15 else 7) else (if ratio = 1 then 7 else 3)
/-- Bytes of a block. -/
def frbBlock (type ratio : Nat) : Nat := 8 + 8 * frbQ type ratio
/-- Bytes of a value. -/
def frbElem (type : Nat) : Nat := if type = 0xA then 4 else 2
/-- floor(log2 |x|) of a finite non-zero value. -/
def frbLog (v : FV) : Option Int :=
  match v with
  | .fin _ m e => if m = 0 then none else some ((bitLen m : Int) - 1 + e)
  | _ => none
/-- EMAX of a block: the largest of them, or none. -/
def frbEmax (vs : List FV) : Option Int :=
  vs.foldl (fun b v => match b, frbLog v with
    | none, x => x
    | some a, some x => some (max a x)
    | some a, none => some a) none
/-- The code of a value (R278): `se` is the exponent of step. -/
def frbCode (q : Nat) (se : Int) (v : FV) : Nat :=
  match v with
  | .fin neg m e =>
    if m = 0 then 0
    else
      let x := min (2 ^ (q - 1) - 1) (rneShift m (se - e) false)
      if x = 0 then 0 else (if neg then 2 ^ (q - 1) else 0) + x
  | _ => 2 ^ (q - 1)
/-- One block of 64 values: its bytes and its special codes. -/
def frbEncBlock (type ratio : Nat) (vs : List FV) : List (BitVec 8) × Nat :=
  let q := frbQ type ratio
  let em := frbEmax vs
  let special := fun v => match v with
    | .fin _ _ _ => false
    | _ => true
  let nf := (vs.filter special).length
  let codes := vs.map fun v => match em with
    | some x => frbCode q (x - (q - 2 : Nat)) v
    | none => if special v then 2 ^ (q - 1) else 0
  let hdr := (match em with
    | some x => (x % 65536).toNat
    | none => 0x8000) + nf * 2 ^ 16 + type * 2 ^ 24 + ratio * 2 ^ 32
  let body := codes.zipIdx.foldl (fun t c => t + c.1 * 2 ^ (q * c.2)) 0
  (leBytes 8 hdr ++ leBytes (8 * q) body, nf)
/-- EMAX range of a TYPE (R280). -/
def frbRange (type : Nat) : Int × Int := if type = 0xA then (-149, 127) else if type = 8 then (-133, 127) else (-24, 15)
/-- Values of a block as bytes of TYPE, or none where R280 refuses it. -/
def frbDecBlock (type ratio : Nat) (b : List (BitVec 8)) : Option (List (List (BitVec 8))) :=
  let q := frbQ type ratio
  let h := leNat (b.take 8)
  let em := h % 65536
  let e : Int := if em < 32768 then em else (em : Int) - 65536
  let body := leNat (b.drop 8)
  let codes := (List.range 64).map fun i => bitsAt body (q * i) q
  let half := 2 ^ (q - 1)
  let r := frbRange type
  if bitsAt h 24 8 ≠ type ∨ bitsAt h 32 4 ≠ ratio ∨ h / 2 ^ 36 ≠ 0 then none
  else if em ≠ 0x8000 ∧ (e < r.1 ∨ r.2 < e) then none
  else if em = 0x8000 ∧ codes.any (fun c => c ≠ half && c % half ≠ 0) then none
  else if bitsAt h 16 8 ≠ (codes.filter (· = half)).length then none
  else
    some (codes.map fun c => leBytes (frbElem type)
      (if c = half then fpTo type (.nan)
       else fpTo type (.fin (decide (half < c)) (c % half) (if em = 0x8000 then 0 else e - (q - 2 : Nat)))))

end Sys2Proof.Machine
end

