-- ==== Sys2Proof/Machine/Compress.lean ====
section
/-! DEFINITION. The compression engine's descriptors (R264-R283): COMPRESS, DECOMPRESS, the history-carrying BRL streams, and FRB_ENCODE and FRB_DECODE. -/

namespace Sys2Proof.Machine

/-- Engine fields of a compression descriptor (R264). -/
structure BrlF where
  level : Nat
  blog : Nat
  wlog : Nat
  dir : Nat
  type : Nat
  ratio : Nat
  sflags : Nat
  stream : Nat
  first : Nat
  count : Nat
  in_ : Nat
  inLen : Nat
  vals : Nat
  out : Nat
  cap : Nat
  report : Nat
  deriving DecidableEq, Repr
/-- The fields of a descriptor's bytes. -/
def brlF (b : Bytes) : BrlF :=
  { level := subNat b 0x18 1, blog := subNat b 0x19 1, wlog := subNat b 0x1A 1, dir := subNat b 0x1B 1, type := subNat b 0x1C 1,
    ratio := subNat b 0x1D 1, sflags := subNat b 0x1E 1, stream := subNat b 0x20 8, first := subNat b 0x28 4, count := subNat b 0x2C 4,
    in_ := subNat b 0x30 8, inLen := subNat b 0x38 4, vals := subNat b 0x3C 4, out := subNat b 0x40 8, cap := subNat b 0x48 8,
    report := subNat b 0x50 8 }
/-- Fields in range and unused fields zero (R264, R281). -/
def brlFOk (op : Nat) (b : Bytes) (paced : Bool) : Bool :=
  let f := brlF b
  let comp := op = 0x10 || (op = 0x12 && f.dir = 0)
  let frb := op = 0x18 || op = 0x19
  let used := fun (u : Bool) (r z : Bool) => if u then r else z
  used comp (decide (f.level ≤ 9) && decide (12 ≤ f.blog ∧ f.blog ≤ 20) && (!paced || decide (f.level ≤ 1))) (f.level = 0 && f.blog = 0) &&
  used (op = 0x12 && f.dir = 0) (decide (12 ≤ f.wlog ∧ f.wlog ≤ 20)) (f.wlog = 0) &&
  used (op = 0x12) (decide (f.dir ≤ 1)) (f.dir = 0) &&
  used frb (decide (8 ≤ f.type ∧ f.type ≤ 10) && decide (1 ≤ f.ratio ∧ f.ratio ≤ 2) && decide (1 ≤ f.vals ∧ f.vals ≤ 2 ^ 28)) (f.type = 0 && f.ratio = 0 && f.vals = 0) &&
  used (op = 0x14) (decide (f.sflags ≤ 1)) (f.sflags = 0) &&
  used (op = 0x13 || op = 0x14 || op = 0x16) true (f.stream = 0) &&
  used (op = 0x11) true (f.first = 0 && f.count = 0) &&
  used (op = 0x12 || op = 0x14 || op = 0x16) (f.in_ = 0 && f.inLen = 0) (op = 0x10 || decide (1 ≤ f.inLen)) &&
  used (op = 0x15) (f.out = 0 && f.cap = 0) true &&
  decide (f.report % 64 = 0) && zeroIn b 0x1F 0x20 && zeroIn b 0x58 0x80
/-- Budget of a compression descriptor, from its own fields (R281); `dec` marks a decompress stream. -/
def brlBudget (op : Nat) (dec : Bool) (b : Bytes) : Nat × Nat :=
  let f := brlF b
  if op = 0x10 ∨ (op = 0x13 ∧ !dec) then (1000, 24 * f.inLen)
  else if op = 0x11 ∨ op = 0x13 then (1000, 8 * f.cap)
  else if op = 0x14 then (500, 4 * f.cap)
  else if op = 0x15 then (500, 4 * f.inLen)
  else if op = 0x18 ∨ op = 0x19 then (500, 4 * (f.vals * frbElem f.type))
  else (500, 4 * 64)

/-! ## Reports (R265) -/

/-- Write the report, where one is asked for. Positions that a status does not have, and those of a success, are free bytes (log 27). -/
def brlReport (d : Desc) (f : BrlF) (used out : Nat) (e : Option BrlErr) : EM Unit := do
  if f.report = 0 then pure ()
  else
    let blk ← match e.bind (·.block) with
      | some k => pure (leBytes 4 k)
      | none => engFree 4
    let off ← match e with
      | some x => if x.noOff || x.st = 0x0307 || (0x0308 ≤ x.st.toNat && x.st.toNat ≤ 0x030A) || x.st = 0x030D then engFree 8 else pure (leBytes 8 x.off)
      | none => engFree 8
    let pos ← match e.bind (·.out) with
      | some k => pure (leBytes 8 k)
      | none => engFree 8
    let st := (e.map (·.st)).getD stOk
    engWrite d f.report (leBytes 8 used ++ leBytes 8 out ++ leBytes 2 st.toNat ++ zeros 2 ++ blk ++ off ++ pos ++
      leBytes 4 ((e.map (·.want)).getD 0) ++ leBytes 4 ((e.map (·.got)).getD 0) ++ zeros 16)
/-- A failure of the engine's class: report, then completion. -/
def brlFail (d : Desc) (f : BrlF) (used out : Nat) (e : BrlErr) : EM EngOut := do
  brlReport d f used out (some e)
  pure (.done e.st 0)
/-- A success. -/
def brlDone (code : Nat) (d : Desc) (f : BrlF) (used out : Nat) (r : Word) : EM EngOut := do
  brlReport d f used out none
  engDo fun s => engCount s (0x100 * code + 8) out
  pure (.done stOk r)
/-- Output written: free bytes where it overlaps the input (R282). -/
def brlWrite (d : Desc) (f : BrlF) (b : Bytes) : EM Unit := do
  let o ← engPieces d f.out b.length .write
  let i ← engPieces d f.in_ f.inLen .read
  if piecesMeet o i then engBlur d f.out b.length else engWrite d f.out b

/-! ## Frames and FRB -/

/-- COMPRESS (R266). -/
def compressOp (code : Nat) (d : Desc) (f : BrlF) : EM EngOut := do
  let a ← engArr d f.in_ f.inLen
  let n := ceilDiv f.inLen (2 ^ f.blog)
  if f.cap < 32 + 24 * n + f.inLen then brlFail d f 0 0 { st := 0x0307, off := 0 }
  else
    let b := brlFrame a f.level f.blog
    brlWrite d f b
    brlDone code d f f.inLen b.length (BitVec.ofNat 64 b.length)
/-- DECOMPRESS (R267). -/
def decompressOp (code : Nat) (d : Desc) (f : BrlF) : EM EngOut := do
  let a ← engArr d f.in_ f.inLen
  let r := brlDecode a f.first f.count f.cap
  brlWrite d f r.data.toList
  if r.blur ≠ 0 then engBlur d (f.out + r.data.size) r.blur
  match r.err with
  | some e => brlFail d f r.used r.data.size e
  | none => brlDone code d f r.used r.data.size (BitVec.ofNat 64 r.data.size)
/-- FRB_ENCODE (R276-R278). -/
def frbEncodeOp (code : Nat) (d : Desc) (f : BrlF) : EM EngOut := do
  let w := frbElem f.type
  engNeed (decide (f.vals * w ≤ f.inLen))
  let a ← engArr d f.in_ (f.vals * w)
  let n := ceilDiv f.vals 64
  if f.cap < n * frbBlock f.type f.ratio then brlFail d f 0 0 { st := 0x0307, off := 0 }
  else
    let blocks := (List.range n).map fun k => frbEncBlock f.type f.ratio ((List.range 64).map fun i => elemDecode f.type (aLe a ((64 * k + i) * w) w))
    let b := blocks.flatMap (·.1)
    brlWrite d f b
    brlDone code d f (f.vals * w) b.length (BitVec.ofNat 64 (blocks.foldl (fun t x => t + x.2) 0))
/-- Decode FRB blocks until one is refused: output so far and blocks done. -/
def frbRun (a : Arr) (type ratio n : Nat) : Nat → Nat → Bytes → Bytes × Nat
  | 0, k, o => (o, k)
  | f + 1, k, o =>
    if n ≤ k then (o, k)
    else
      let z := frbBlock type ratio
      match frbDecBlock type ratio (aSub a (k * z) (k * z + z)) with
      | some vs => frbRun a type ratio n f (k + 1) (o ++ vs.flatMap id)
      | none => (o, k)
/-- FRB_DECODE (R278, R280). -/
def frbDecodeOp (code : Nat) (d : Desc) (f : BrlF) : EM EngOut := do
  let z := frbBlock f.type f.ratio
  let n := ceilDiv f.vals 64
  let w := frbElem f.type
  engNeed (decide (n * z ≤ f.inLen))
  let a ← engArr d f.in_ (n * z)
  if f.cap < f.vals * w then brlFail d f 0 0 { st := 0x0307, off := 0 }
  else
    let r := frbRun a f.type f.ratio n (n + 1) 0 []
    let o := r.1.take (f.vals * w)
    brlWrite d f o
    if r.2 < n then
      engBlur d (f.out + o.length) (min 64 (f.vals - 64 * r.2) * w)
      brlFail d f (r.2 * z) o.length { st := 0x030B, off := r.2 * z, out := some (64 * r.2 * w), block := some r.2 }
    else brlDone code d f (n * z) o.length (BitVec.ofNat 64 o.length)

/-! ## Streams (R271-R275) -/

/-- The handle of stream state k (R272). -/
def streamHandle (k : Nat) (x : BrlStream) : Word := BitVec.ofNat 64 (k + x.complex * 2 ^ 16 + x.gen.toNat * 2 ^ 32)
/-- The stream a handle names for a descriptor on a complex (R272). -/
def streamOf (s : State) (code : Nat) (d : Desc) (h : Nat) : Option (Nat × BrlStream) :=
  let k := bitsAt h 0 12
  let x := streamGet s k
  if x.opened ∧ bitsAt h 12 4 = 0 ∧ bitsAt h 22 10 = 0 ∧ bitsAt h 32 32 = x.gen.toNat ∧ bitsAt h 16 6 = x.complex ∧ x.complex = code ∧ x.job = d.job then
    some (k, x)
  else none
/-- The lowest free stream state (R271). -/
def streamSlot (s : State) : Option Nat := (List.range 4096).find? fun k => !(streamGet s k).opened
/-- A failure that the stream's handle, owner or phase explains: nothing changes (R272). -/
def streamInvalid (d : Desc) (f : BrlF) : EM EngOut := brlFail d f 0 0 { st := 0x0308, off := 0 }
/-- Work on a stream; a failure from outside its data leaves it FAILED (R275). -/
def onStream (code : Nat) (d : Desc) (f : BrlF) (k : Nat → BrlStream → EM EngOut) : EM EngOut := do
  match streamOf (← get) code d f.stream with
  | none => streamInvalid d f
  | some (n, x) => tryCatch (k n x) fun e => do
      engDo fun s => if (streamGet s n).opened then streamSet s n { streamGet s n with phase := 3 } else s
      throw e
/-- The last `n` bytes of a list. -/
def lastN (b : Bytes) (n : Nat) : Bytes := b.drop (b.length - n)
/-- Running CRC-32C continued over more bytes. -/
def crcMore (c : Nat) (b : Bytes) : Nat := (crcFeed 0x82F63B78 (c.xor 0xFFFFFFFF) b).xor 0xFFFFFFFF

/-- STREAM_OPEN (R273). -/
def streamOpenOp (code : Nat) (d : Desc) (f : BrlF) : EM EngOut := do
  if f.dir = 0 ∧ f.cap < 32 then brlFail d f 0 0 { st := 0x0307, off := 0 }
  else match streamSlot (← get) with
    | none => brlFail d f 0 0 { st := 0x0309, off := 0 }
    | some k =>
      let h := brlHeader 1 f.blog f.wlog (2 ^ 64 - 1) 0 0
      if f.dir = 0 then engWrite d f.out h
      let x : BrlStream := {
        gen := (streamGet (← get) k).gen + 1, opened := true, complex := code, job := d.job, dir := f.dir = 1
        blockLog2 := f.blog, windowLog2 := f.wlog, level := f.level, phase := if f.dir = 0 then 1 else 0 }
      engDo fun s => streamSet s k x
      brlDone code d f 0 (if f.dir = 0 then 32 else 0) (streamHandle k x)

/-- A compress STREAM_DATA (R273). -/
def streamComp (code : Nat) (d : Desc) (f : BrlF) (n : Nat) (x : BrlStream) : EM EngOut := do
  let a ← engArr d f.in_ f.inLen
  let z := 2 ^ x.blockLog2
  if f.cap < f.inLen + 16 * ceilDiv f.inLen z then brlFail d f 0 0 { st := 0x0307, off := 0 }
  else
    let h := x.hist.toArray
    let all := h ++ a
    let bs := brlBlocks all x.level z all.size (some (2 ^ x.windowLog2)) (f.inLen + 1) h.size
    let b := bs.flatMap id
    brlWrite d f b
    engDo fun s => streamSet s n { x with
      totalIn := x.totalIn + f.inLen, totalOrig := x.totalOrig + f.inLen, runCrc := crcMore x.runCrc a.toList
      blocks := x.blocks + bs.length, hist := lastN (x.hist ++ a.toList) (2 ^ x.windowLog2) }
    brlDone code d f f.inLen b.length (BitVec.ofNat 64 b.length)

/-- Progress of a decompress STREAM_DATA. -/
structure StreamRun where
  x : BrlStream
  out : Bytes := []
  used : Nat := 0
  err : Option BrlErr := none
  blur : Nat := 0
/-- The END block at offset o (R273). -/
def streamEndAt (a : Arr) (o : Nat) (r : StreamRun) : StreamRun :=
  let er := fun (e : BrlErr) => { r with err := some e, x := { r.x with phase := 3 } }
  let k := r.x.blocks
  let mk := fun (st : Status) (off : Nat) => ({ st := st, off := off, out := some r.x.totalOrig, block := some k } : BrlErr)
  if aLe a o 4 ≠ 16 then er (mk 0x0306 o)
  else if aLe a (o + 4) 4 ≠ 0 then er (mk 0x0306 (o + 4))
  else if a.size < o + 32 then { r with err := some (mk 0x0304 (o + 16)) }
  else
    let c := crc32c (aSub a (o + 16) (o + 32))
    if c ≠ aLe a (o + 12) 4 then er { mk 0x0305 (o + 12) with want := aLe a (o + 12) 4, got := c }
    else if aLe a (o + 16) 8 ≠ r.x.totalOrig then er (mk 0x0306 (o + 16))
    else if aLe a (o + 28) 4 ≠ r.x.blocks then er (mk 0x0306 (o + 28))
    else if aLe a (o + 24) 4 ≠ r.x.runCrc then er { mk 0x0305 (o + 24) with want := aLe a (o + 24) 4, got := r.x.runCrc }
    else { r with used := o + 32, x := { r.x with phase := 2, totalIn := r.x.totalIn + 32 } }
/-- Blocks of a decompress STREAM_DATA from offset o. -/
def streamBlocks (a : Arr) (cap : Nat) : Nat → StreamRun → StreamRun
  | 0, r => r
  | f + 1, r =>
    let o := r.used
    if a.size ≤ o then r
    else if o + 16 ≤ a.size ∧ ab a (o + 8) = 0xFF then streamEndAt a o r
    else
      let z := 2 ^ r.x.blockLog2
      let os := aLe a (o + 4) 4
      if o + 16 ≤ a.size ∧ ab a (o + 8) ≤ 2 ∧ 0 < os ∧ os ≤ z ∧ cap < r.out.length + os then
        { r with err := some { st := 0x0307, off := o, out := some r.x.totalOrig, block := some r.x.blocks } }
      else
        match brlBlockAt a o r.x.blocks r.x.totalOrig z none (fun _ => none) r.x.hist.toArray (2 ^ r.x.windowLog2) with
        | .ok b =>
          let bytes := b.data.toList
          streamBlocks a cap f { r with
            out := r.out ++ bytes, used := b.next
            x := { r.x with
              totalIn := r.x.totalIn + (b.next - o), totalOrig := r.x.totalOrig + bytes.length, runCrc := crcMore r.x.runCrc bytes
              blocks := r.x.blocks + 1, hist := lastN (r.x.hist ++ bytes) (2 ^ r.x.windowLog2) } }
        | .error e =>
          -- a header or payload past the input leaves the stream at the block start; any other failure leaves it FAILED
          let runs := decide (a.size < o + 16) || decide (a.size < o + 16 + aLe a o 4)
          if e.st = 0x0304 ∧ runs then { r with err := some e }
          else { r with err := some e, x := { r.x with phase := 3 }, blur := if 0 < os ∧ os ≤ z then os else 0 }
/-- A decompress STREAM_DATA (R273). -/
def streamDecomp (code : Nat) (d : Desc) (f : BrlF) (n : Nat) (x : BrlStream) : EM EngOut := do
  let a ← engArr d f.in_ f.inLen
  let start : StreamRun :=
    if x.phase = 0 then
      match brlHdrAt a 1 with
      | .ok h => { x := { x with phase := 1, blockLog2 := h.blog, windowLog2 := h.wlog, totalIn := 32 }, used := 32 }
      | .error e => { x := if e.st = 0x0304 then x else { x with phase := 3 }, err := some e }
    else { x := x }
  let r := if start.err.isSome then start else streamBlocks a f.cap (f.inLen + 1) start
  brlWrite d f r.out
  if r.blur ≠ 0 then engBlur d (f.out + r.out.length) r.blur
  engDo fun s => streamSet s n r.x
  match r.err with
  | some e => brlFail d f r.used r.out.length e
  | none => brlDone code d f r.used r.out.length (BitVec.ofNat 64 r.out.length)
/-- STREAM_DATA (R273). -/
def streamDataOp (code : Nat) (d : Desc) (f : BrlF) : EM EngOut :=
  onStream code d f fun n x =>
    if 2 ≤ x.phase then streamInvalid d f
    else if x.dir then streamDecomp code d f n x else streamComp code d f n x
/-- The state image of a stream (R274). -/
def streamImage (x : BrlStream) : Bytes :=
  let h := ascii "BRLS" ++ [1, if x.dir then 1 else 0, BitVec.ofNat 8 x.blockLog2, BitVec.ofNat 8 x.windowLog2, BitVec.ofNat 8 (if x.dir then 0 else x.level),
    BitVec.ofNat 8 x.phase] ++ zeros 6 ++ leBytes 8 x.totalIn ++ leBytes 8 x.totalOrig ++ leBytes 4 x.runCrc ++ leBytes 4 x.blocks ++ leBytes 4 x.hist.length ++ zeros 16
  h ++ leBytes 4 (crc32c (h ++ x.hist)) ++ x.hist
/-- STREAM_SAVE (R274). -/
def streamSaveOp (code : Nat) (d : Desc) (f : BrlF) : EM EngOut :=
  onStream code d f fun n x => do
    if x.phase = 3 then streamInvalid d f
    else
      let b := streamImage x
      if f.cap < b.length then brlFail d f 0 0 { st := 0x0307, off := 0 }
      else
        engWrite d f.out b
        if f.sflags = 1 then engDo fun s => streamFree s n
        brlDone code d f 0 b.length (BitVec.ofNat 64 b.length)
/-- A stream from a state image, or none where a check of R274 fails. -/
def streamOfImage (b : Bytes) : Option BrlStream :=
  let dir := subNat b 5 1
  let bl := subNat b 6 1
  let wl := subNat b 7 1
  let lv := subNat b 8 1
  let ph := subNat b 9 1
  let tot := subNat b 0x18 8
  let n := subNat b 0x28 4
  let logs := decide (12 ≤ bl ∧ bl ≤ 20 ∧ 12 ≤ wl ∧ wl ≤ 20)
  let ok := decide (64 + n ≤ b.length) && b.take 4 = ascii "BRLS" && subNat b 4 1 = 1 && decide (dir ≤ 1) &&
    (if dir = 0 then ph = 1 && logs && decide (lv ≤ 9)
     else lv = 0 && decide (ph ≤ 2) && (if ph = 0 then bl = 0 && wl = 0 else logs)) &&
    n = min tot (if ph = 0 then 0 else 2 ^ wl) && (ph ≠ 0 || tot = 0) && zeroIn b 0x0A 0x10 && zeroIn b 0x2C 0x3C &&
    subNat b 0x3C 4 = crc32c (b.take 0x3C ++ (b.drop 64).take n)
  if ok then
    some {
      opened := true, dir := dir = 1, blockLog2 := bl, windowLog2 := wl, level := lv, phase := ph, totalIn := subNat b 0x10 8
      totalOrig := tot, runCrc := subNat b 0x20 4, blocks := subNat b 0x24 4, hist := (b.drop 64).take n }
  else none
/-- STREAM_RESTORE (R274). -/
def streamRestoreOp (code : Nat) (d : Desc) (f : BrlF) : EM EngOut := do
  let b ← engBytes d f.in_ f.inLen
  match streamOfImage b with
  | none => brlFail d f 0 0 { st := 0x030A, off := 0 }
  | some x =>
    match streamSlot (← get) with
    | none => brlFail d f 0 0 { st := 0x0309, off := 0 }
    | some k =>
      let y := { x with gen := (streamGet (← get) k).gen + 1, complex := code, job := d.job }
      engDo fun s => streamSet s k y
      brlDone code d f (64 + x.hist.length) 0 (streamHandle k y)
/-- STREAM_CLOSE (R273). -/
def streamCloseOp (code : Nat) (d : Desc) (f : BrlF) : EM EngOut :=
  onStream code d f fun n x => do
    if x.dir then
      engDo fun s => streamFree s n
      if x.phase = 2 ∨ x.phase = 3 then brlDone code d f 0 0 0 else brlFail d f 0 0 { st := 0x0304, off := 0, noOff := true }
    else if f.cap < 32 then brlFail d f 0 0 { st := 0x0307, off := 0 }
    else
      engWrite d f.out (brlEnd x.totalOrig x.runCrc x.blocks)
      engDo fun s => streamFree s n
      brlDone code d f 0 32 32

/-! ## The commands -/

/-- Run one OP of the compression engine. -/
def brlBody (code op : Nat) (d : Desc) (b : Bytes) : EM EngOut := do
  let s ← get
  engNeed (brlFOk op b (pacedJob s d.job))
  let f := brlF b
  match op with
  | 0x10 => compressOp code d f
  | 0x11 => decompressOp code d f
  | 0x12 => streamOpenOp code d f
  | 0x13 => streamDataOp code d f
  | 0x14 => streamSaveOp code d f
  | 0x15 => streamRestoreOp code d f
  | 0x16 => streamCloseOp code d f
  | 0x18 => frbEncodeOp code d f
  | _ => frbDecodeOp code d f
/-- The stream number a queued descriptor names, for OPs 0x13, 0x14 and 0x16. -/
def streamNamed (s : State) (d : Desc) : Option Nat :=
  if d.op = 0x13 ∨ d.op = 0x14 ∨ d.op = 0x16 then some (bitsAt (subNat (descPeek s d) 0x20 8) 0 12) else none
/-- An earlier descriptor of the queue names the same stream (R275). -/
def streamBehind (s : State) (code op : Nat) : Bool :=
  match engPick s code op with
  | none => false
  | some d =>
    match streamNamed s d with
    | none => false
    | some k => ((engQueue s code).takeWhile fun x => x.id ≠ d.id).any fun x => streamNamed s x = some k && !x.active
/-- Start a compression descriptor with an OP; descriptors that name one stream go in queue order. -/
def brlRun (code op : Nat) (s : State) : State :=
  if streamBehind s code op then s
  else
    let dec := match engPick s code op with
      | some d => (streamGet s ((streamNamed s d).getD 0)).dir
      | none => false
    engStart 1 code op 128 (brlBudget op dec) (brlBody code op) s
/-- COMPRESS. -/
def execCompress (code : BitVec 8) (s : State) : Out_ := .next (brlRun code.toNat 0x10 s)
/-- DECOMPRESS. -/
def execDecompress (code : BitVec 8) (s : State) : Out_ := .next (brlRun code.toNat 0x11 s)
/-- STREAM_OPEN of BRL. -/
def execBrlStreamOpen (code : BitVec 8) (s : State) : Out_ := .next (brlRun code.toNat 0x12 s)
/-- STREAM_DATA. -/
def execBrlStreamData (code : BitVec 8) (s : State) : Out_ := .next (brlRun code.toNat 0x13 s)
/-- STREAM_SAVE. -/
def execBrlStreamSave (code : BitVec 8) (s : State) : Out_ := .next (brlRun code.toNat 0x14 s)
/-- STREAM_RESTORE. -/
def execBrlStreamRestore (code : BitVec 8) (s : State) : Out_ := .next (brlRun code.toNat 0x15 s)
/-- STREAM_CLOSE. -/
def execBrlStreamClose (code : BitVec 8) (s : State) : Out_ := .next (brlRun code.toNat 0x16 s)
/-- FRB_ENCODE. -/
def execFrbEncode (code : BitVec 8) (s : State) : Out_ := .next (brlRun code.toNat 0x18 s)
/-- FRB_DECODE. -/
def execFrbDecode (code : BitVec 8) (s : State) : Out_ := .next (brlRun code.toNat 0x19 s)

end Sys2Proof.Machine
end

