-- ==== Sys2Proof/Machine/Vector.lean ====
section
/-! DEFINITION. Vector instructions (R130-R135): integer and floating element functions, compares and predicates, permutes, conversion, reductions and SCG draws. -/

namespace Sys2Proof.Machine

/-- VALU function on elements of width w (R131). -/
def valuFn (fn w a b : Nat) : Nat :=
  let sa := sInt w a
  let sb := sInt w b
  match fn with
  | 0 => (a + b) % 2 ^ w
  | 1 => (a + 2 ^ w - b) % 2 ^ w
  | 2 => a.land b
  | 3 => a.lor b
  | 4 => a.xor b
  | 5 => (a <<< (b % w)) % 2 ^ w
  | 6 => a >>> (b % w)
  | 7 => ofInt w (sa / 2 ^ (b % w))
  | 8 => if sa < sb then a else b
  | 9 => if sa < sb then b else a
  | 10 => min a b
  | 11 => max a b
  | 12 => a * b % 2 ^ w
  | 13 => ofInt w (sa * sb / 2 ^ w)
  | 14 => ofInt w (satInt w (sa + sb))
  | _ => ofInt w (satInt w (sa - sb))

/-- Registers of a V-format instruction. -/
def vDeps (f : VFmt) (useV2 : Bool) : Deps :=
  { slot := 1, prof := 2, cls := 1, writes := [rV f.vd.toNat]
    reads := [rV f.vs1.toNat, rP f.pm.toNat, rV f.vd.toNat] ++ if useV2 then [rV f.vs2.toNat] else [] }
/-- FN bits 3:0 and 5:4. -/
def vFn (f : VFmt) : Nat := f.fn.toNat % 16
def vWc (f : VFmt) : Nat := f.fn.toNat / 16

/-- VALU (R131). -/
def execValu (i : Issue) (f : VFmt) (s : State) : Out_ :=
  let w := elemBits (vWc f)
  .next (issue s i (vDeps f true) i.pre.isNone fun s c =>
    let a := getV c f.vs1.toNat
    let b := getV c f.vs2.toNat
    ret s (setV c f.vd.toNat (predicated (getP c f.pm.toNat) (f.z = 1) w (getV c f.vd.toNat)
      fun k => valuFn (vFn f) w (elemGet a w k) (elemGet b w k))))

/-- Float type of FN bits 5:4: 0 BF16, 1 FP16, 2 FP32 (R131). -/
def vFmt (code : Nat) : Option Fmt := [fmtOf 8, fmtOf 9, fmtOf 10].getD code none
/-- A total float type for use after the encoding check. -/
def vFmtD (code : Nat) : Fmt := (vFmt code).getD { w := 32, m := 23, bias := 127, maxFin := 0x7F7FFFFF, ovf := 0x7F800000, infSrc := 0x7F800000, nanSrc := 0x7FC00000, infCode := some 0x7F800000 }
/-- VFP function on decoded elements (R131, R132). -/
def vfpFn (t : Fmt) (fn : Nat) (d a b : FV) : Nat :=
  match fn with
  | 0 => fvAdd t a b
  | 1 => fvAdd t a (match b with
      | .nan => .nan
      | .inf x => .inf !x
      | .fin x m e => .fin (!x) m e)
  | 2 => fvMul t a b
  | 3 => fvFma t d a b
  | 4 => fvMin t false a b
  | 5 => fvMin t true a b
  | 6 => match a with
      | .nan => t.nanSrc
      | .inf _ => fpEnc t (.inf false)
      | .fin _ m e => fpEnc t (.fin false m e)
  | 7 => match a with
      | .nan => t.nanSrc
      | .inf x => fpEnc t (.inf !x)
      | .fin x m e => fpEnc t (.fin (!x) m e)
  | 8 => fvDiv t a b
  | _ => fvSqrt t a
/-- VFP (R131): VS2 is zero for VFABS and VFNEG. -/
def execVfp (i : Issue) (f : VFmt) (s : State) : Out_ :=
  let t := vFmtD (vWc f)
  let fn := vFn f
  .next (issue s i (vDeps f true) (i.pre.isNone && (vFmt (vWc f)).isSome && fn ≤ 9 && (!(fn = 6 || fn = 7) || f.vs2 = 0)) fun s c =>
    let g := fun (r : BitVec 5) k => fpDecode t (elemGet (getV c r.toNat) t.w k)
    ret s (setV c f.vd.toNat (predicated (getP c f.pm.toNat) (f.z = 1) t.w (getV c f.vd.toNat)
      fun k => vfpFn t fn (g f.vd k) (g f.vs1 k) (g f.vs2 k))))

/-- Integer compare of VCMP (R131). -/
def vcmpInt (fn w a b : Nat) : Bool :=
  match fn with
  | 0 => a = b
  | 1 => a ≠ b
  | 2 => sInt w a < sInt w b
  | 3 => sInt w a ≤ sInt w b
  | 4 => a < b
  | _ => a ≤ b
/-- Floating compare: false when an operand is a NaN. -/
def vcmpFp (fn : Nat) (a b : FV) : Bool :=
  if fvNan a || fvNan b then false
  else match fn with
    | 6 => !fvLt false a b && !fvLt false b a
    | 7 => fvLt false a b
    | _ => !fvLt false b a
/-- A predicate whose byte lanes take the result of each active element; the others under Z (R131). -/
def predFrom (pm old : BitVec 128) (z : Bool) (w : Nat) (r : Nat → Bool) : BitVec 128 :=
  BitVec.ofNat 128 ((List.range 128).foldl (fun t b =>
    let e := b / (w / 8)
    let v := if active pm w e then r e else if z then false else old.getLsbD b
    t + b2n v * 2 ^ b) 0)
/-- Two predicates combined: PAND, POR, PXOR, PANDN (R131). -/
def predLogic (fn : Nat) (a b : BitVec 128) : BitVec 128 :=
  match fn with
  | 12 => a &&& b
  | 13 => a ||| b
  | 14 => a ^^^ b
  | _ => a &&& ~~~b
/-- VCMP (R131). A compare names its predicate by VD bits 3:0, and the logic functions name VS1 and VS2 bits 3:0; higher bits are zero (R117). -/
def execVcmp (i : Issue) (f : VFmt) (s : State) : Out_ :=
  let fn := vFn f
  let logic := 12 ≤ fn
  let flt := 6 ≤ fn && fn ≤ 8
  let w := if flt then (vFmtD (vWc f)).w else elemBits (vWc f)
  let enc := i.pre.isNone && f.vd.toNat < 16 && (fn ≤ 8 || logic) &&
    (!flt || (vFmt (vWc f)).isSome) && (!logic || (vWc f = 0 && f.pm = 0 && f.z = 0 && f.vs1.toNat < 16 && f.vs2.toNat < 16))
  .next (issue s i { slot := 1, prof := 2, cls := 1, writes := [rP f.vd.toNat]
                     reads := if logic then [rP f.vs1.toNat, rP f.vs2.toNat] else [rV f.vs1.toNat, rV f.vs2.toNat, rP f.pm.toNat, rP f.vd.toNat] } enc fun s c =>
    let a := getV c f.vs1.toNat
    let b := getV c f.vs2.toNat
    let t := vFmtD (vWc f)
    ret s (setP c f.vd.toNat (if logic then predLogic fn (getP c f.vs1.toNat) (getP c f.vs2.toNat)
      else predFrom (getP c f.pm.toNat) (getP c f.vd.toNat) (f.z = 1) w fun k =>
        if flt then vcmpFp fn (fpDecode t (elemGet a w k)) (fpDecode t (elemGet b w k))
        else vcmpInt fn w (elemGet a w k) (elemGet b w k))))

/-- Encoding checks of VPERM (R117, R133): fields a function does not name are zero. -/
def vpermEnc (f : RFmt) : Bool :=
  let v := fun (x : BitVec 6) => x.toNat < 32
  let p := fun (x : BitVec 6) => x.toNat < 16
  let wz := f.fn.toNat % 4 = 0
  match f.fn.toNat / 4 with
  | 0 => v f.rd && f.rs2 = 0
  | 1 => v f.rs1
  | 2 => v f.rd
  | 3 => v f.rd && v f.rs1 && v f.rs2
  | 4 => v f.rd && v f.rs1 && f.rs2 = 0 && wz
  | 5 => p f.rs1 && wz
  | 6 => p f.rd && wz
  | _ => false
/-- Registers of a VPERM function (R133). -/
def vpermDeps (f : RFmt) : Deps :=
  let d : Deps := { slot := 1, prof := 2, cls := 1, reads := [], writes := [] }
  match f.fn.toNat / 4 with
  | 0 => { d with reads := [rG f.rs1], writes := [rV f.rd.toNat] }
  | 1 => { d with reads := [rV f.rs1.toNat, rG f.rs2], writes := [rG f.rd] }
  | 2 => { d with reads := [rG f.rs1, rG f.rs2, rV f.rd.toNat], writes := [rV f.rd.toNat] }
  | 3 => { d with reads := [rV f.rs1.toNat, rV f.rs2.toNat], writes := [rV f.rd.toNat] }
  | 4 => { d with reads := [rV f.rs1.toNat], writes := [rV f.rd.toNat] }
  | 5 => { d with reads := [rP f.rs1.toNat, rG f.rs2], writes := [rG f.rd] }
  | _ => { d with reads := [rG f.rs1, rG f.rs2, rP f.rd.toNat], writes := [rP f.rd.toNat] }
/-- 64 bits of a predicate replaced: half h of p (R133 MOVP). -/
def predHalf (p : BitVec 128) (h : Nat) (v : Word) : BitVec 128 :=
  BitVec.ofNat 128 (if h % 2 = 0 then p.toNat / 2 ^ 64 * 2 ^ 64 + v.toNat else p.toNat % 2 ^ 64 + v.toNat * 2 ^ 64)
/-- VPERM (R133). -/
def execVperm (i : Issue) (f : RFmt) (s : State) : Out_ :=
  let w := elemBits f.fn.toNat
  let n := 1024 / w
  .next (issue s i (vpermDeps f) (i.pre.isNone && vpermEnc f) fun s c =>
    let a := getV c f.rs1.toNat
    let k := (gv c f.rs2).toNat
    ret s (match f.fn.toNat / 4 with
      | 0 => setV c f.rd.toNat (elemsTo w (List.replicate n (gv c f.rs1).toNat))
      | 1 => setG c f.rd.toNat (BitVec.ofNat 64 (elemGet a w (k % n)))
      | 2 => setV c f.rd.toNat (elemsTo w ((List.range n).map fun e => if e = k % n then (gv c f.rs1).toNat else elemGet (getV c f.rd.toNat) w e))
      | 3 => setV c f.rd.toNat (elemsTo w ((List.range n).map fun e => elemGet a w (elemGet (getV c f.rs2.toNat) w e % n)))
      | 4 => setV c f.rd.toNat a
      | 5 => setG c f.rd.toNat (((getP c f.rs1.toNat) >>> (64 * (k % 2))).setWidth 64)
      | _ => setP c f.rd.toNat (predHalf (getP c f.rd.toNat) k (gv c f.rs1))))

/-- Conversion of a whole register (R134): dense elements in, dense results out, the rest zero. -/
def vcvtWord (src dst : Nat) (v : BitVec 1024) : BitVec 1024 :=
  let n := 1024 / max (max 8 (fmtBits src)) (max 8 (fmtBits dst))
  elemsTo (fmtBits dst) ((List.range n).map fun k => fpTo dst (elemDecode src (elemGet v (fmtBits src) k)))
/-- VCVT (R134). The predicate and Z act on no element width here; software gives PM = 0 (log 13). -/
def execVcvt (i : Issue) (f : VFmt) (s : State) : Out_ :=
  let dst := f.fn.toNat % 16
  let src := f.vs2.toNat % 16
  let b := max (max 8 (fmtBits src)) (max 8 (fmtBits dst))
  .next (issue s i (vDeps f false) (i.pre.isNone && f.fn.toNat < 16 && f.vs2.toNat < 16 && dst ≤ 10 && src ≤ 10) fun s c =>
    let r := vcvtWord src dst (getV c f.vs1.toNat)
    let n := 1024 / b
    let p := getP c f.pm.toNat
    -- element k is active by the byte lane of the wider width (R130)
    ret s (setV c f.vd.toNat (elemsTo (fmtBits dst) ((List.range n).map fun k =>
      if active p b k then elemGet r (fmtBits dst) k else if f.z = 1 then 0 else elemGet (getV c f.vd.toNat) (fmtBits dst) k))))

/-- The active elements of a reduction's source. -/
def redElems (p : BitVec 128) (w : Nat) (v : BitVec 1024) : List Nat :=
  (List.range (1024 / w)).filterMap fun k => if active p w k then some (elemGet v w k) else none
/-- Exact sum of active elements, rounded once (R172). -/
def vrfsum (t : Fmt) (es : List Nat) : Nat :=
  let vs := es.map (fpDecode t)
  if vs.any fvNan || (vs.any (fun v => v = .inf true) && vs.any (fun v => v = .inf false)) then t.nanSrc
  else if vs.any (fun v => v = .inf true) then fpEnc t (.inf true)
  else if vs.any (fun v => v = .inf false) then fpEnc t (.inf false)
  else fpOfDy t (vs.foldl (fun a v => dyAdd a (fvDy v)) { n := 0, e := 0 }) false
/-- Fold a non-empty reduction; none for an empty active set, whose result only VRSUM and VRFSUM define. -/
def redFold (f : Nat → Nat → Nat) : List Nat → Option Nat
  | [] => none
  | e :: r => some (r.foldl f e)
/-- Result of a VRED function (R131, R172); none where the spec states no result (an empty active set of a minimum or maximum). -/
def vredFn (fn wc : Nat) (p : BitVec 128) (v : BitVec 1024) : Option Nat :=
  let w := elemBits wc
  let t := vFmtD wc
  let es := redElems p w v
  let fs := redElems p t.w v
  match fn with
  | 0 => some (es.foldl (fun a b => (a + b) % 2 ^ w) 0)
  | 1 => redFold (fun a b => if sInt w b < sInt w a then b else a) es
  | 2 => redFold (fun a b => if sInt w a < sInt w b then b else a) es
  | 3 => redFold min es
  | 4 => redFold max es
  | 5 => some (vrfsum t fs)
  | 6 => redFold (fun a b => fvMin t false (fpDecode t a) (fpDecode t b)) (fs.map fun x => fpEnc t (fpDecode t x))
  | _ => redFold (fun a b => fvMin t true (fpDecode t a) (fpDecode t b)) (fs.map fun x => fpEnc t (fpDecode t x))
/-- VRED (R131): the result goes to element 0 and every other element is zero. An unstated result is a free value (log 4). -/
def execVred (i : Issue) (f : VFmt) (s : State) : Out_ :=
  let fn := vFn f
  let flt := 5 ≤ fn
  let w := if flt then (vFmtD (vWc f)).w else elemBits (vWc f)
  .next (issue s i (vDeps f false) (i.pre.isNone && fn ≤ 7 && f.vs2 = 0 && (!flt || (vFmt (vWc f)).isSome)) fun s c =>
    match vredFn fn (vWc f) (getP c f.pm.toNat) (getV c f.vs1.toNat) with
    | some r => ret s (setV c f.vd.toNat (elemsTo w [r]))
    | none => ret { s with freeCtr := s.freeCtr + 1 } (setV c f.vd.toNat (elemsTo w [(Config.freeWord s.freeCtr).toNat])))

/-! ## SCG keys and draws (R135, R177-R181) -/

/-- Batches per epoch of a stream configuration (R206). -/
def cfgBpe (c : StreamCfg) : Nat := if c.tail = 0 then c.n / c.b else ceilDiv c.n c.b
/-- Epoch of a batch of a job (R180, R206): by the configuration of the job's batch stream; a job without one has no batch-to-epoch assignment, and its epochs are free values (log 14). -/
def epochOf (s : State) (j : BitVec 16) (batch : Word) : Nat :=
  match s.streams.find? fun e => e.2.job = j && e.2.cfg.b ≠ 0 with
  | some e => batch.toNat / cfgBpe e.2.cfg
  | none => Config.freeEpoch batch.toNat
/-- A non-empty slot of a job's key table (R177). -/
def keySlot (s : State) (jn : BitVec 16) (slot : Nat) : Option (Job × KeyEnt) :=
  match jobOf s jn with
  | some j =>
    match j.keys[slot]? with
    | some e => if e.mode = 0 then none else some (j, e)
    | none => none
  | none => none
/-- Epoch of a key request (R180): the slot's own under FIXED, that of the batch under FOLLOW. -/
def keyEpoch (s : State) (j : Job) (e : KeyEnt) (batch : Word) : Nat := if e.mode = 1 then e.epoch.toNat else epochOf s j.num batch
/-- The key of a slot for an epoch (R179). -/
def keyFor (j : Job) (e : KeyEnt) (epoch : Nat) : Bytes := scgKey (j.seeds.getD e.seed.toNat []) epoch e.purpose.toNat
/-- The derived key that a request uses; none while it waits (R181). -/
def keyHeld (s : State) (j : Job) (e : KeyEnt) (slot : Nat) (batch : Word) : Option Bytes :=
  (j.held.find? fun h => h.slot = slot && h.epoch = keyEpoch s j e batch).map (·.key)
/-- KEY_DERIVE (R181): the Gaffer derives the key of a slot for an epoch; a FIXED slot has its own epoch alone. -/
def execKeyDerive (job : BitVec 16) (slot : BitVec 8) (epoch : Word) (s : State) : Out_ :=
  .next (match keySlot s job slot.toNat with
    | some (j, e) =>
      if (e.mode = 1 ∧ e.epoch ≠ epoch) ∨ (j.held.any fun h => h.slot = slot.toNat && h.epoch = epoch.toNat) then s
      else jobUpd s job fun j => { j with held := j.held ++ [{ slot := slot.toNat, epoch := epoch.toNat, key := keyFor j e epoch.toNat }] }
    | none => s)
/-- VSCG (R135, R186): eight outputs with rising draw indices. It waits, unissued, for a key not yet derived (R181). -/
def execVscg (i : Issue) (f : SFmt) (s : State) : Out_ :=
  .next (issue s i { slot := 1, reads := [rG f.rs1, rG f.rs2], writes := [rV f.vd.toNat], cls := 1, prof := 2 } (i.pre.isNone && f.rsvd = 0) fun s c =>
    let draw := (gv c f.rs2).toNat
    match keySlot s c.job f.key.toNat with
    | none => exc1 s 0x03 stMalformed
    | some (j, e) =>
      if 2 ^ 48 ≤ draw + 7 then exc1 s 0x03 stMalformed
      else
        match keyHeld s j e f.key.toNat c.batch with
        | none => .stay s
        | some k => ret s (setV c f.vd.toNat (elemsTo 128 ((List.range 8).map fun l =>
            scg k (scgCounter e.purpose.toNat (gv c f.rs1).toNat (draw + l))))))

end Sys2Proof.Machine
end

