-- ==== Sys2Proof/Machine/Marver.lean ====
section
/-! DEFINITION. Marver (R201-R205): the keyed Feistel permutation and the command MARVER_PERMUTATION. -/

namespace Sys2Proof.Machine

def stDomain : Status := 0x0907

/-- Bits needed for d values: ceil(log2 d). -/
def log2Up (d : Nat) : Nat := if d ≤ 1 then 0 else Nat.log2 (d - 1) + 1
/-- Half-width of a domain (R201). -/
def feistelW (d : Nat) : Nat := max 1 (ceilDiv (log2Up d) 2)
/-- A slot of the permutation: key, purpose and subject. -/
structure PermKey where
  key : Bytes
  purpose : Nat
  deriving DecidableEq, Repr
/-- The six rounds from round i. -/
def feistelGo (k : PermKey) (subject w : Nat) : Nat → Nat → Nat → Nat → Nat
  | 0, _, l, r => l * 2 ^ w + r
  | n + 1, i, l, r => feistelGo k subject w n (i + 1) r (l.xor (scg k.key (scgCounter k.purpose subject (i * 2 ^ 40 + w * 2 ^ 32 + r)) % 2 ^ w))
/-- The Feistel network on 2w bits (R201). -/
def feistel (k : PermKey) (subject w x : Nat) : Nat := feistelGo k subject w 6 0 (x / 2 ^ w) (x % 2 ^ w)
/-- Cycle-walk to the first member below d: the member and the evaluations spent; `fuel` bounds the walk by the size of the network. -/
def permWalk (k : PermKey) (subject d w : Nat) : Nat → Nat → Nat → Nat × Nat
  | 0, y, n => (y, n)
  | f + 1, y, n => if y < d then (y, n) else permWalk k subject d w f (feistel k subject w y) (n + 1)
/-- perm(slot, subject, d, x) and the Feistel evaluations it spent (R201). -/
def perm (k : PermKey) (subject d x : Nat) : Nat × Nat :=
  let w := feistelW d
  permWalk k subject d w (2 ^ (2 * w)) (feistel k subject w x) 1
/-- Index for a position (R203), with the evaluations spent. -/
def marverIndex (mode : Nat) (p q : PermKey) (n w x : Nat) : Nat × Nat :=
  match mode with
  | 0 => perm p n n x
  | 1 =>
    let nf := n / w
    if x < nf * w then
      let j := perm p nf nf (x / w)
      let r := perm q j.1 w (x % w)
      (j.1 * w + r.1, j.2 + r.2)
    else
      let r := perm q nf (n - nf * w) (x - nf * w)
      (nf * w + r.1, r.2)
  | 2 =>
    let b := x / w
    let r := perm q b (min w (n - b * w)) (x % w)
    (b * w + r.1, r.2)
  | _ => (x, 0)
/-- The job's sample count N (R194). -/
def jobSamples (j : Job) : Nat := j.inputs.foldl (fun n i => n + ((i.copies.head?.map (·.records)).getD 0)) 0
/-- N of a live stream (R229). -/
def liveN : Nat := 2 ^ 48 - 1
/-- Key of a slot with the purpose asked for; `none` while it is not derived (R181, R182). -/
def permKey (d : Desc) (slot purpose : Nat) : EM (Option PermKey) := do
  let s ← get
  match keySlot s d.job slot with
  | none => engBad
  | some (j, e) =>
    engNeed (e.purpose = BitVec.ofNat 16 purpose)
    pure ((keyHeld s j e slot (tagBatch d.tag)).map fun k => { key := k, purpose := purpose })
/-- A Marver descriptor (R205). -/
def marverBody (code : Nat) (d : Desc) (b : Bytes) : EM EngOut := do
  let s ← get
  let mode := subNat b 0x1A 1
  let count := subNat b 0x1C 4
  let n := subNat b 0x20 8
  let first := subNat b 0x28 8
  let w := subNat b 0x30 8
  engNeed (decide (mode ≤ 3) && zeroIn b 0x1B 0x1C && subNat b 0x38 8 % 8 = 0)
  let live := mode = 2 && n = liveN && s.recordings.any fun r => r.job = d.job
  let jn := ((jobOf s d.job).map jobSamples).getD 0
  let win := mode = 1 || mode = 2
  if !decide (1 ≤ count ∧ count ≤ 65536) || (mode ≠ 3 && n ≠ jn && !live) || decide (n < first + count) || decide (2 ^ 48 ≤ n) ||
      (if win then !decide (2 ≤ w ∧ w ≤ 2 ^ 32) else w ≠ 0) then engStop stDomain
  else
    let none_ : PermKey := { key := [], purpose := 0 }
    let p ← if mode ≤ 1 then permKey d (subNat b 0x18 1) 1 else pure (some none_)
    let q ← if win then permKey d (subNat b 0x19 1) 2 else pure (some none_)
    match p, q with
    | some p, some q =>
      let r := (rangeFrom first count).map fun x => marverIndex mode p q n w x
      engWrite d (subNat b 0x38 8) (r.flatMap fun x => leBytes 8 x.1)
      let evals := r.foldl (fun t x => t + x.2) 0
      engDo fun s => engCount s (0x100 * (code - 128) + 0x38) evals
      pure (.done stOk (BitVec.ofNat 64 evals))
    | _, _ => pure .wait
/-- MARVER_PERMUTATION. -/
def execMarverPermutation (code : BitVec 8) (s : State) : Out_ :=
  .next (engStart 3 code.toNat 1 64 (fun b => (200, 24 * subNat b 0x1C 4)) (marverBody code.toNat) s)

end Sys2Proof.Machine
end

