-- ==== Sys2Proof/Machine/Gather.lean ====
section
/-! DEFINITION. Gather (R188-R200, R226-R228): records of Cane files with their checks and replicas, and the commands GATHER_READ, VERIFY, INGEST, INGEST_TAKE and GATHER_STRAND_READ_DONE. -/

namespace Sys2Proof.Machine

def stUnreadable : Status := 0x0901
def stPayloadCrc : Status := 0x0902
def stHeaderCorrupt : Status := 0x0903
def stRootMismatch : Status := 0x0904
def stRecordLarge : Status := 0x0905
def stIndexRange : Status := 0x0906
def stRecordingFailed : Status := 0x0912

/-- Queue of the Gather descriptors. -/
def gatherCode : Nat := 200

/-! ## Files and records -/

/-- Parse an object entry (R408); none where a check fails. -/
def objParse (m : Media) (id : Nat) (b : Bytes) : Option CaneFile :=
  let f : CaneFile := { obj := BitVec.ofNat 64 id, metaFirst := subNat b 0x08 8, metaUnits := subNat b 0x10 8, dataFirst := subNat b 0x18 8, dataStrands := subNat b 0x20 8 }
  if 64 * m.objUnits ≤ id % 2 ^ 32 ∨ crc32c (b.take 0x3C) ≠ subNat b 0x3C 4 ∨ subNat b 0 4 = 0 ∨ subNat b 0 4 ≠ id / 2 ^ 32 ∨
      !(subNat b 4 1 = 1 || subNat b 4 1 = 2) ∨ m.metaLbas < f.metaFirst + f.metaUnits ∨
      (m.userLbas - m.metaLbas) / 64 < f.dataFirst + f.dataStrands then none else some f
/-- Read an object entry: pending, the status of a failed read, or the entry (R408). -/
def objFetch (s : State) (id : Nat) : Option (Status × Option CaneFile) × State :=
  if s.media.state ≠ 2 ∧ s.media.state ≠ 3 then (some (stMediaNotReady, none), s)
  else if 64 * s.media.objUnits ≤ id % 2 ^ 32 then (some (stObjectInvalid, none), s)
  else
    let lba := id % 2 ^ 32 / 64
    let r := lbasFetch s [lba]
    match r.1 with
    | none => (none, r.2)
    | some (st, m) =>
      let s1 := lbasDone r.2 [lba]
      if st ≠ stOk then (some (st, none), s1)
      else match objParse s.media id (memBytes m (64 * (id % 64)) 64) with
        | some f => (some (stOk, some f), s1)
        | none => (some (stObjectInvalid, none), s1)
/-- LBA of byte o of a file's data area (R408). -/
def dataLba (m : Media) (f : CaneFile) (o : Nat) : Nat := m.metaLbas + 64 * f.dataFirst + o / 4096
/-- LBA of the index unit of record i (R191). -/
def indexLba (f : CaneFile) (i : Nat) : Nat := f.metaFirst + 1 + i / 256
/-- LBAs that cover `[off, off + len)` of a data area. -/
def dataLbas (m : Media) (f : CaneFile) (off len : Nat) : List Nat :=
  let a := dataLba m f off
  rangeFrom a (dataLba m f (off + len - 1) + 1 - a)
/-- What reading a copy of a record gives. -/
inductive RecOut where
  | media
  /-- A check fails: its status, with CODEC and TOTAL_LEN where they are known. -/
  | bad (st : Status) (info : Option (Nat × Nat))
  | good (b : Bytes)
  deriving DecidableEq, Repr
/-- The reads that an action of Gather began are Gather's: each counts in CODEWORDS of its side (R540). -/
def gatherMark (s0 s : State) : State :=
  let mine := (s.media.reads.filter fun r => !s0.media.reads.any fun q => q.loc = r.loc).map (·.loc)
  let s1 := { s with media := { s.media with reads := s.media.reads.map fun r => if mine.contains r.loc then { r with gather := true } else r } }
  mine.foldl (fun s l => engCount s (0x3800 + 0x100 * gatherSide l + 8) 1) s1
/-- Count a record or a replica read with the engine that holds its first codeword (R540). -/
def gatherCount (s : State) (ls : List Nat) (j : Nat) : State :=
  match (ls.filter fun l => decide (s.media.metaLbas ≤ l)).head?.bind (lbaLoc s.media) with
  | some l => engCount s (0x3800 + 0x100 * gatherSide l + 8 * j) 1
  | none => s
/-- Read the first TOTAL_LEN bytes of record i of a file: nothing while a read goes on; `none` bytes where the index entry fails (R199). -/
def recRaw (s : State) (f : CaneFile) (i : Nat) : Option (Status × Option Bytes) × List Nat × State :=
  let a := lbasFetch s [indexLba f i]
  match a.1 with
  | none => (none, [], a.2)
  | some (st, m) =>
    if st ≠ stOk then (some (st, none), [indexLba f i], a.2)
    else
      let e := memBytes m (16 * (i % 256)) 16
      let off := subNat e 0 8
      let len := subNat e 8 4
      if off % 64 ≠ 0 ∨ subNat e 12 4 ≠ 0 ∨ len < 32 ∨ f.dataBytes < off + len then (some (stOk, none), [indexLba f i], a.2)
      else
        let ls := dataLbas a.2.media f off len
        let b := lbasFetch a.2 ls
        match b.1 with
        | none => (none, ls, b.2)
        | some (st, m) =>
          (some (st, if st = stOk then some (memBytes m (off % 4096) len) else none), indexLba f i :: ls, b.2)
/-- The checks of a record's bytes (R199): the status of the first that fails. -/
def recCheck (r : Bytes) : Option Status :=
  let pay := subNat r 8 4
  let attr := subNat r 12 2
  if r.length ≠ 32 + attr + pay then some stHeaderCorrupt
  else if crc32c (r.take 0x14 ++ (r.drop 0x18).take 8 ++ (r.drop 32).take attr) ≠ subNat r 0x14 4 then some stHeaderCorrupt
  else if crc32c ((r.drop (32 + attr)).take pay) ≠ subNat r 0x10 4 then some stPayloadCrc
  else none
/-- Read a record from its copies in order: the first that reads and passes both checks, else the first failed check, else a media failure (R199, R200). -/
def recFetch (s : State) (i : Nat) : List CaneFile → Option RecOut → List (List Nat) → Option RecOut × List (List Nat) × State
  | [], bad, ls => (some (bad.getD .media), ls, s)
  | f :: r, bad, ls =>
    let x := recRaw s f i
    let ls1 := ls ++ [x.2.1]
    match x.1 with
    | none => (none, ls1, x.2.2)
    | some (st, none) => recFetch x.2.2 i r (if st = stOk then some (bad.getD (.bad stHeaderCorrupt none)) else bad) ls1
    | some (_, some b) =>
      match recCheck b with
      | none => (some (.good b), ls1, x.2.2)
      | some e => recFetch x.2.2 i r (some (bad.getD (.bad e (some (subNat b 14 1, b.length))))) ls1
/-- Read a record: once it has ended, its codewords are let go and it is counted, with each replica read (R540). -/
def recRead (s0 : State) (i : Nat) (copies : List CaneFile) : Option RecOut × State :=
  let r := recFetch s0 i copies none []
  let s1 := gatherMark s0 r.2.2
  if r.1.isNone then (none, s1)
  else
    let s2 := gatherCount s1 (r.2.1.headD []) 0
    let s3 := (r.2.1.drop 1).foldl (fun s ls => gatherCount s ls 3) s2
    (r.1, r.2.1.foldl lbasDone s3)
/-- The input and local index of a global index (R194). -/
def sampleAt : List JobInput → Nat → Option (JobInput × Nat)
  | [], _ => none
  | i :: r, n =>
    let k := (i.copies.head?.map (·.records)).getD 0
    if n < k then some (i, n) else sampleAt r (n - k)

/-! ## READ (R195-R198) -/

/-- Numbers of an active Gather descriptor: entries done, errors; then drop counts, for INGEST. -/
def gNum (d : Desc) (i : Nat) : Nat := d.prog.getD i 0
/-- A result entry (R196). -/
def gEntry (h : Nat) (st : Status) (codec len : Nat) : Bytes := leBytes 8 h ++ leBytes 2 st.toNat ++ [BitVec.ofNat 8 codec, 0] ++ leBytes 4 len
/-- The entry of a record that is not delivered; what the manual does not give of it is free (log 4). -/
def gBadEntry (st : Status) (info : Option (Nat × Nat)) : EM Bytes := do
  match info with
  | some (c, l) => pure (gEntry 0 st c l)
  | none =>
    let f ← engFree 5
    pure (leBytes 8 0 ++ leBytes 2 st.toNat ++ [f.getD 0 0, 0] ++ (f.drop 1))
/-- DEVICE_ERROR of a record that stops its job (R200, R557). -/
def gatherStop (s : State) (d : Desc) (st : Status) (idx : Nat) : State := deviceError s st 0 (leBytes 8 idx ++ leBytes 2 d.job.toNat)
/-- Ask for the codewords of the entries still to come, so that their reads go on together (R197). -/
def gatherAhead (s0 : State) (j : Job) (list : List Nat) : State :=
  gatherMark s0 <| list.foldl (fun s idx =>
    match sampleAt j.inputs idx with
    | some (x, i) => (x.copies.take 1).foldl (fun s f => (recRaw s f i).2.2) s
    | none => s) s0
/-- Take the entries in order, as far as reads and buffers allow. -/
def gatherGo (list : List Nat) (pool out : Nat) : Nat → Desc → EM EngOut
  | 0, d => pure (.done stOk (BitVec.ofNat 64 (gNum d 1)))
  | f + 1, d => do
    let n := gNum d 0
    match list[n]? with
    | none => pure (.done stOk (BitVec.ofNat 64 (gNum d 1)))
    | some idx =>
      let put := fun (e : Bytes) (bad : Bool) => do
        engWrite d (out + 16 * n) e
        let d1 := { d with prog := [n + 1, gNum d 1 + b2n bad], bufs := [] }
        engDo fun s => descPut s gatherCode d1
        gatherGo list pool out f d1
      let s ← get
      match jobOf s d.job with
      | none => do put (← gBadEntry stIndexRange none) true
      | some j =>
        match sampleAt j.inputs idx with
        | none => do put (← gBadEntry stIndexRange none) true
        | some (inp, i) =>
          let r := recRead s i inp.copies
          set r.2
          match r.1 with
          | none =>
            engDo fun s => gatherAhead s j (list.drop (n + 1))
            pure .wait
          | some .media =>
            engDo fun s => gatherStop s d stUnreadable idx
            pure (.done stUnreadable 0)
          | some (.bad st info) =>
            if j.crcPolicy = 0 then
              engDo fun s => gatherStop s d st idx
              pure (.done st 0)
            else put (← gBadEntry st info) true
          | some (.good b) =>
            if poolSize (poolGet r.2 pool) < b.length then put (gEntry 0 stRecordLarge (subNat b 14 1) b.length) true
            else
              let store := fun (h : Word) => do
                let s ← get
                let w := physPut s (bufAddr (poolGet s pool) (hIndex h)) b
                set w.2
                if w.1 ≠ stOk then throw { st := w.1, freeze := w.1 = stOutOfBounds }
                put (gEntry h.toNat stOk (subNat b 14 1) b.length) false
              match d.bufs with
              | h :: _ => store h
              | [] =>
                let q := quotaEngOf r.2 d.job d.priv
                let a := alloc r.2 pool q
                set a.2
                match a.1 with
                | .got h => store h
                | .bad st => engStop st
                | .short =>
                  let w : PoolWaiter := { tag := d.tag, job := d.job, quota := q, src := engSrc gatherCode, strict := strictJob a.2 d.job, since := a.2.now, desc := some d.id }
                  engDo fun s => if (poolGet s pool).waiters.any (fun w => w.desc = some d.id) then s
                    else poolUpd s pool fun x => { x with waiters := x.waiters ++ [w] }
                  pure .wait
/-- A READ descriptor (R195, R196). -/
def gatherReadBody (d : Desc) (b : Bytes) : EM EngOut := do
  let s ← get
  let count := subNat b 0x18 4
  let pool := subNat b 0x1C 1
  engNeed (decide (1 ≤ count ∧ count ≤ 4096) && decide (pool ≤ 63) && zeroIn b 0x1D 0x20 && zeroIn b 0x30 0x40)
  engNeed (!poolUnbound s (descCtx d) pool)
  if s.media.state ≠ 2 ∧ s.media.state ≠ 3 then engStop stMediaNotReady
  else
    let l ← engBytes d (subNat b 0x20 8) (8 * count)
    let list := (List.range count).map fun i => subNat l (8 * i) 8
    gatherGo list pool (subNat b 0x28 8) (count + 1) d
/-- Codeword bytes read from each strand by a list of byte ranges of data areas (R198). -/
def strandBytes (m : Media) (lbas : List Nat) : List Nat :=
  let u := lbas.eraseDups
  let ks := (u.map fun l => (l - m.metaLbas) / 64).eraseDups
  ks.map fun k => 4096 * (u.filter fun l => (l - m.metaLbas) / 64 = k).length
/-- Data LBAs of a record, from its index entry. -/
def recLbas (s : State) (f : CaneFile) (i : Nat) : List Nat := (recRaw s f i).2.1.filter fun l => decide (s.media.metaLbas ≤ l)

/-! ## VERIFY (R195) -/

/-- Hash the records in order, as far as reads allow; `held` keeps the leaves. -/
def verifyGo (f : CaneFile) (root : Bytes) : Nat → Desc → EM EngOut
  | 0, d => pure (.done (if caneRoot (blocksOf 32 f.records d.held) = root then stOk else stRootMismatch) 0)
  | k + 1, d => do
    let s ← get
    let r := recRaw s f (gNum d 0)
    set (lbasDone (gatherMark s r.2.2) (if r.1.isSome then r.2.1 else []))
    match r.1 with
    | none => pure .wait
    | some (st, none) => pure (.done (if st = stOk then stRootMismatch else stUnreadable) 0)
    | some (_, some b) =>
      let d1 := { d with prog := [gNum d 0 + 1], held := d.held ++ caneLeaf b }
      engDo fun s => descPut s gatherCode d1
      verifyGo f root k d1
/-- A VERIFY descriptor (R195). -/
def verifyBody (d : Desc) (b : Bytes) : EM EngOut := do
  engNeed (zeroIn b 0x1C 0x40)
  let s ← get
  match ((jobOf s d.job).bind fun j => j.inputs[subNat b 0x18 4]?).bind fun i => i.copies.head? with
  | none => engBad
  | some f =>
    if s.media.state ≠ 2 ∧ s.media.state ≠ 3 then engStop stMediaNotReady
    else
      let h := lbasFetch s [f.metaFirst]
      set h.2
      match h.1 with
      | none => pure .wait
      | some (st, m) => if st ≠ stOk then engStop stUnreadable else verifyGo f (memBytes m 0x20 32) (f.records - gNum d 0) d

/-! ## INGEST (R226-R228) -/

/-- The recording that an INGEST names. -/
def recOf (s : State) (d : Desc) (obj : Nat) : Option Recording := s.recordings.find? fun r => r.job = d.job && r.obj.toNat = obj
/-- Store a recording. -/
def recPut (s : State) (r : Recording) : State :=
  { s with recordings := (s.recordings.filter fun x => x.obj ≠ r.obj ∨ x.job ≠ r.job) ++ [r] }
/-- Write the blocks of a byte string that begins at a multiple of 4 KiB of the data area. -/
def recBlocks (s : State) (r : Recording) (off : Nat) (b : Bytes) : State :=
  (List.range (ceilDiv b.length 4096)).foldl (fun s k =>
    wbufPut s (s.media.metaLbas + 64 * r.dataFirst + off / 4096 + k) (memOfBytes 0 ((b.drop (4096 * k)).take 4096))) s
/-- Append a record to a recording (R228): data, index entry, leaf; none where the object is full (R408) or the media takes no writes. -/
def recAppend (s : State) (r : Recording) (b : Bytes) : Option State :=
  let off := ceilDiv r.dataBytes 64 * 64
  let base := off / 4096 * 4096
  let tail := r.tail ++ zeros (off - base - r.tail.length) ++ b
  let n := r.count + 1
  let idx := r.index ++ [(off, b.length)]
  let unit := (idx.drop (r.count / 256 * 256)).flatMap fun e => leBytes 8 e.1 ++ leBytes 4 e.2 ++ zeros 4
  if s.media.state ≠ 2 ∨ r.dataStrands * 262144 < off + b.length ∨ r.metaUnits < 1 + ceilDiv n 256 ∨ wbufRoom s < 2 + ceilDiv tail.length 4096 then none
  else
    let s1 := wbufPut (recBlocks s r base tail) (r.metaFirst + 1 + r.count / 256) (memOfBytes 0 unit)
    let e := off + b.length
    let last := e / 4096 * 4096
    some (ftlPump (recPut s1 { r with
      count := n
      dataBytes := e
      index := idx
      leaves := r.leaves ++ [caneLeaf b]
      tail := if last ≤ base then tail else tail.drop (last - base) }))
/-- A sample's record and the map update that locates it are durable (R228). -/
def recDurable (s : State) (r : Recording) (i : Nat) : Bool × State :=
  match r.index[i]? with
  | some e =>
    let lo := s.media.metaLbas + 64 * r.dataFirst + e.1 / 4096
    let hi := s.media.metaLbas + 64 * r.dataFirst + (e.1 + e.2 - 1) / 4096
    lbasDurable s fun l => decide (lo ≤ l ∧ l ≤ hi) || l = r.metaFirst + 1 + i / 256
  | none => (false, s)
/-- Add 1 to a 16-bit saturating count. -/
def sat16 (n : Nat) : Nat := min 0xFFFF (n + 1)
/-- RESULT of INGEST (R227). -/
def ingestResult (d : Desc) : Word := BitVec.ofNat 64 (gNum d 1 + gNum d 2 * 2 ^ 16 + gNum d 3 * 2 ^ 32)
/-- Fields of an INGEST in range (R226). -/
def ingestOk (b : Bytes) : Bool :=
  let count := subNat b 0x18 4
  let slots := subNat b 0x1C 4
  let sb := subNat b 0x28 4
  decide (1 ≤ count ∧ count ≤ 4096) && decide (1 ≤ slots ∧ slots ≤ 65536) && sb % 64 = 0 && decide (128 ≤ sb)
/-- An INGEST descriptor starts: its recording is opened (R226, R408). -/
def ingestBody (d : Desc) (b : Bytes) : EM EngOut := do
  engNeed (ingestOk b)
  let s ← get
  let obj := subNat b 0x30 8
  match recOf s d obj with
  | some r => if r.failed then engStop stRecordingFailed else engDo fun s => descPut s gatherCode { d with active := true, prog := [0, 0, 0, 0] }; pure .wait
  | none =>
    let o := objFetch s obj
    set o.2
    match o.1 with
    | none => pure .wait
    | some (st, none) => engStop st
    | some (_, some f) =>
      let r : Recording := { obj := f.obj, job := d.job, metaFirst := f.metaFirst, metaUnits := f.metaUnits, dataFirst := f.dataFirst, dataStrands := f.dataStrands }
      engDo fun s => descPut (recPut s r) gatherCode { d with active := true, prog := [0, 0, 0, 0] }
      pure .wait
/-- Take the next ring entry, if it has arrived (R227). -/
def ingestTakeBody (d : Desc) (b : Bytes) : EM EngOut := do
  let s ← get
  let obj := subNat b 0x30 8
  match recOf s d obj with
  | none => engStop stRecordingFailed
  | some r =>
    let i := r.taken
    let sb := subNat b 0x28 4
    let slot := subNat b 0x20 8 + i % subNat b 0x1C 4 * sb
    let q ← engBytes d slot 8
    let seq := leNat q
    if seq < i + 1 then pure .wait
    else
      let took := fun (d : Desc) => do
        engDo fun s => descPut (match recOf s d obj with
          | some r => recPut s { r with taken := i + 1 }
          | none => s) gatherCode d
        pure EngOut.wait
      if i + 1 < seq then took { d with prog := [gNum d 0, gNum d 1, sat16 (gNum d 2), gNum d 3] }
      else
        let raw ← engBytes d (slot + 64) (sb - 64)
        let total := 32 + subNat raw 12 2 + subNat raw 8 4
        let rec_ := raw.take total
        if (recCheck rec_).isSome then took { d with prog := [gNum d 0, gNum d 1, gNum d 2, sat16 (gNum d 3)] }
        else
          let age := s.now.toNat - subNat rec_ 0x18 8
          if bitOf (subNat rec_ 15 1) 0 && subNat b 0x2C 4 ≠ 0 && decide (1000 * subNat b 0x2C 4 < age) then
            took { d with prog := [gNum d 0, sat16 (gNum d 1), gNum d 2, gNum d 3] }
          else
            let s ← get
            match recAppend s r rec_ with
            | none =>
              engDo fun s => recPut s { r with failed := true }
              engStop stRecordingFailed
            | some s1 =>
              set s1
              let h ← engFree 8
              engWrite d (subNat b 0x38 8 + 16 * gNum d 0) (h ++ (gEntry 0 stOk (subNat rec_ 14 1) total).drop 8)
              let d1 := { d with prog := [gNum d 0 + 1, gNum d 1, gNum d 2, gNum d 3] }
              let _ ← took d1
              if gNum d1 0 = subNat b 0x18 4 then pure (.done stOk (ingestResult d1)) else pure .wait

/-! ## The commands -/

/-- Release tick of a Gather descriptor under PACED: the latest of its strands' FLASH budgets (R198). -/
def gatherRelease (s : State) (d : Desc) (b : Bytes) : Option Nat :=
  (jobOf s d.job).bind fun j =>
    if !j.paced then none
    else
      let lbas :=
        if d.op = 1 then
          match ((engBytes d (subNat b 0x20 8) (8 * subNat b 0x18 4) : EM Bytes).run s).1 with
          | .ok l => (List.range (subNat b 0x18 4)).flatMap fun i =>
              match sampleAt j.inputs (subNat l (8 * i) 8) with
              | some (x, k) => (x.copies.take 1).flatMap fun f => recLbas s f k
              | none => []
          | .error _ => []
        else if d.op = 2 then
          match (j.inputs[subNat b 0x18 4]?).bind fun i => i.copies.head? with
          | some f => dataLbas s.media f 0 f.dataBytes
          | none => []
        else []
      some ((strandBytes s.media lbas).foldl (fun t n => max t (d.ready + budget j 10 (budgetFixed 10) n)) d.ready)
/-- Settle what a Gather action left: a stop ends the job after the descriptor (R71, R200). -/
def gatherSettle (d : Desc) (rel : Option Nat) (r : Except EngErr EngOut × State) : State :=
  match r.1 with
  | .ok .wait => match (engQueue r.2 gatherCode).find? fun x => x.id = d.id with
    | some x => descPut r.2 gatherCode { x with active := true }
    | none => r.2
  | .error e => if e.freeze then freezeSw (descComplete r.2 gatherCode d e.st 0) d.sw d.tile e.st (freezeCause e.st) d.job else descComplete r.2 gatherCode d e.st 0
  | .ok (.done st res) =>
    if d.op = 1 ∧ st ≠ stOk then jobEnd (descComplete r.2 gatherCode d st res) d.job st
    else match rel with
      | none => descComplete r.2 gatherCode d st res
      | some t =>
        let h : Hold := { release := t, cls := 10, batch := tagBatch d.tag, fin := some (gatherCode, d, st, res) }
        descPut { r.2 with engHold := kvSet r.2.engHold gatherCode (((kvGet r.2.engHold gatherCode).getD []) ++ [h]) } gatherCode { d with active := true }
/-- Run a descriptor of the Gather queue that has the operation and the activity asked for. -/
def gatherRun (n : Nat) (p : Desc → Bool) (body : Desc → Bytes → EM EngOut) (s0 : State) : State :=
  let s := engFlush s0 gatherCode
  match (engQueue s gatherCode)[n]? with
  | none => s
  | some d =>
    if !p d || (((kvGet s.engHold gatherCode).getD []).any fun h => h.fin.any fun f => f.2.1.id = d.id) || !(if d.active then engWorks s gatherCode else engStarts s gatherCode) then s
    else
      let b := descPeek s d
      let rel := gatherRelease s d b
      gatherSettle d rel ((do
        engNeed (d.length = 64)
        let b ← engBytes d d.va d.length
        body d b : EM EngOut).run s)
/-- GATHER_READ: a descriptor is started; a full pool at level 3 stops it (R380). -/
def execGatherRead (d : Nat) (s : State) : Out_ :=
  .next (gatherRun d (fun x => x.op = 1 && (x.active || (poolGet s (subNat (descPeek s x) 0x1C 1)).level ≠ 3)) gatherReadBody s)
/-- VERIFY. -/
def execVerify (d : Nat) (s : State) : Out_ := .next (gatherRun d (fun x => x.op = 2) verifyBody s)
/-- INGEST. -/
def execIngest (d : Nat) (s : State) : Out_ := .next (gatherRun d (fun x => x.op = 3 && x.prog.isEmpty) ingestBody s)
/-- INGEST_TAKE. -/
def execIngestTake (d : Nat) (s : State) : Out_ := .next (gatherRun d (fun x => x.op = 3 && x.active && !x.prog.isEmpty) ingestTakeBody s)
/-- GATHER_STRAND_READ_DONE: the codewords of entry `n` of an active descriptor are there, and it goes on (R197). -/
def execGatherStrandReadDone (d n : Nat) (s : State) : Out_ :=
  .next (gatherRun d (fun x => x.active && (x.op = 1 || x.op = 2) && decide (gNum x 0 ≤ n)) (fun x b => if x.op = 1 then gatherReadBody x b else verifyBody x b) s)

end Sys2Proof.Machine
end

