-- ==== Sys2Proof/Machine/Parison.lean ====
section
/-! DEFINITION. Parison (R206-R225, R560): stream configuration, sample reports and the ledger, batch make-up, packing, delivery, and the commands STREAM_OPEN, SUBMIT, CLOSE, REPORT_FORWARD, BATCH_MAKEUP, BATCH_DELIVERY and DELIVERY_COMPLETE. -/

namespace Sys2Proof.Machine

def stStreamConfig : Status := 0x0908
def stRingEntrySmall : Status := 0x0909
def stPackOverflow : Status := 0x090B
def stSampleOversize : Status := 0x090C
def stEmptySlot : Status := 0x090D
def stDuplicate : Status := 0x090E
def stPositionRange : Status := 0x090F
def stStreamHalted : Status := 0x0913
def stStreamNotOpen : Status := 0x0914

/-! ## Streams and their configuration (R206, R207, R218, R224) -/

/-- The instance's part of a stream. -/
def streamAt (s : State) (code : Nat) : Stream := (kvGet s.streams code).getD {}
/-- Store it. -/
def streamPut (s : State) (code : Nat) (x : Stream) : State := { s with streams := kvSet s.streams code x }
/-- Change it. -/
def streamUpd (s : State) (code : Nat) (f : Stream → Stream) : State := streamPut s code (f (streamAt s code))
/-- Configuration of a block's bytes, without its tables. -/
def cfgOf (b : Bytes) : StreamCfg :=
  { b := subNat b 0 4, c := subNat b 4 4, n := subNat b 8 8, first := subNat b 0x10 8, policy := subNat b 0x18 1, tail := subNat b 0x19 1,
    pack := subNat b 0x1A 1, tokenBytes := subNat b 0x1B 1, g := subNat b 0x1C 4, rows := subNat b 0x20 4, rowLen := subNat b 0x24 4,
    imgH := subNat b 0x28 2, imgW := subNat b 0x2A 2, pixBytes := subNat b 0x2C 1, place := subNat b 0x2D 1, oversize := subNat b 0x2E 1,
    padToken := subNat b 0x30 4, sepToken := subNat b 0x34 4, a := subNat b 0x38 4, e := subNat b 0x3C 4, entryBytes := subNat b 0x50 4 }
/-- Data bytes of a shard. -/
def shardBytes (c : StreamCfg) : Nat :=
  if c.pack = 0 then c.b / c.c * c.imgH * c.imgW * c.pixBytes else c.rows / c.c * c.rowLen * c.tokenBytes
/-- A power of two from 8 to 65,536. -/
def ledgerBlockOk (g : Nat) : Bool := (List.range 14).any fun k => g = 2 ^ (k + 3)
/-- Ranges and divisibility (R207, R224); `ns` are the sample counts the job may use. -/
def cfgOk (c : StreamCfg) (b : Bytes) (ns : List Nat) : Bool :=
  decide (1 ≤ c.b ∧ c.b ≤ 65536) && decide (1 ≤ c.c ∧ c.c ≤ 65536) && ns.contains c.n && decide (c.policy ≤ 1) && decide (c.tail ≤ 1) &&
  decide (c.pack ≤ 2) && (c.policy = 0 || ledgerBlockOk c.g) &&
  (if c.pack = 0 then
    c.tokenBytes = 0 && decide (1 ≤ c.imgH ∧ c.imgH ≤ 16384) && decide (1 ≤ c.imgW ∧ c.imgW ≤ 16384) &&
      decide (1 ≤ c.pixBytes ∧ c.pixBytes ≤ 16) && decide (c.place ≤ 1) && decide (c.oversize ≤ 1) && c.b % c.c = 0
   else (c.tokenBytes = 2 || c.tokenBytes = 4) && decide (1 ≤ c.rows) && decide (1 ≤ c.rowLen ∧ c.rowLen ≤ 1048576) && c.rows % c.c = 0) &&
  zeroIn b 0x2F 0x30 && decide (1 ≤ c.a ∧ c.a ≤ 4096) && decide (1 ≤ c.e ∧ c.e ≤ 65536) && c.entryBytes % 64 = 0 && zeroIn b 0x54 0x60 &&
  decide (1 ≤ cfgBpe c)
/-- A route of the stream has a form of R92 and a queue pair bound to the job (R224). -/
def routeOk (s : State) (j : BitVec 16) (r : Nat) : Bool :=
  let w := BitVec.ofNat 64 r
  !routeBad w && (!routeRemote w || (qpGet s (routeQpn w)).job = j)
/-- STREAM_OPEN (R224). -/
def streamOpenBody (code : Nat) (d : Desc) (b : Bytes) : EM EngOut := do
  engNeed (zeroIn b 0x20 0x40)
  let blk ← engBytes d (subNat b 0x18 8) 0x60
  let c := cfgOf blk
  let s ← get
  let old := streamAt s code
  let jn := ((jobOf s d.job).map jobSamples).getD 0
  let ns := if s.recordings.any fun r => r.job = d.job then [jn, liveN] else [jn]
  if old.opened || !cfgOk c blk ns then engStop stStreamConfig
  else
    let a ← engBytes d (subNat blk 0x40 8) (16 * c.a)
    let r ← engBytes d (subNat blk 0x48 8) (32 * c.c)
    let asm := (List.range c.a).map fun i => (subNat a (16 * i) 8, subNat a (16 * i + 8) 1)
    let rings := (List.range c.c).map fun k => (subNat r (32 * k) 8, subNat r (32 * k + 8) 8, subNat r (32 * k + 16) 8, subNat r (32 * k + 24) 8)
    let s ← get
    let okA := (List.range c.a).all fun i => zeroIn a (16 * i + 9) (16 * i + 16) &&
      (let x := subNat a (16 * i) 8; (x = 0 || (bitOf x 63 && routeOk s d.job x)) && decide (subNat a (16 * i + 8) 1 < 6))
    let okR := rings.all fun x => routeOk s d.job x.1 && routeOk s d.job x.2.2.1
    if !okA || !okR then engStop stStreamConfig
    else if c.entryBytes < 64 + ceilDiv (shardBytes c) 32 * 32 + 32 * c.b then engStop stRingEntrySmall
    else
      let keep := if old.job = d.job then old.delivered else []
      let x : Stream := {
        opened := true, cfg := { c with assemblers := asm, rings := rings }, job := d.job, priv := d.priv, ttb := d.ttb, pkr0 := d.pkr0, pkr1 := d.pkr1
        tile := d.tile, sw := d.sw, tag := d.tag, delivered := keep }
      engDo fun s => jobUpd (streamPut s code x) d.job fun j => { j with firstBatch := BitVec.ofNat 64 c.first }
      pure (.done stOk 0)

/-! ## Halting (R222) -/

/-- Halt a stream: its status and the DEVICE_ERROR of R557. -/
def streamHalt (s : State) (code : Nat) (st : Status) (b k : Nat) : State :=
  let x := streamAt s code
  if x.halted.isSome then s
  else deviceError (streamPut s code { x with halted := some st }) st (1 + (code - 192)) (leBytes 8 b ++ leBytes 4 k ++ leBytes 2 x.job.toNat)

/-! ## Reports (R208, R209, R212, R225) -/

def rEpoch (b : Bytes) : Nat := subNat b 0 8
def rPos (b : Bytes) : Nat := subNat b 8 8
def rStatus (b : Bytes) : Nat := subNat b 0x18 2
def rLength (b : Bytes) : Nat := subNat b 0x20 4
def rRoute (b : Bytes) : Nat := subNat b 0x28 8
def rAddr (b : Bytes) : Nat := subNat b 0x30 8
def rHandle (b : Bytes) : Nat := subNat b 0x38 8
/-- Key of a position. -/
def posKey (c : StreamCfg) (e p : Nat) : Nat := e * c.n + p
/-- Instances of the job's stream on this device: code and part. -/
def jobStreams (s : State) (j : BitVec 16) : List (Nat × Stream) := s.streams.filter fun e => e.2.job = j
/-- Blocks of an epoch (R212). -/
def epochBlocks (c : StreamCfg) : Nat := ceilDiv c.n c.g
/-- Reports of an epoch that Parison has received here, over every local instance, that count toward batches under FREE. -/
def freeCount (s : State) (x : Stream) (e : Nat) : Nat :=
  ((jobStreams s x.job).flatMap fun i => i.2.reports.filter fun r => rEpoch r.2.bytes = e && (x.cfg.policy = 0 || rStatus r.2.bytes = 0)).length
/-- Batch being filled of an epoch under FREE (R225). -/
def freeBatch (s : State) (x : Stream) (e : Nat) : Nat := max x.cfg.first (e * cfgBpe x.cfg) + freeCount s x e / x.cfg.b
/-- Assembler that owns a position (R212, R225). -/
def reportOwner (s : State) (x : Stream) (e p : Nat) : Nat :=
  let c := x.cfg
  (if !strictJob s x.job then freeBatch s x e
   else if c.policy = 0 then e * cfgBpe c + p / c.b
   else e * epochBlocks c + p / c.g) % c.a
/-- The local instance of assembler `a`, or its mailbox route and die. -/
def assemblerOf (c : StreamCfg) (a : Nat) : Sum Nat (Word × Nat) :=
  let x := c.assemblers.getD a (0, 0)
  if x.1 = 0 then .inl (192 + x.2) else .inr (BitVec.ofNat 64 x.1, x.2)
/-- Batches of the stream assembled here that are made up or delivered to some consumer. -/
def batchBegun (x : Stream) (b : Nat) : Bool := (x.batches.any fun y => y.b = b) || x.delivered.any fun y => y.1 = b
/-- Some remaining batch can use a report of (e, p) (R209). -/
def posUsable (s : State) (x : Stream) (e p : Nat) : Bool :=
  let c := x.cfg
  let bpe := cfgBpe c
  decide (p < c.n) && decide (c.first < (e + 1) * bpe) &&
  (if !strictJob s x.job then decide (freeBatch s x e < (e + 1) * bpe)
   else c.policy = 1 || (decide (p < bpe * c.b) && decide (c.first ≤ e * bpe + p / c.b)))
/-- Every position of block β of epoch e has a report here. -/
def blockFull (x : Stream) (e β : Nat) : Bool :=
  (rangeFrom (β * x.cfg.g) (min x.cfg.g (x.cfg.n - β * x.cfg.g))).all fun p => (kvGet x.reports (posKey x.cfg e p)).isSome
/-- Accepted reports of a block, in position order. -/
def blockAccepted (x : Stream) (e β : Nat) : List (Nat × Report) :=
  (rangeFrom (β * x.cfg.g) (min x.cfg.g (x.cfg.n - β * x.cfg.g))).filterMap fun p =>
    match kvGet x.reports (posKey x.cfg e p) with
    | some r => if rStatus r.bytes = 0 then some (p, r) else none
    | none => none
/-- Enter a count in an instance's ledger. -/
def ledgerSet (x : Stream) (e β n : Nat) : Stream := { x with ledger := (x.ledger.filter fun l => l.1 ≠ (e, β)) ++ [((e, β), n)] }
/-- The owner of a full block writes its count to the ledger of every assembler (R213 step 1). -/
def ledgerWrite (s : State) (code e β : Nat) : State :=
  let x := streamAt s code
  if x.cfg.policy = 0 || x.counted.contains (e, β) || !strictJob s x.job || !blockFull x e β then s
  else
    let n := (blockAccepted x e β).length
    let s1 := streamPut s code { x with counted := x.counted ++ [(e, β)] }
    (List.range x.cfg.a).foldl (fun s a =>
      match assemblerOf x.cfg a with
      | .inl k => streamUpd s k fun y => ledgerSet y e β n
      | .inr (r, die) => send s (.stream r die (.count e β n))) s1
/-- A report reaches the instance `code`, its owner: SUCCESS, or why it is not kept (R209). -/
def reportTake (s : State) (code : Nat) (r : Report) : Status × State :=
  let x := streamAt s code
  let e := rEpoch r.bytes
  let p := rPos r.bytes
  let key := posKey x.cfg e p
  if x.halted.isSome then (stStreamHalted, s)
  else if (jobStreams s x.job).any fun i => (kvGet i.2.reports key).isSome then (stDuplicate, s)
  else if !posUsable s x e p then (stPositionRange, s)
  else
    let free := !strictJob s x.job
    let early := free && (rStatus r.bytes = 0 || x.cfg.policy = 0) &&
      (List.range p).any fun q => !(jobStreams s x.job).any fun i => (kvGet i.2.reports (posKey x.cfg e q)).isSome
    let s1 := engCount s (0x3000 + 0x100 * (code - 192) + 16) 1
    let s2 := if rStatus r.bytes ≠ 0 then engCount s1 (0x3000 + 0x100 * (code - 192) + 24) 1 else s1
    let s3 := streamPut s2 code { x with reports := kvSet x.reports key { r with ord := x.nextOrd, batch := freeBatch s x e }, nextOrd := x.nextOrd + 1 }
    let s4 := if early then tdcCount s3 (1 + (code - 192)) else s3
    (stOk, ledgerWrite s4 code e (p / x.cfg.g))
/-- A report is posted at instance `code`: taken there, by another local instance, or forwarded (R212). -/
def reportPost (s : State) (code : Nat) (r : Report) : Status × State :=
  let x := streamAt s code
  if x.halted.isSome then (stStreamHalted, s)
  else if x.cfg.n ≤ rPos r.bytes then (stPositionRange, s)
  else match assemblerOf x.cfg (reportOwner s x (rEpoch r.bytes) (rPos r.bytes)) with
    | .inl k => if (streamAt s k).job = x.job ∧ (streamAt s k).cfg.b ≠ 0 then reportTake s k r else reportTake s code r
    | .inr (route, die) => (stOk, send s (.stream route die (.report r.bytes)))
/-- Fields of a report that the device itself reads are in form (R208). -/
def reportOk (s : State) (j : BitVec 16) (b : Bytes) : Bool :=
  subNat b 0x24 4 = 0 && routeOk s j (rRoute b) && (!bitOf (rRoute b) 63 || rHandle b = 0)
/-- SUBMIT (R208, R209, R223, R224). -/
def submitBody (code : Nat) (d : Desc) (b : Bytes) : EM EngOut := do
  let count := subNat b 0x18 4
  let va := subNat b 0x20 8
  engNeed (decide (1 ≤ count ∧ count ≤ 1024) && subNat b 0x1C 4 = 0 && va % 64 = 0 && zeroIn b 0x28 0x40)
  let x := streamAt (← get) code
  if !x.opened || x.closing.isSome || x.job ≠ d.job then engStop stStreamNotOpen
  else
    let raw ← engBytes d va (64 * count)
    let reps := blocksOf 64 count raw
    let s ← get
    engNeed (reps.all (reportOk s d.job))
    let rel := match (jobOf s d.job).filter fun j => j.paced with
      | some j => d.ready + budget j 9 500 0
      | none => 0
    let mk := fun (b : Bytes) => ({ bytes := b, tag := d.tag, priv := d.priv, ttb := d.ttb, pkr0 := d.pkr0, pkr1 := d.pkr1, tile := d.tile, sw := d.sw, job := d.job, ready := rel } : Report)
    let r := reps.foldl (fun (acc : Status × Nat × State) b =>
      let y := reportPost acc.2.2 code (mk b)
      (if acc.1 = stOk then y.1 else acc.1, acc.2.1 + (if y.1 = stOk then 0 else 1), y.2)) (stOk, 0, s)
    set r.2.2
    pure (.done r.1 (BitVec.ofNat 64 r.2.1))

/-! ## Make-up (R210, R211, R213, R225) -/

/-- A place of a batch's sample list: its position where it has one, and the report. -/
abbrev Place := Option Nat × Option Report
/-- Accepted counts of the blocks of an epoch from block 0 up, until the prefix exceeds `rank` or the blocks end (R213 step 2); none while a needed count is missing. -/
def prefixBlocks (x : Stream) (e rank : Nat) : Nat → Nat → Nat → Option (List (Nat × Nat × Nat))
  | 0, _, _ => some []
  | f + 1, β, sum =>
    if epochBlocks x.cfg ≤ β ∨ rank < sum then some []
    else match x.ledger.find? fun l => l.1 = (e, β) with
      | none => none
      | some l => (prefixBlocks x e rank f (β + 1) (sum + l.2)).map fun r => (β, sum, l.2) :: r
/-- Reports of ranks `lo` to `hi` within a block, from its owner (R213 step 3): held here, in another local instance, fetched, or asked for. -/
def blockRanks (s : State) (code e β lo hi : Nat) : Option (List (Nat × Report)) × State :=
  let x := streamAt s code
  let owner := (e * epochBlocks x.cfg + β) % x.cfg.a
  match assemblerOf x.cfg owner with
  | .inl k => (some (((blockAccepted (streamAt s k) e β).drop lo).take (hi + 1 - lo)), s)
  | .inr (route, die) =>
    let mine := x.fetched.filter fun r => decide (posKey x.cfg e (β * x.cfg.g) ≤ r.1 ∧ r.1 < posKey x.cfg e (β * x.cfg.g + x.cfg.g))
    if hi + 1 - lo ≤ mine.length then (some ((mine.take (hi + 1 - lo)).map fun r => (r.1 - posKey x.cfg e 0, r.2)), s)
    else if x.asked.contains (e, β, lo) then (none, s)
    else
      let self := (x.cfg.assemblers.findIdx? fun a => a.1 = 0 && 192 + a.2 = code).getD 0
      (none, send (streamPut s code { x with asked := x.asked ++ [(e, β, lo)] }) (.stream route die (.request self e β lo hi)))
/-- The sample list of batch b at instance `code`, once every report of it is there (R210, R211, R225). -/
def batchList (s : State) (code b : Nat) : Option (List Place) × State :=
  let x := streamAt s code
  let c := x.cfg
  let e := b / cfgBpe c
  let j := b % cfgBpe c
  if !strictJob s x.job then
    let rs := ((jobStreams s x.job).flatMap fun i => i.2.reports.filter fun r => rEpoch r.2.bytes = e)
    let mine := (x.reports.filter fun r => r.2.batch = b && rEpoch r.2.bytes = e && (c.policy = 0 || rStatus r.2.bytes = 0))
    let sorted := mine.foldl (fun (acc : List (Nat × Report)) r => (acc.filter fun q => decide (q.2.ord < r.2.ord)) ++ [r] ++ acc.filter fun q => decide (r.2.ord < q.2.ord)) []
    if mine.length < c.b ∧ rs.length < c.n then (none, s)
    else (some (((sorted.take c.b).map fun r => (some (rPos r.2.bytes), some r.2)) ++ List.replicate (c.b - mine.length) (none, none)), s)
  else if c.policy = 0 then
    let ps := (rangeFrom (j * c.b) c.b).map fun p => if c.n ≤ p then (some p, none) else (some p, kvGet x.reports (posKey c e p))
    (if ps.all fun p => p.2.isSome || (p.1.any fun q => decide (c.n ≤ q)) then some ps else none, s)
  else
    let lo := j * c.b
    let hi := (j + 1) * c.b - 1
    match prefixBlocks x e hi (epochBlocks c + 1) 0 0 with
    | none => (none, s)
    | some bs =>
      let r := bs.foldl (fun (acc : Option (List Place) × State) y =>
        -- ranks of this block that lie in [lo, hi]
        let a := max lo y.2.1
        let z := min (hi + 1) (y.2.1 + y.2.2)
        if z ≤ a then acc
        else
          let q := blockRanks acc.2 code e y.1 (a - y.2.1) (z - 1 - y.2.1)
          (match acc.1, q.1 with
            | some l, some m => some (l ++ m.map fun r => (some r.1, some r.2))
            | _, _ => none, q.2)) (some [], s)
      (r.1.map fun l => l ++ List.replicate (c.b - l.length) (none, none), r.2)

/-! ## The device's own remote accesses -/

/-- Post a work request of the device's own on a route; its number in the sinks, or none where the send queue is full. -/
def sinkPost (s : State) (route : Word) (w : Wreq) : Option Nat × State :=
  let q := routeQpn route
  if sqFull (qpGet s q) then (none, s)
  else
    let k := s.nextOp
    let s1 := { s with sinks := kvSet s.sinks k {}, nextOp := k + 1 }
    (some k, sqPost s1 q { w with sink := some k, key := routeKey route })
/-- Take the outcome of a finished access: its status and bytes, and the access forgotten. -/
def sinkTake (s : State) (k : Nat) : Option (Status × Mem) × State :=
  match kvGet s.sinks k with
  | some x => match x.status with
    | some st => (some (st, x.data), { s with sinks := kvDel s.sinks k })
    | none => (none, s)
  | none => (some (stRemoteAborted, []), s)
/-- A work request of a stream: it carries batch b with Parison's ORIGIN (R50). -/
def streamWr (s : State) (x : Stream) (b : Nat) : Wreq :=
  { tag := mkTag (BitVec.ofNat 64 b) 0 0 0 5, job := x.job, strict := strictJob s x.job, priv := x.priv, ttb := x.ttb, pkr0 := x.pkr0, pkr1 := x.pkr1, tile := x.tile, sw := x.sw }
/-- A read through held translation state: status and bytes. -/
def heldRead (s : State) (ttb : Nat) (p0 p1 : Word) (priv : BitVec 2) (job : BitVec 16) (va len : Nat) : Status × Mem × State :=
  match xlHeld s ttb p0.toNat p1.toNat priv.toNat va len .read with
  | .ok ps =>
    match lowest (piecesExc s { ({} : Ctx) with priv := priv, job := job } .read true va ps) with
    | some e => (e.st, [], s)
    | none => piecesRead s ps
  | .bad _ (.fault st) | .bad _ (.deny st) => (st, [], s)
  | .bad _ (.ok _ _) => (stOk, [], s)
/-- A write through held translation state. -/
def heldWriteVa (s : State) (ttb : Nat) (p0 p1 : Word) (priv : BitVec 2) (job : BitVec 16) (va : Nat) (b : Bytes) : Status × State :=
  match xlHeld s ttb p0.toNat p1.toNat priv.toNat va b.length .write with
  | .ok ps =>
    match lowest (piecesExc s { ({} : Ctx) with priv := priv, job := job } .write true va ps) with
    | some e => (e.st, s)
    | none => piecesWrite s ps (memOfBytes 0 b)
  | .bad _ (.fault st) | .bad _ (.deny st) => (st, s)
  | .bad _ (.ok _ _) => (stOk, s)

/-! ## Payloads and packing (R214-R218) -/

/-- Payload of a report: pending, a failure, or its bytes. -/
def payload (s : State) (code b : Nat) (r : Report) : Option (Status × Bytes) × State :=
  let n := rLength r.bytes
  let x := streamAt s code
  let key := posKey x.cfg (rEpoch r.bytes) (rPos r.bytes)
  if n = 0 ∨ rStatus r.bytes ≠ 0 then (some (stOk, []), s)
  else if !bitOf (rRoute r.bytes) 63 then
    let q := heldRead s r.ttb r.pkr0 r.pkr1 r.priv r.job (rAddr r.bytes) n
    (some (q.1, memBytes q.2.1 0 n), q.2.2)
  else match kvGet x.pulls key with
    | some k =>
      match kvGet s.sinks k with
      | some y => (y.status.map fun st => (st, memBytes y.data 0 n), s)
      | none => (some (stRemoteAborted, []), s)
    | none =>
      let p := sinkPost s (BitVec.ofNat 64 (rRoute r.bytes)) { streamWr s x b with opcode := 3, offset := rAddr r.bytes, length := n, priv := r.priv, ttb := r.ttb, pkr0 := r.pkr0, pkr1 := r.pkr1 }
      match p.1 with
      | some k => (none, streamUpd p.2 code fun y => { y with pulls := kvSet y.pulls key k })
      | none => (none, p.2)
/-- Release the handle of a report after its payload is copied (R208). -/
def payloadFree (s : State) (code : Nat) (r : Report) : State :=
  if rHandle r.bytes = 0 then s
  else
    let h := BitVec.ofNat 64 (rHandle r.bytes)
    let f := handleRelease s h
    match f.1 with
    | .stale => deviceError f.2 stMalformed (1 + (code - 192)) (leBytes 8 h.toNat ++ leBytes 6 (rPos r.bytes))
    | _ => f.2
/-- A sample as it is packed: record fields, the first row or slot it occupies. -/
structure Packed where
  sampleId : Nat := 0
  pos : Nat := 0
  status : Nat := 0
  flags : Nat := 0
  conceal : Nat := 0
  /-- Row or slot, or none where it occupies none. -/
  row : Option Nat := none
  start : Nat := 0
  len : Nat := 0
  empty : Bool := false
  deriving DecidableEq, Repr
/-- A sample record (R217). -/
def packedBytes (p : Packed) : Bytes :=
  leBytes 8 p.sampleId ++ leBytes 6 p.pos ++ leBytes 2 p.status ++ leBytes 2 p.flags ++ leBytes 2 p.conceal ++ leBytes 4 (p.row.getD 0) ++ leBytes 4 p.start ++ leBytes 4 p.len
/-- What every record takes from its report; a report that is not accepted is masked. -/
def packedOf (b : Bytes) : Packed :=
  let m := b2n (rStatus b ≠ 0)
  { sampleId := subNat b 0x10 8, pos := rPos b, status := rStatus b, flags := 2 * m + 16 * b2n (subNat b 0x1A 2 ≠ 0), conceal := subNat b 0x1A 2 }
/-- A free number below 2^48 for the position of an empty slot that has none (log 30). -/
def freePos (s : State) : Nat × State := ((Config.freeWord s.freeCtr).toNat % 2 ^ 48, { s with freeCtr := s.freeCtr + 1 })
/-- Placement of an image along one dimension (R215): slot offset, image offset, length. -/
def fit (slot img place : Nat) : Nat × Nat × Nat := if img ≤ slot then ((slot - img) / 2 * place, 0, img) else (0, (img - slot) / 2, slot)
/-- Copy rows of an image into a shard's array. -/
def imgCopy (c : StreamCfg) (w : Nat) (pay : Array Byte) (base : Nat) (v : Nat × Nat × Nat) (h : Nat × Nat × Nat) (out : Array Byte) : Array Byte :=
  (List.range v.2.2).foldl (fun out y =>
    (List.range (h.2.2 * c.pixBytes)).foldl (fun out i =>
      out.setIfInBounds (base + ((v.1 + y) * c.imgW + h.1) * c.pixBytes + i) (pay.getD (((v.2.1 + y) * w + h.2.1) * c.pixBytes + i) 0)) out) out
/-- IMAGE packing: the records in list order, and the batch's data (R214, R215). -/
def packImage (c : StreamCfg) (s : State) (l : List (Place × Bytes)) : List Packed × Array Byte × State :=
  let slot := c.imgH * c.imgW * c.pixBytes
  l.zipIdx.foldl (fun (acc : List Packed × Array Byte × State) y =>
    match y.1.1.2 with
    | none =>
      let f := match y.1.1.1 with
        | some p => (p, acc.2.2)
        | none => freePos acc.2.2
      (acc.1 ++ [{ pos := f.1, status := stEmptySlot.toNat, row := some y.2, empty := true }], acc.2.1, f.2)
    | some r =>
      let p := { packedOf r.bytes with row := some y.2 }
      let h := subNat r.bytes 0x1C 2
      let w := subNat r.bytes 0x1E 2
      if rStatus r.bytes ≠ 0 then (acc.1 ++ [p], acc.2.1, acc.2.2)
      else if (c.imgH < h ∨ c.imgW < w) ∧ c.oversize = 1 then
        (acc.1 ++ [{ p with status := stSampleOversize.toNat, flags := p.flags + 2 }], acc.2.1, acc.2.2)
      else
        let need := h * w * c.pixBytes
        let fr := freeCells acc.2.2 (need - y.1.2.length)
        let pay := (y.1.2 ++ memBytes fr.1 0 (need - y.1.2.length)).toArray
        let v := fit c.imgH h c.place
        let z := fit c.imgW w c.place
        let crop := if c.imgH < h ∨ c.imgW < w then 8 else 0
        (acc.1 ++ [{ p with flags := p.flags + 1 + crop, start := v.1 * 2 ^ 16 + z.1, len := v.2.2 * 2 ^ 16 + z.2.2 }],
          imgCopy c w pay (y.2 * slot) v z acc.2.1, fr.2)) ([], Array.replicate (c.b * slot) 0, s)
/-- Tokens of a payload. -/
def payTokens (c : StreamCfg) (b : Bytes) : List Nat := (blocksOf c.tokenBytes (b.length / c.tokenBytes) b).map leNat
/-- CONCAT packing: the records, the tokens of the stream that fit, in order (R214). -/
def packConcat (c : StreamCfg) (l : List (Place × Bytes)) : List Packed × List Nat :=
  l.foldl (fun (acc : List Packed × List Nat) y =>
    match y.1.2 with
    | none => acc
    | some r =>
      let p := packedOf r.bytes
      if rStatus r.bytes ≠ 0 then (acc.1 ++ [p], acc.2)
      else
        let u := payTokens c y.2 ++ (if c.sepToken = 0xFFFFFFFF then [] else [c.sepToken])
        let at_ := acc.2.length
        let t := u.take (c.rows * c.rowLen - at_)
        let cut := if t.length < u.length then 4 else 0
        (acc.1 ++ [if t.isEmpty then { p with flags := p.flags + cut }
          else { p with flags := p.flags + 1 + cut, row := some (at_ / c.rowLen), start := at_ % c.rowLen, len := t.length }], acc.2 ++ t)) ([], [])
/-- FIRSTFIT packing: the records and the rows (R214). -/
def packFirstFit (c : StreamCfg) (l : List (Place × Bytes)) : List Packed × List (List Nat) :=
  l.foldl (fun (acc : List Packed × List (List Nat)) y =>
    match y.1.2 with
    | none => acc
    | some r =>
      let p := packedOf r.bytes
      if rStatus r.bytes ≠ 0 then (acc.1 ++ [p], acc.2)
      else
        let all := payTokens c y.2
        let u := all.take c.rowLen
        let cut := if u.length < all.length then 4 else 0
        match acc.2.findIdx? fun row => decide (row.length + u.length ≤ c.rowLen) with
        | some q => (acc.1 ++ [{ p with flags := p.flags + 1 + cut, row := some q, start := (acc.2.getD q []).length, len := u.length }],
            acc.2.modify q fun row => row ++ u)
        | none => (acc.1 ++ [{ p with status := stPackOverflow.toNat, flags := p.flags + cut }], acc.2)) ([], List.replicate c.rows [])
/-- Token rows as bytes, padded; whether a pad token is present. -/
def rowsBytes (c : StreamCfg) (rows : List (List Nat)) : Bytes × Bool :=
  (rows.flatMap fun r => (r ++ List.replicate (c.rowLen - r.length) c.padToken).flatMap fun t => leBytes c.tokenBytes t, rows.any fun r => decide (r.length < c.rowLen))
/-- Cut a token stream into rows. -/
def rowsOf (c : StreamCfg) (t : List Nat) : List (List Nat) := (List.range c.rows).map fun q => (t.drop (q * c.rowLen)).take c.rowLen
/-- Put records in position order, empty slots last in slot order (R218). -/
def packSort (l : List Packed) : List Packed :=
  let key : Packed → Nat := fun p => if p.empty then 2 ^ 64 + p.row.getD 0 else p.pos
  l.foldl (fun acc p =>
    (acc.filter fun q => decide (key q ≤ key p)) ++ [p] ++ acc.filter fun q => !decide (key q ≤ key p)) []
/-- Build the ring entries of batch b (R216-R219). -/
def packShards (c : StreamCfg) (b : Nat) (recs : List Packed) (data : Nat → Bytes × Bool) : List Shard :=
  let per := (if c.pack = 0 then c.b else c.rows) / c.c
  let j := b % cfgBpe c
  (List.range c.c).map fun k =>
    let mine := packSort (recs.filter fun p => (p.row.map (· / per)).getD 0 = k)
    let d := data k
    let off := 64 + ceilDiv d.1.length 32 * 32
    let pad := d.2 || mine.any fun p => p.empty || bitOf p.flags 1
    let fl := b2n (j = 0) + 2 * b2n (j + 1 = cfgBpe c) + 4 * b2n pad
    { header := leBytes 8 b ++ leBytes 8 (b / cfgBpe c) ++ leBytes 4 k ++ leBytes 4 c.c ++ leBytes 4 mine.length ++ leBytes 4 d.1.length ++ leBytes 4 off ++
        leBytes 4 (mine.filter fun p => bitOf p.flags 0).length ++ leBytes 2 fl ++ zeros 22
      body := d.1 ++ zeros (off - 64 - d.1.length) ++ mine.flatMap packedBytes
      imm := BitVec.ofNat 64 (b % 2 ^ 40 + k * 2 ^ 40 + fl * 2 ^ 56) }
/-- Pack a list of places and payloads into shards (R214). -/
def packBatch (s : State) (c : StreamCfg) (b : Nat) (l : List (Place × Bytes)) : List Shard × State :=
  let per := shardBytes c
  if c.pack = 0 then
    let r := packImage c s l
    (packShards c b r.1 (fun k => ((r.2.1.extract (k * per) ((k + 1) * per)).toList, false)), r.2.2)
  else
    let r := if c.pack = 1 then (let q := packConcat c l; (q.1, rowsOf c q.2)) else packFirstFit c l
    let rows := c.rows / c.c
    (packShards c b r.1 (fun k => rowsBytes c ((r.2.drop (k * rows)).take rows)), s)

/-! ## CLOSE (R223) -/

/-- Batches assembled at an instance whose lists may be complete: made up, or with reports here. -/
def openBatches (s : State) (code : Nat) : List Nat :=
  let x := streamAt s code
  let c := x.cfg
  let es := (((jobStreams s x.job).flatMap fun i => i.2.reports.map fun r => rEpoch r.2.bytes)).eraseDups
  let all := es.flatMap fun e => rangeFrom (e * cfgBpe c) (cfgBpe c)
  all.filter fun b => decide (c.first ≤ b) && (match assemblerOf c (b % c.a) with
    | .inl k => k = code
    | .inr _ => false)
/-- Every shard of batch b was delivered. -/
def allDelivered (x : Stream) (b : Nat) : Bool := (List.range x.cfg.c).all fun k => x.delivered.contains (b, k)
/-- The first batch assembled here from `b` up that is not delivered. -/
def firstLeft (x : Stream) (code : Nat) : Nat → Nat → Nat
  | 0, b => b
  | f + 1, b =>
    let mine := match assemblerOf x.cfg (b % x.cfg.a) with
      | .inl k => decide (k = code)
      | .inr _ => false
    if mine && !allDelivered x b then b else firstLeft x code f (b + 1)
/-- Every batch assembled here whose list is fully reported has been delivered; or the stream is halted. -/
def closeReady (s : State) (code : Nat) : Bool :=
  let x := streamAt s code
  x.halted.isSome || (openBatches s code).all fun b => allDelivered x b || (batchList s code b).1.isNone
/-- End the instance's part of the stream; the recording of a live stream is sealed (R223, R228). -/
def closeEnd (s : State) (code : Nat) : Word × State :=
  let x := streamAt s code
  let r := firstLeft x code ((x.delivered.length + 2) * (x.cfg.a + 1)) x.cfg.first
  (BitVec.ofNat 64 r, recsSeal (streamPut s code { x with opened := false, closing := none }) x.job)
/-- A waiting CLOSE completes when it can. -/
def closeCheck (s : State) (code : Nat) : State :=
  match (streamAt s code).closing with
  | none => s
  | some id =>
    match (engQueue s code).find? fun d => d.id = id with
    | none => s
    | some d =>
      if closeReady s code then
        let r := closeEnd s code
        engFinish r.2 code d stOk r.1 500 0
      else s
/-- CLOSE (R223). -/
def closeBody (code : Nat) (d : Desc) (b : Bytes) : EM EngOut := do
  engNeed (zeroIn b 0x18 0x40)
  let x := streamAt (← get) code
  if !x.opened || x.closing.isSome || x.job ≠ d.job then engStop stStreamNotOpen
  else
    engDo fun s => descPut (streamPut s code { x with closing := some d.id }) code { d with active := true }
    let s ← get
    if closeReady s code then
      let r := closeEnd s code
      set r.2
      pure (.done stOk r.1)
    else pure .wait

/-! ## The commands -/

/-- Fixed budget of a Parison descriptor (R63, R560). -/
def parisonBudget (_ : Bytes) : Nat × Nat := (500, 0)
/-- STREAM_OPEN. -/
def execStreamOpen (code : BitVec 8) (s : State) : Out_ := .next (engStart 5 code.toNat 1 64 parisonBudget (streamOpenBody code.toNat) s)
/-- SUBMIT. -/
def execSubmit (code : BitVec 8) (s : State) : Out_ := .next (closeCheck (engStart 5 code.toNat 2 64 parisonBudget (submitBody code.toNat) s) code.toNat)
/-- CLOSE. -/
def execClose (code : BitVec 8) (s : State) : Out_ := .next (engStart 5 code.toNat 3 64 parisonBudget (closeBody code.toNat) s)
/-- The stream's answer to another assembler's request (R213 step 3). -/
def streamAnswer (s : State) (code asker e β lo hi : Nat) : State :=
  let x := streamAt s code
  let rs := ((blockAccepted x e β).drop lo).take (hi + 1 - lo)
  match assemblerOf x.cfg asker with
  | .inl _ => s
  | .inr (route, die) => send s (.stream route die (.answer (rs.map fun r => r.2.bytes)))
/-- REPORT_FORWARD (R212, R213): a report, a ledger count, a request or an answer arrives from another assembler of the stream. -/
def execReportForward (code : BitVec 8) (m : StreamMsg) (s : State) : Out_ :=
  let k := code.toNat
  let x := streamAt s k
  .next (if !engIs 5 k || x.cfg.b = 0 then s
    else match m with
      | .report b =>
        (reportTake s k { bytes := sub b 0 64, tag := x.tag, priv := x.priv, ttb := x.ttb, pkr0 := x.pkr0, pkr1 := x.pkr1, tile := x.tile, sw := x.sw, job := x.job }).2
      | .count e β n => streamPut s k (ledgerSet x e β n)
      | .request a e β lo hi => streamAnswer s k a e β lo hi
      | .answer rs => streamPut s k { x with fetched := rs.foldl (fun f b =>
          kvSet f (posKey x.cfg (rEpoch b) (rPos b)) { bytes := sub b 0 64, tag := x.tag, priv := x.priv, ttb := x.ttb, pkr0 := x.pkr0, pkr1 := x.pkr1, tile := x.tile, sw := x.sw, job := x.job }) x.fetched })
/-- Fetch the payloads of a list: pending, a failure, or the list with its payloads. -/
def payloads (s : State) (code b : Nat) (l : List Place) : Option (Status × List (Place × Bytes)) × State :=
  l.foldl (fun (acc : Option (Status × List (Place × Bytes)) × State) p =>
    match p.2 with
    | none => (acc.1.map fun a => (a.1, a.2 ++ [(p, [])]), acc.2)
    | some r =>
      let y := payload acc.2 code b r
      (match acc.1, y.1 with
        | some a, some z => some (if a.1 = stOk then z.1 else a.1, a.2 ++ [(p, z.2)])
        | _, _ => none, y.2)) (some (stOk, []), s)
/-- BATCH_MAKEUP (R213-R219): batch b is made up and packed at its assembler. -/
def execBatchMakeup (code : BitVec 8) (b : Word) (s : State) : Out_ :=
  let k := code.toNat
  let n := b.toNat
  let x := streamAt s k
  let mine := match assemblerOf x.cfg (n % x.cfg.a) with
    | .inl c => decide (c = k)
    | .inr _ => false
  .next (if !engIs 5 k || !engWorks s k || !x.opened || x.halted.isSome || !mine || decide (n < x.cfg.first) || (x.batches.any fun y => y.b = n) || (allDelivered x n && !x.again.contains n) then s
    else
      let l := batchList s k n
      match l.1 with
      | none => l.2
      | some places =>
        let p := payloads l.2 k n places
        match p.1 with
        | none => p.2
        | some (st, pays) =>
          if st ≠ stOk then closeCheck (streamHalt p.2 k st n 0xFFFFFFFF) k
          else
            let rs := places.filterMap (·.2)
            let s1 := rs.foldl (fun s r => payloadFree s k r) p.2
            let sh := packBatch s1 x.cfg n pays
            let rel := match (jobOf s x.job).filter fun j => j.paced with
              | some j => rs.foldl (fun t r => max t r.ready) 0 + budget j 9 500 (3 * (x.cfg.c * shardBytes x.cfg))
              | none => 0
            let y := streamAt sh.2 k
            if allDelivered y n then streamPut sh.2 k { y with again := y.again.filter fun b => b ≠ n }
            else streamPut sh.2 k { y with batches := y.batches ++ [{ b := n, shards := sh.1, release := rel, positions := rs.map fun r => rPos r.bytes }] })
/-- The credit word of consumer k has reached what batch b needs (R220): yes, not yet, or a failed read. -/
def creditOk (s : State) (code b k : Nat) : Option Status × Bool × State :=
  let x := streamAt s code
  let need := b + 1 - x.cfg.first
  let ring := x.cfg.rings.getD k (0, 0, 0, 0)
  if need ≤ x.cfg.e then (none, true, s)
  else if !bitOf ring.2.2.1 63 then
    let r := heldRead s x.ttb x.pkr0 x.pkr1 x.priv x.job ring.2.2.2 8
    if r.1 = stOk then (none, decide (need - x.cfg.e ≤ memNat r.2.1 0 8), r.2.2) else (some r.1, false, r.2.2)
  else match kvGet x.credits k with
    | none =>
      let p := sinkPost s (BitVec.ofNat 64 ring.2.2.1) { streamWr s x b with opcode := 3, offset := ring.2.2.2, length := 8 }
      match p.1 with
      | some q => (none, false, streamUpd p.2 code fun y => { y with credits := kvSet y.credits k q })
      | none => (none, false, p.2)
    | some q =>
      let t := sinkTake s q
      match t.1 with
      | none => (none, false, t.2)
      | some (st, m) =>
        let s1 := streamUpd t.2 code fun y => { y with credits := kvDel y.credits k }
        if st = stOk then (none, decide (need - x.cfg.e ≤ memNat m 0 8), s1) else (some st, false, s1)
/-- Every ingested sample of the batch is durable on flash (R228). -/
def batchDurable (s : State) (x : Stream) (y : Batch) : Bool × State :=
  match s.recordings.find? fun r => r.job = x.job with
  | none => (true, s)
  | some r => y.positions.foldl (fun (acc : Bool × State) p => let d := recDurable acc.2 r p; (acc.1 && d.1, d.2)) (true, s)
/-- Bytes of a shard's entry. -/
def shardLen (h : Shard) : Nat := h.header.length + h.body.length
/-- Send the next part of a shard: data and records first, then the header with its immediate (R219). -/
def shardSend (s : State) (code : Nat) (h : Shard) (x : Sending) : State :=
  let st := streamAt s code
  let ring := st.cfg.rings.getD x.k (0, 0, 0, 0)
  let off := ring.2.1 + x.b % st.cfg.e * st.cfg.entryBytes
  let put := fun (s : State) (y : Sending) => streamUpd s code fun z => { z with sending := (z.sending.filter fun q => q.b ≠ x.b ∨ q.k ≠ x.k) ++ [y] }
  if !bitOf ring.1 63 then
    let a := heldWriteVa s st.ttb st.pkr0 st.pkr1 st.priv st.job (off + 64) h.body
    let b := if a.1 = stOk then heldWriteVa a.2 st.ttb st.pkr0 st.pkr1 st.priv st.job off h.header else a
    if b.1 = stOk then put b.2 { x with phase := 1 } else closeCheck (streamHalt b.2 code b.1 x.b x.k) code
  else
    let w := streamWr s st x.b
    let part := if x.phase = 0 then { w with opcode := 1, offset := off + 64, length := h.body.length, win := some 0, data := memOfBytes 0 h.body }
      else { w with opcode := 2, offset := off, length := 64, win := some 0, data := memOfBytes 0 h.header, value := h.imm }
    let p := sinkPost s (BitVec.ofNat 64 ring.1) part
    match p.1 with
    | some q => put p.2 { x with sink := some q }
    | none => p.2
/-- BATCH_DELIVERY (R220, R66): delivery of shard k of batch b begins, or its header follows its data. -/
def execBatchDelivery (code : BitVec 8) (b : Word) (k : Nat) (s : State) : Out_ :=
  let c := code.toNat
  let n := b.toNat
  let x := streamAt s c
  let earlier := (jobStreams s x.job).all fun i => i.2.batches.all fun y => decide (n ≤ y.b) || i.2.delivered.contains (y.b, k)
  .next (match x.batches.find? fun y => y.b = n with
    | none => s
    | some y =>
      match y.shards[k]? with
      | none => s
      | some h =>
        if !engIs 5 c || !engWorks s c || x.halted.isSome || x.delivered.contains (n, k) || !earlier then s
        else match x.sending.find? fun q => q.b = n && q.k = k with
          | some q =>
            -- the data is placed: the header follows
            match q.phase, q.sink with
            | 0, some i =>
              let t := sinkTake s i
              match t.1 with
              | none => s
              | some (st, _) => if st = stOk then shardSend t.2 c h { q with phase := 1, sink := none } else closeCheck (streamHalt t.2 c st n k) c
            | _, _ => s
          | none =>
            let j := (jobOf s x.job).filter fun j => j.paced
            let start := (j.map fun j => max y.release (if j.period = 0 then 0 else j.t0.toNat + (n - j.firstBatch.toNat + 1) * j.period.toNat)).getD 0
            if j.isSome && decide (s.pace.tick.toNat < start) then s
            else
              let d := batchDurable s x y
              if !d.1 then d.2
              else
                let r := creditOk d.2 c n k
                match r.1 with
                | some st => closeCheck (streamHalt r.2.2 c st n k) c
                | none =>
                  if !r.2.1 then r.2.2
                  else
                    let route := BitVec.ofNat 64 ((x.cfg.rings.getD k (0, 0, 0, 0)).1)
                    let links := if routeRemote route then ((qpGet s (routeQpn route)).links.getD 0) else 0
                    let rel := (j.map fun j => start + budget j 8 700 (921600 * links + 66 * shardLen h)).getD 0
                    shardSend r.2.2 c h { b := n, k := k, release := rel })
/-- DELIVERY_COMPLETE (R221, R222): the header's RPUTI is complete, and (b, k) is recorded as delivered; a final failure halts the stream. -/
def execDeliveryComplete (code : BitVec 8) (b : Word) (k : Nat) (st : Status) (s : State) : Out_ :=
  let c := code.toNat
  let n := b.toNat
  let x := streamAt s c
  .next (match x.sending.find? fun q => q.b = n && q.k = k, (x.batches.find? fun y => y.b = n).bind fun y => y.shards[k]? with
    | some q, some h =>
      let t := match q.sink with
        | some i => sinkTake s i
        | none => (some (stOk, []), s)
      match t.1 with
      | none => s
      | some (r, _) =>
        if q.phase ≠ 1 ∨ r ≠ st ∨ s.pace.tick.toNat < q.release then s
        else
          let y := streamAt t.2 c
          let rest := y.sending.filter fun z => z.b ≠ n ∨ z.k ≠ k
          if st ≠ stOk then closeCheck (streamHalt (streamPut t.2 c { y with sending := rest }) c st n k) c
          else
            let z := { y with sending := rest, delivered := y.delivered ++ [(n, k)] }
            let whole := allDelivered z n
            let s1 := streamPut t.2 c { z with batches := if whole then z.batches.filter fun b => b.b ≠ n else z.batches }
            let s2 := engCount (engCount s1 (0x3000 + 0x100 * (c - 192)) 1) (0x3000 + 0x100 * (c - 192) + 8) (shardLen h)
            let s3 := if whole then replayPassed (jobUpd s2 x.job fun j => { j with delivered := j.delivered + 1 }) x.job n else s2
            let shards := ((x.batches.find? fun y => y.b = n).map (·.shards)).getD []
            closeCheck (if whole && s3.flt.lsState = 2 && s3.flt.lsJob = x.job then
              lsCheck (lsOwn s3 (2 ^ 60 + n) b ((shake (shards.flatMap fun h => h.header ++ h.body)).take 16)) else s3) c
    | _, _ => s)

end Sys2Proof.Machine
end

