-- ==== Sys2Proof/Machine/Xport.lean ====
section
/-! DEFINITION. The Frerak transport, what both sides share (R318-R322, R338-R352): packets on the wire, ports that send them, the neighbour table, ring appends, acknowledgements, paths, and how a queue pair fails, closes and is flushed. -/

namespace Sys2Proof.Machine

/-! ## Packets (R338, R339) -/

/-- An empty packet: every field zero. -/
def pkt0 : Pkt :=
  { version := 0, type := 0, flags := 0, dqpn := 0, cepoch := 0, psn := 0, msn := 0, offset := 0, path := 0, plen := 0, key := 0, mlen := 0, mpos := 0,
    aux := 0, txtime := 0, value := 0, tag := 0, frontier := 0, payload := [], crc := 0, srcIp := 0, hop := 0, port := 0 }
/-- TAGGED. -/
def pTagged (p : Pkt) : Bool := p.flags.getLsbD 0
/-- The 56-byte header (R339). -/
def pktHeader (p : Pkt) : Bytes :=
  [p.version, p.type] ++ leBytes 2 p.flags.toNat ++ leBytes 4 (p.dqpn.toNat + p.cepoch.toNat * 2 ^ 20) ++ leBytes 4 p.psn.toNat ++ leBytes 4 p.msn.toNat ++
  leBytes 5 p.offset.toNat ++ [p.path] ++ leBytes 2 p.plen.toNat ++ leBytes 4 p.key.toNat ++ leBytes 4 p.mlen.toNat ++ leBytes 4 p.mpos.toNat ++
  leBytes 4 p.aux.toNat ++ leBytes 8 p.txtime.toNat ++ leBytes 8 p.value.toNat
/-- What the CRC-32C covers: header, tag header, payload (R338). -/
def pktBody (p : Pkt) : Bytes :=
  pktHeader p ++ (if pTagged p then leBytes 16 p.tag.toNat ++ leBytes 16 p.frontier.toNat else []) ++ p.payload
/-- The CRC-32C and PLEN agree with the packet. -/
def pktGood (p : Pkt) : Bool := p.plen.toNat = p.payload.length && p.crc.toNat = crc32c (pktBody p)
/-- A packet as it stands in a UDP payload, CRC included; none where it is too short. -/
def pktParse (b : Bytes) (srcIp : BitVec 128) (hop : BitVec 8) (port : BitVec 7) : Option Pkt :=
  let n := if bitOf (subNat b 2 2) 0 then 88 else 56
  if b.length < n + 4 then none
  else some {
    version := b.getD 0 0, type := b.getD 1 0, flags := BitVec.ofNat 16 (subNat b 2 2), dqpn := BitVec.ofNat 20 (subNat b 4 4),
    cepoch := BitVec.ofNat 12 (subNat b 4 4 / 2 ^ 20), psn := BitVec.ofNat 32 (subNat b 8 4), msn := BitVec.ofNat 32 (subNat b 12 4),
    offset := BitVec.ofNat 40 (subNat b 16 5), path := b.getD 21 0, plen := BitVec.ofNat 16 (subNat b 22 2), key := BitVec.ofNat 32 (subNat b 24 4),
    mlen := BitVec.ofNat 32 (subNat b 28 4), mpos := BitVec.ofNat 32 (subNat b 32 4), aux := BitVec.ofNat 32 (subNat b 36 4),
    txtime := BitVec.ofNat 64 (subNat b 40 8), value := BitVec.ofNat 64 (subNat b 48 8),
    tag := if n = 88 then BitVec.ofNat 128 (subNat b 56 16) else 0, frontier := if n = 88 then BitVec.ofNat 128 (subNat b 72 16) else 0,
    payload := (b.drop n).take (b.length - n - 4), crc := BitVec.ofNat 32 (subNat b (b.length - 4) 4), srcIp := srcIp, hop := hop, port := port }
/-- IPv4 mapped into IPv6. -/
def isV4 (ip : BitVec 128) : Bool := ip.toNat / 2 ^ 32 = 0xFFFF

/-! ## Ports (R386, R392, R398) -/

/-- Port p. -/
def portGet (s : State) (p : Nat) : Port := (kvGet s.ports p).getD {}
/-- Store a port. -/
def portSet (s : State) (p : Nat) (x : Port) : State := { s with ports := kvSet s.ports p x }
/-- Change a port. -/
def portUpd (s : State) (p : Nat) (f : Port → Port) : State := portSet s p (f (portGet s p))
/-- Add to counter j of a port; an OFF port counts nothing (R398). -/
def portCount (s : State) (p j n : Nat) : State :=
  let x := portGet s p
  if x.state = 0 then s
  else
    let c := tabGet 0 x.cnt j
    bumpEvent (portSet s p { x with cnt := tabSet 0 x.cnt j (bump c n) }) c n 5 (0x100 * p + 0x80 + 8 * j)
/-- Send a message of a priority from a port: nothing leaves a port that is not UP (R386); a paused priority waits (R392). -/
def portSend (s : State) (p prio bytes : Nat) (o : Out) : State :=
  let x := portGet s p
  if x.state ≠ 2 then s
  else if x.paused.any fun e => e.1 = prio then portSet s p { x with txq := x.txq ++ [(prio, o)] }
  else send (portCount (portCount s p 0 1) p 1 bytes) o
/-- Bytes of the Ethernet frame around a UDP payload: headers, VLAN tag, CRC and FCS. -/
def frameLen (ip : BitVec 128) (tagged : Bool) (udp : Nat) : Nat := 14 + (if tagged then 4 else 0) + (if isV4 ip then 20 else 40) + 8 + udp + 4

/-- The neighbour entry of an address: next-hop MAC in bits 47:0 and VLAN in bits 63:48 (R391). -/
def neighFind (s : State) (ip : BitVec 128) : Option Nat × State :=
  let b := beBytes 16 ip.toNat
  let h := crc32c b % 4096
  (List.range 8).foldl (fun (acc : Option Nat × State) k =>
    match acc.1 with
    | some _ => acc
    | none =>
      let r := physRead acc.2 (s.mgmt.neigh.toNat * 2 ^ 17 + 32 * ((h + k) % 4096)) 32
      let e := memBytes r.2.1 0 32
      if r.1 = stOk ∧ bitOf (subNat e 22 2) 15 ∧ sub e 0 16 = b then (some (subNat e 16 8), r.2.2) else (none, r.2.2)) (none, s)
/-- Look a next hop up for a connection that begins; a miss is counted. -/
def neighLook (s : State) (ip : BitVec 128) (port : Nat) : Option Nat × State :=
  let r := neighFind s ip
  match r.1 with
  | some n => (some n, r.2)
  | none => (none, portCount r.2 port 14 1)

/-! ## Queue pairs -/

/-- Frontier of a queue pair (R340): the lowest tag of its work, else the lowest frontier of the contexts of its job. -/
def qpFront (s : State) (q : Qp) : BitVec 128 :=
  let low := fun (l : List (BitVec 128)) => l.foldl (fun t x => if x.toNat < t.toNat then x else t) (BitVec.allOnes 128)
  if q.sq.isEmpty then
    low (((s.fronts.filter fun f => decide (f.1 < 6144) && f.2.job = q.job).map (·.2.tag)) ++
      (s.tiles.flatMap fun e => ((e.2.runq ++ e.2.waiting).filter fun v => v.job = q.job).map (·.tag)))
  else low (q.sq.map (·.tag))
/-- Put a queue pair's header fields on a packet and send it (R338, R339). The path and the payload are the packet's. -/
def qpXmit (s : State) (n : Nat) (p : Pkt) : State :=
  let q := qpGet s n
  let tagged := pTagged p
  let f := qpFront s q
  let p1 := { p with
    version := q.version, dqpn := q.peerQpn.setWidth 20, cepoch := q.peerCepoch, plen := BitVec.ofNat 16 p.payload.length, txtime := s.now,
    frontier := if tagged then f else 0, srcIp := q.localIp, hop := 64, port := q.port.setWidth 7 }
  let p2 := { p1 with crc := BitVec.ofNat 32 (crc32c (pktBody p1)) }
  match q.nextHop with
  | none => s
  | some hop =>
    let s1 := if tagged then qpUpd s n fun q => { q with sentFrontier := f } else s
    portSend s1 q.port.toNat q.prio.toNat (frameLen q.peerIp (bitOf (hop / 2 ^ 48) 12) ((pktBody p2).length + 4)) (.frerak n q.peerIp p2)
/-- Work of a queue pair is carried with its tag: Frerak 2.0 (R340, R350). -/
def qpTagged (q : Qp) : Bool := q.transport.toNat < 2 && decide (0x20 ≤ q.version.toNat)
/-- An RTO of a path in ns (R345). -/
def pathRto (s : State) (r : PathRec) : Nat := max (s.xp.rtoMin.toNat * 1000) (2 * r.srtt)
/-- Path record. -/
def pathGet (q : Qp) (k : Nat) : PathRec := q.pathTab.getD k {}
/-- Bytes in flight on a path. -/
def pathBusy (q : Qp) (k : Nat) : Nat := (q.flights.filter fun f => f.path = k).foldl (fun n f => n + f.bytes) 0
/-- The live path with the most free window, the lowest on a tie (R352); `avoid` is passed over while another lives. -/
def pathPick (q : Qp) (avoid : Option Nat) : Option (Nat × Int) :=
  let all := (List.range q.paths).filter fun k => (pathGet q k).live
  let l := if (all.filter fun k => some k ≠ avoid).isEmpty then all else all.filter fun k => some k ≠ avoid
  l.foldl (fun (b : Option (Nat × Int)) k =>
    let w : Int := (pathGet q k).window - (pathBusy q k : Int)
    match b with
    | some x => if x.2 < w then some (k, w) else b
    | none => some (k, w)) none

/-- Deliver the outcome of a remote-route instruction: under PACED its hold entry keeps it until its release tick (R147). -/
def opArrive (s : State) (id : Nat) (st : Status) (old : Word) : State :=
  match kvGet s.ops id with
  | none => s
  | some o => if o.release.isSome ∧ !o.done then { s with ops := kvSet s.ops id { o with result := some (st, old) } } else opComplete s id st old
/-- A work request leaves its send queue with a status (R330, R95). -/
def wrComplete (s : State) (n : Nat) (w : Wreq) (st : Status) (old : Word) : State :=
  let s1 := qpUpd s n fun q => { q with sq := q.sq.filter fun x => x.ord ≠ w.ord, lastWork := s.now }
  match w.op with
  | some id => ctxSettle (opArrive s1 id st old) w.sw
  | none => wrFinish s1 w st old
/-- A violation found at the target or in the local operand: the posting context is frozen (R96, R327). The device's own accesses freeze nothing. -/
def wrViolation (s : State) (n : Nat) (w : Wreq) (st : Status) : State :=
  let s1 := wrComplete s n w st 0
  if w.sink.isSome then s1 else freezeSw s1 w.sw w.tile st 0x01 w.job

/-- A queue pair enters ERROR (R360): the work that `p` selects completes with `st`, the rest with QP_FATAL, and QP_FATAL is raised. -/
def qpFail (s : State) (n : Nat) (p : Wreq → Bool) (st : Status) (psn : BitVec 32) : State :=
  let q := qpGet s n
  let s1 := qpSet s n { q with state := .error, flights := [], rspFlights := [], rspJobs := [], ackDue := none, fault := none, heldPkts := [], heldRoce := [] }
  let s2 := q.sq.foldl (fun s w => wrComplete s n w (if p w then st else stQpFatal) 0) s1
  frontDrop (raise s2 6 st n (leBytes 4 psn.toNat)) (qpSrc n)
/-- Complete every queued or started work request with WR_FLUSHED (R358). -/
def qpFlush (s : State) (n : Nat) : State := (qpGet s n).sq.foldl (fun s w => wrComplete s n w stWrFlushed 0) s
/-- A Frerak queue pair without a connection of its role: IDLE, or LISTEN for a responder (R347). -/
def qpRest (q : Qp) : QpState := if q.transport = 1 then .listen else .idle
/-- Forget a connection: both sequences start anew at the next one (R346). -/
def qpDrop (q : Qp) (st : QpState) : Qp :=
  { q with
    state := st, flights := [], rspFlights := [], rspJobs := [], ackDue := none, fault := none, cum := 0, recvd := [], msgs := [], nextNotify := 0, atomics := []
    rspNext := 0, rspCum := 0, rspRecvd := [], withheld := [], nextPsn := 0, nextMsn := 0, heldPkts := [], heldRoce := [], answered := none, sentFrontier := 0, recvFrontier := 0 }
/-- Send CLOSE with a reason (R349). -/
def sendClose (s : State) (n reason : Nat) : State := qpXmit s n { pkt0 with type := 0x22, payload := leBytes 2 reason ++ zeros 6 }
/-- The connection of a queue pair stands. -/
def qpConnected (q : Qp) : Bool := q.transport.toNat < 2 && (q.state = .ready || q.state = .stalled)
/-- Raise CONN_CLOSED (R357). -/
def connClosed (s : State) (n : Nat) : State := raise s 8 0 n (beBytes 16 (qpGet s n).peerIp.toNat)

/-! ## Rings (R334, R337, R54) -/

/-- Decision point of ring r. -/
def ringDp (r : Nat) : Nat := 2 ^ 19 + r
/-- Appends that wait at a ring's decision point. -/
def ringPending (s : State) (r : Nat) : Nat := ((kvGet s.dps (ringDp r)).getD []).length
/-- The ring has no room for one more entry beside those that wait. -/
def ringNoRoom (s : State) (r : Nat) : Bool × State :=
  let x := ringGet s r
  (decide (2 ^ x.1.sizeLog2 ≤ x.1.head - x.1.tail + ringPending s r), x.2)
/-- Append an entry to a ring of a kind; a ring that is off or of another kind takes nothing. SIGNAL adds untagged. -/
def ringAppend (s : State) (r kind : Nat) (b : Bytes) : State :=
  let x := ringGet s r
  if x.1.kind = kind then ringWrite x.2 r x.1 false b fun s k => ctrAdd s k 1 else x.2
/-- A fault entry (R337): dropped where the ring is full; in tag order for tagged work of a STRICT job (R54). -/
def faultEntry (s : State) (ring n : Nat) (va : Nat) (st : Status) (side : Nat) (key : BitVec 32) (job : BitVec 16) (seq : Nat) (tag : Option (BitVec 128)) : State :=
  let b := leBytes 8 va ++ leBytes 4 n ++ leBytes 2 st.toNat ++ [BitVec.ofNat 8 side, 0] ++ leBytes 4 key.toNat ++ leBytes 2 job.toNat ++ zeros 2 ++ leBytes 8 seq
  let x := ringGet s ring
  if x.1.kind ≠ 2 then x.2
  else
    let f := ringNoRoom x.2 ring
    if f.1 then f.2
    else match tag with
      | some t => if strictJob s job then dpAdd f.2 (ringDp ring) { src := qpSrc n, tag := t, job := job, strict := true, since := s.now, ring := ring, entry := b } else ringAppend f.2 ring 2 b
      | none => ringAppend f.2 ring 2 b

/-! ## Acknowledgements (R341, R343) -/

/-- Class of a PSN against the lowest one not received (R341). -/
inductive PsnClass where
  | new | dup | beyond
  deriving DecidableEq, Repr
/-- Classify a PSN. -/
def psnClass (cum : BitVec 32) (recvd : List (BitVec 32)) (psn : BitVec 32) : PsnClass :=
  let d := (psn - cum).toNat
  if d < 1024 then (if recvd.contains psn then .dup else .new)
  else if 2 ^ 32 - 2 ^ 23 ≤ d then .dup else .beyond
/-- Advance the cumulative PSN over what has been received. -/
def psnAdvance : Nat → BitVec 32 → List (BitVec 32) → BitVec 32 × List (BitVec 32)
  | 0, c, l => (c, l)
  | f + 1, c, l => if l.contains c then psnAdvance f (c + 1) (l.filter fun x => x ≠ c) else (c, l)
/-- Record a PSN as received. -/
def psnMark (cum : BitVec 32) (recvd : List (BitVec 32)) (psn : BitVec 32) : BitVec 32 × List (BitVec 32) := psnAdvance 1025 cum (recvd ++ [psn])
/-- The lowest withheld PSN below `cum`, or `cum`: what an ACK may acknowledge cumulatively (R330, R332). -/
def ackCum (q : Qp) : BitVec 32 :=
  q.withheld.foldl (fun c x => if 2 ^ 31 ≤ (x - c).toNat then x else c) q.cum
/-- The ACK bitmap: bit i is set when PSN CUM + 1 + i has been received. -/
def ackBits (cum top : BitVec 32) (recvd held : List (BitVec 32)) : Nat :=
  (List.range 256).foldl (fun n i =>
    let x := cum + 1 + BitVec.ofNat 32 i
    if !held.contains x && (recvd.contains x || decide (2 ^ 31 ≤ (x - top).toNat)) then n + 2 ^ i else n) 0
/-- Send an ACK of the sequence this side receives: requests for a responder, responses for a requester. -/
def sendAck (s : State) (n : Nat) : State :=
  let q := qpGet s n
  match q.ackDue with
  | none => s
  | some (at_, echo, path) =>
    let resp := q.transport = 0
    let c := if resp then q.rspCum else ackCum q
    let bits := if resp then ackBits c c q.rspRecvd [] else ackBits c q.cum q.recvd q.withheld
    let b := leBytes 32 bits ++ leBytes 8 echo.toNat ++ leBytes 4 (s.now - at_).toNat ++ zeros 4
    qpUpd (qpXmit s n { pkt0 with type := 0x10, psn := c, path := path, payload := b }) n fun q => { q with ackDue := none }
/-- A packet prompts an ACK, at once when `now`. -/
def promptAck (s : State) (n : Nat) (p : Pkt) (now : Bool) : State :=
  let s1 := qpUpd s n fun q => { q with ackDue := some (s.now, p.txtime, p.path) }
  if now then sendAck s1 n else s1
/-- Answer a packet with a NAK (R326). -/
def sendNak (s : State) (n : Nat) (p : Pkt) (st : Status) : State :=
  qpXmit s n { pkt0 with type := 0x11, psn := p.psn, msn := p.msn, path := p.path, aux := st.setWidth 32 }
/-- Answer a packet with FAULT_WAIT (R334, R335). -/
def sendWait (s : State) (n : Nat) (p : Pkt) (cause : Nat) : State :=
  qpXmit s n { pkt0 with type := 0x12, psn := p.psn, msn := p.msn, path := p.path, aux := BitVec.ofNat 32 (cause + s.xp.respWait.toNat * 2 ^ 16) }

end Sys2Proof.Machine
end

