-- ==== Sys2Proof/Machine/XportCmd.lean ====
section
/-! DEFINITION. The transport commands of XP_CMD (R323-R325, R356, R358, R359): regions, queue pairs and the ring table. -/

namespace Sys2Proof.Machine

/-! ## The command interface (R358) -/

/-- Complete the transport command in progress. -/
def xpDone (s : State) (st : Status) (result : BitVec 32) : State :=
  { s with xp := { s.xp with busy := false, status := st, result := result, cur := 0, curArg := 0 } }
/-- Region by index. -/
def regionGet (s : State) (i : Nat) : Region := (kvGet s.regions i).getD {}
/-- Store a region. -/
def regionSet (s : State) (i : Nat) (r : Region) : State := { s with regions := kvSet s.regions i r }
/-- Bytes `lo` to `hi` of a block are zero. -/
def blkZero (b : Bytes) (lo hi : Nat) : Bool := subNat b lo (hi - lo) = 0
/-- Counter k is bound to a running job. -/
def ctrOfJob (s : State) (j : BitVec 16) (k : Nat) : Bool := (jobOf s j).any fun x => x.ctrs.any fun r => decide (r.1 ≤ k ∧ k < r.1 + r.2)
/-- Fields of MR_REGISTER in range (R323, R362). -/
def mrOk (s : State) (b : Bytes) : Bool :=
  let job := BitVec.ofNat 16 (subNat b 2 2)
  let rights := subNat b 0x18 1
  let nmode := subNat b 0x19 1
  let base := subNat b 8 8
  let len := subNat b 0x10 8
  let phys := bitOf rights 4
  blkZero b 1 2 && decide (subNat b 4 4 < 2 ^ s.xp.mrtLog2.toNat) && decide (1 ≤ len ∧ len ≤ 2 ^ 40) && decide (rights < 64) && decide (nmode < 8) &&
  (!bitOf nmode 2 || bitOf nmode 0) && decide (subNat b 0x1A 2 < 4096) && decide (subNat b 0x20 2 < 4096) && blkZero b 0x22 0x28 && blkZero b 0x38 0x80 &&
  (!bitOf rights 3 || (phys && decide (0x0F0000000000 ≤ base ∧ base + len ≤ 0x0F0000800000))) && (!phys || subNat b 0x28 8 = 0) &&
  (!phys || job = 0xFFFF || !decide (0x0E0000000000 < base + len ∧ base < 0x0F0000000000)) &&
  (!bitOf nmode 0 || (decide (subNat b 0x1C 4 < 131072) && (job = 0xFFFF || ctrOfJob s job (subNat b 0x1C 4))))
/-- Less than MPL has passed since the index's last deregistration completed (R324). -/
def mrFresh (s : State) (r : Region) : Bool := r.dereg.any fun t => decide ((s.now - t).toNat < s.xp.mpl.toNat * 1000000)
/-- MR_REGISTER (R323, R324). -/
def mrRegister (s : State) (b : Bytes) : State :=
  if !mrOk s b then xpDone s stCommandInvalid 0
  else
    let i := subNat b 4 4
    let r := regionGet s i
    if r.registered ∨ r.draining ∨ mrFresh s r then xpDone s stMrIndexBusy 0
    else
      let r1 : Region := {
        r with
        registered := true, base := subNat b 8 8, length := subNat b 0x10 8, ttb := subNat b 0x28 8, pkr0 := BitVec.ofNat 64 (subNat b 0x30 8)
        job := BitVec.ofNat 16 (subNat b 2 2), rights := BitVec.ofNat 8 (subNat b 0x18 1), nmode := BitVec.ofNat 8 (subNat b 0x19 1)
        nring := BitVec.ofNat 16 (subNat b 0x1A 2), nctr := BitVec.ofNat 32 (subNat b 0x1C 4), fring := BitVec.ofNat 16 (subNat b 0x20 2), gen := r.gen + 1 }
      xpDone (regionSet s i r1) stOk (BitVec.ofNat 32 (i * 256 + r1.gen.toNat))
/-- Work that passed the key check of index i and has not finished: reads being answered, notifications to come (R325). -/
def mrBusy (s : State) (i : Nat) : Bool :=
  s.qps.any fun q => (q.2.rspJobs.any fun j => j.region = i) || (q.2.msgs.any fun m => m.whole && !m.quiet && m.key.toNat / 256 = i)
/-- MR_DEREGISTER: the index stops at once; the command stays busy until MR_DEREGISTER_DRAINED (R325). -/
def mrDeregister (s : State) (b : Bytes) : State :=
  let key := subNat b 4 4
  let i := key / 256
  let r := regionGet s i
  if !blkZero b 1 4 || !blkZero b 8 0x80 || !r.registered || r.gen.toNat ≠ key % 256 || decide (2 ^ s.xp.mrtLog2.toNat ≤ i) then xpDone s stCommandInvalid 0
  else
    let s1 := regionSet s i { r with registered := false, draining := true }
    { s1 with xp := { s1.xp with busy := true, cur := 2, curArg := i } }
/-- The drained deregistration completes. -/
def mrDrained (s : State) : State :=
  let i := s.xp.curArg
  if s.xp.busy ∧ s.xp.cur = 2 ∧ !mrBusy s i then
    xpDone (regionSet s i { regionGet s i with draining := false, dereg := some s.now }) stOk 0
  else s

/-! ## Queue pairs (R319, R336, R347, R358, R359) -/

/-- Fields of QP_CREATE in range (R359). -/
def qpCreateOk (s : State) (b : Bytes) : Bool :=
  let tr := subNat b 0x0A 1
  let mtu := subNat b 0x0B 1
  let paths := subNat b 0x0C 1
  let sq := subNat b 0x0E 1
  blkZero b 1 4 && decide (subNat b 4 4 < 2 ^ 20) && decide (tr < 3) && decide ((if tr = 2 then 8 else 10) ≤ mtu ∧ mtu ≤ 12) &&
  decide (1 ≤ paths ∧ paths ≤ (if tr = 2 then 1 else 64)) && decide (subNat b 0x0D 1 < 96) && decide (6 ≤ sq ∧ sq ≤ 12) && decide (subNat b 0x0F 1 < 8) &&
  (tr ≠ 1 || blkZero b 0x10 0x20) && decide (subNat b 0x34 4 < 2 ^ 24) && decide (subNat b 0x38 4 < 2 ^ 24) && decide (subNat b 0x3C 2 < 4096) && blkZero b 0x3E 0x40 &&
  subNat b 0x40 8 % (64 * 2 ^ sq) = 0 && inHbm s (subNat b 0x40 8) (64 * 2 ^ sq) && blkZero b 0x48 0x80
/-- Fresh path records. -/
def pathFresh (n : Nat) : List PathRec := List.replicate n {}
/-- Contexts held resident: at most 16,384; the least recently used is written back (R318). -/
def qpResident (s : State) (n : Nat) : State :=
  let res := s.qps.filter fun q => q.2.resident && q.1 ≠ n
  let top := s.qps.foldl (fun t q => max t q.2.used) 0 + 1
  let s1 :=
    if res.length < 16384 then s
    else match res.foldl (fun (b : Option (Nat × Nat)) q => match b with
        | some x => if q.2.used < x.2 then some (q.1, q.2.used) else b
        | none => some (q.1, q.2.used)) none with
      | some v => qpUpd s v.1 fun q => { q with resident := false }
      | none => s
  qpUpd s1 n fun q => { q with resident := true, used := top, holdSince := none }
/-- QP_CREATE. -/
def qpCreate (s : State) (b : Bytes) : State :=
  let n := subNat b 4 4
  if !qpCreateOk s b then xpDone s stCommandInvalid 0
  else if (qpGet s n).state ≠ .free then xpDone s stQpInUse 0
  else
    let tr := subNat b 0x0A 1
    let old := qpGet s n
    let peer := BitVec.ofNat 128 (beNat (sub b 0x10 16))
    let q : Qp := {
      state := if tr = 0 then .idle else if tr = 1 then .listen else .ready
      job := BitVec.ofNat 16 (subNat b 8 2), transport := BitVec.ofNat 8 tr, mtuLog2 := subNat b 0x0B 1, paths := subNat b 0x0C 1, port := BitVec.ofNat 8 (subNat b 0x0D 1)
      sqLog2 := subNat b 0x0E 1, prio := BitVec.ofNat 8 (subNat b 0x0F 1), peerIp := peer, localIp := BitVec.ofNat 128 (beNat (sub b 0x20 16))
      service := BitVec.ofNat 32 (subNat b 0x30 4), spsn := BitVec.ofNat 24 (subNat b 0x34 4), rpsn := BitVec.ofNat 24 (subNat b 0x38 4), fring := BitVec.ofNat 16 (subNat b 0x3C 2)
      sqBase := subNat b 0x40 8, mtuCfg := subNat b 0x0B 1, pathsCfg := subNat b 0x0C 1, cepoch := old.cepoch, lastWork := s.now, pathTab := pathFresh (subNat b 0x0C 1) }
    let s1 := qpResident (qpSet s n q) n
    let s2 :=
      if tr = 2 then
        let h := neighLook s1 peer (subNat b 0x0D 1)
        qpUpd h.2 n fun q => { q with nextHop := h.1, peerQpn := q.service, nextPsn := q.spsn.setWidth 32, cum := q.rpsn.setWidth 32 }
      else s1
    xpDone s2 stOk (BitVec.ofNat 32 n)
/-- The block of a queue-pair command names queue pair n and holds nothing else but MODE (R358). -/
def qpBlockOk (b : Bytes) (mode : Bool) : Bool :=
  blkZero b 1 4 && decide (subNat b 4 4 < 2 ^ 20) && (if mode then decide (subNat b 8 1 < 2) && blkZero b 9 0x80 else blkZero b 8 0x80)
/-- QP_DESTROY (R319, R358): flush, CLOSE, DRAINING. -/
def qpDestroy (s : State) (b : Bytes) : State :=
  let n := subNat b 4 4
  let q := qpGet s n
  if !qpBlockOk b false || q.state = .free || q.state = .draining then xpDone s stCommandInvalid 0
  else
    let s1 := qpFlush s n
    let s2 := if qpConnected q then connClosed (sendClose s1 n 2) n else s1
    let s3 := frontDrop (qpUpd s2 n fun q => { q with state := .draining, rspJobs := [], fault := none, heldPkts := [], heldRoce := [] }) (qpSrc n)
    xpDone s3 stOk 0
/-- Every packet in flight has ended: the queue pair is FREE; its CEPOCH goes on (R347). -/
def qpDrainDone (s : State) (n : Nat) : State :=
  let q := qpGet s n
  if q.state = .draining ∧ q.flights.isEmpty ∧ q.rspFlights.isEmpty then qpSet s n { cepoch := q.cepoch } else s
/-- QP_RESET (R319, R358): an ERROR or connected queue pair returns to IDLE, a responder to LISTEN. -/
def qpReset (s : State) (b : Bytes) : State :=
  let n := subNat b 4 4
  let q := qpGet s n
  if !qpBlockOk b false || q.state = .free || q.state = .draining || q.state = .idle || q.state = .listen then xpDone s stCommandInvalid 0
  else
    let s1 := qpFlush s n
    let s2 := if qpConnected q then connClosed (sendClose s1 n 3) n else s1
    xpDone (frontDrop (qpUpd s2 n fun q => qpDrop q (qpRest q)) (qpSrc n)) stOk 0
/-- QP_RESUME (R336): MODE 0 retries from the faulted packet, MODE 1 completes the work request with LOCAL_FAULT_ABORTED. -/
def qpResume (s : State) (b : Bytes) : State :=
  let n := subNat b 4 4
  let q := qpGet s n
  if !qpBlockOk b true || q.state ≠ .stalled then xpDone s stCommandInvalid 0
  else
    let s1 := qpUpd s n fun q => { q with state := .ready, fault := none }
    let s2 :=
      if subNat b 8 1 = 0 then s1
      else match q.fault with
        | some f => match q.sq.find? fun w => w.ord = f.1 with
          | some w => wrComplete s1 n w stLocalFaultAborted 0
          | none => s1
        | none => s1
    xpDone s2 stOk 0

/-! ## The ring table (R356) -/

/-- RING_SET. -/
def ringSet (s : State) (b : Bytes) : State :=
  let r := subNat b 4 4
  let e := sub b 0x40 64
  let base := subNat e 0 8
  let lg := subNat e 8 1
  let kind := subNat e 9 1
  let bad := !blkZero b 1 4 || decide (4096 ≤ r) || !blkZero b 8 0x40 || decide (3 < kind) ||
    (kind ≠ 0 && (!decide (4 ≤ lg ∧ lg ≤ 20) || base % (32 * 2 ^ lg) ≠ 0 || !inHbm s base (32 * 2 ^ lg) || bitsAt (subNat e 12 4) 17 14 ≠ 0 ||
      subNat e 10 2 ≠ 0 || !blkZero e 0x30 0x40))
  if bad then xpDone s stCommandInvalid 0
  else
    let w := physPut s (ringAddr s r) (sub e 0 16 ++ zeros 24 ++ sub e 0x28 24)
    if w.1 = stOk then xpDone w.2 stOk 0 else xpDone (ownFail w.2 1 (ringAddr s r) w.1) stOk 0

/-! ## Dispatch -/

/-- Device physical address of the command block. -/
def xpBlock (s : State) : Nat := s.xp.cmdAddr.toNat * 128
/-- Run the transport command of a block. -/
def xpRun (s : State) (b : Bytes) : State :=
  match (b.getD 0 0).toNat with
  | 1 => mrRegister s b
  | 2 => mrDeregister s b
  | 3 => qpCreate s b
  | 4 => qpDestroy s b
  | 5 => qpResume s b
  | 6 => qpReset s b
  | 7 => ringSet s b
  | _ => xpDone s stCommandInvalid 0
/-- GO (R358): ignored while BUSY; the block is read once. A block that does not read completes with its status (R558 row 9). -/
def xpGo (s : State) (op : Option Nat) : State :=
  if s.xp.busy then s
  else
    let r := physRead s (xpBlock s) 128
    let b := memBytes r.2.1 0 128
    if op.any fun o => r.1 = stOk && o ≠ (b.getD 0 0).toNat then s
    else if !inHbm s (xpBlock s) 128 then xpDone (ownFail s 9 (xpBlock s) stOutOfBounds) stOutOfBounds 0
    else if r.1 ≠ stOk then xpDone (ownFail r.2.2 9 (xpBlock s) r.1) r.1 0
    else xpRun r.2.2 b
/-- MR_REGISTER: GO with OP 0x01 in the block. -/
def execMrRegister (s : State) : Out_ := .next (xpGo s (some 1))
/-- MR_DEREGISTER: GO with OP 0x02. -/
def execMrDeregister (s : State) : Out_ := .next (xpGo s (some 2))
/-- MR_DEREGISTER_DRAINED. -/
def execMrDeregisterDrained (s : State) : Out_ := .next (mrDrained s)
/-- QP_CREATE: GO with OP 0x03. -/
def execQpCreate (s : State) : Out_ := .next (xpGo s (some 3))
/-- QP_DESTROY: GO with OP 0x04. -/
def execQpDestroy (s : State) : Out_ := .next (xpGo s (some 4))
/-- QP_DRAIN_DONE. -/
def execQpDrainDone (qpn : BitVec 20) (s : State) : Out_ := .next (qpDrainDone s qpn.toNat)
/-- QP_RESUME: GO with OP 0x05. -/
def execQpResume (s : State) : Out_ := .next (xpGo s (some 5))
/-- QP_RESET: GO with OP 0x06. -/
def execQpReset (s : State) : Out_ := .next (xpGo s (some 6))
/-- RING_SET: GO with OP 0x07. -/
def execRingSet (s : State) : Out_ := .next (xpGo s (some 7))

end Sys2Proof.Machine
end

