-- ==== Sys2Proof/Machine/Ucb.lean ====
section
/-! DEFINITION. Commands to unit control blocks (R35, R36), quiesce-then-reset of units and engine instances (R510, R511), the trouble counters' clear (R37), group UCBs (R38), and BLK_RESET. -/

namespace Sys2Proof.Machine

def stDecodeAborted : Status := 0x0212
def stCompressAborted : Status := 0x030C
def stTextAborted : Status := 0x040F

/-! ## Units of a subtree -/

/-- The unit stands where a quiesce may move it. -/
def uActive (st : UState) : Bool := st = .ready || st = .running || st = .quiescing
/-- Engine instances of a subtree, by their codes in BLK_RESET.TARGET: those of its clusters, the Parisons of its dies; with the device, the Gathers' queue. -/
def enginesUnder (u : Nat) : List Nat :=
  let ns := if u = 0 then List.range 48 else if u < 7 then rangeFrom (8 * (u - 1)) 8 else if 8 ≤ u ∧ u < 56 then [u - 8] else []
  let ds := if u = 0 then List.range 6 else if u < 7 then [u - 1] else []
  ns ++ ns.map (64 + ·) ++ ns.map (128 + ·) ++ ds.map (192 + ·) ++ (if u = 0 then [200] else [])
/-- Nothing of the unit is in flight (R510 step 2): remote operations, work requests and pending results of its contexts, and descriptors its engines work on. -/
def unitDrained (s : State) (u : Nat) : Bool :=
  let sws := (tilesUnder u).flatMap fun L => tileSws (tileGet s L)
  (s.ops.all fun o => o.2.done || !sws.contains o.2.owner) &&
  (s.qps.all fun q => q.2.sq.all fun w => !sws.contains w.sw) &&
  (enginesUnder u).all fun c => (engQueue s c).all fun d => !d.active
/-- A context in a pool wait makes its request again after RESUME (R510 step 2): the request leaves the pool and the instruction issues again. -/
def tileUnpool (s : State) (L : Nat) : State :=
  (tileGet s L).hws.foldl (fun s e =>
    match e.2.wait with
    | .pool _ _ _ => ctxSet (poolsDropSws s [e.2.sw]) L e.1 { e.2 with wait := .idle }
    | _ => s) s

/-! ## Reset of engines and units (R510 steps 4 and 5, R511) -/

/-- Status with which a reset completes a descriptor of an engine instance (R511). -/
def resetStatus (code : Nat) (d : Desc) : Status :=
  if code < 48 then (if 0x10 ≤ d.op ∧ d.op < 0x20 then stCompressAborted else stDecodeAborted)
  else if code < 112 then stTextAborted
  else stQuiesceTimeout
/-- Reset the engine instances with the given codes: their descriptors complete, their streams and slots are freed, and an open batch stream halts. -/
def engReset (s : State) (codes : List Nat) : State :=
  let s1 := descAbort s (fun c _ => codes.contains c) resetStatus
  let s2 := { s1 with engHold := s1.engHold.filter fun e => !codes.contains e.1 }
  let s3 := streamsFree s2 fun b => codes.contains b.complex
  let s4 := slotsFree s3 fun k _ => codes.contains (64 + k / 128)
  codes.foldl (fun s c => if 192 ≤ c ∧ c < 198 ∧ (streamAt s c).opened then streamHalt s c stQuiesceTimeout 0 0xFFFFFFFF else s) s4
/-- A Gather engine's part of an active descriptor is unfinished while a read asked for by Gather is under way on its channels. -/
def gatherUnfinished (s : State) (side : Nat) : Bool := s.media.reads.any fun r => r.gather && r.result.isNone && gatherSide r.loc = side
/-- Reset of GN or GS (R511): queued descriptors and those whose part on it is unfinished. -/
def gatherReset (s : State) (side : Nat) : State :=
  let busy := gatherUnfinished s side
  let s1 := descAbort s (fun c d => c = gatherCode && (!d.active || busy)) resetStatus
  { s1 with media := { s1.media with reads := s1.media.reads.filter fun r => !(r.gather && r.result.isNone && gatherSide r.loc = side) } }
/-- Old and new bytes of a target range whose transfer a reset cut short: which are which is a free choice (R511, log 4). -/
def memMix (old new : Mem) (ctr : Nat) : Mem :=
  let keys := (old.map (·.1) ++ (new.map (·.1)).filter fun k => !(old.any fun c => c.1 = k))
  (keys.zipIdx.foldl (fun (m : Mem) k =>
    let v := if Config.freeBool (ctr + k.2) then tabGet 0 new k.1 else tabGet 0 old k.1
    tabSet 0 m k.1 v) [])
/-- Leave a target range with some old and some new bytes. -/
def mixPieces (s : State) (ps : List (Nat × Nat)) (new : Mem) : State :=
  let r := piecesRead s ps
  let m := memMix r.2.1 new r.2.2.freeCtr
  (piecesWrite { r.2.2 with freeCtr := r.2.2.freeCtr + r.2.1.length + new.length } ps m).2
/-- Complete a remote operation that a reset drops: its pieces may have been placed in part, an atomic has no effect, the counter gains its add and nothing is latched (R511). -/
def opReset (s : State) (id : Nat) : State :=
  match kvGet s.ops id with
  | none => s
  | some o =>
    if o.done ∨ o.result.isSome then s
    else
      let s1 := match o.kind, o.qpn with
        | .rput, none | .rputi, none =>
          if o.win.isSome then mixPieces s o.pieces o.data
          else let r := piecesRead s o.src; mixPieces r.2.2 o.pieces r.2.1
        | .rget, none => if o.dst.isEmpty then s else let r := piecesRead s o.pieces; mixPieces r.2.2 o.dst r.2.1
        | _, _ => s
      let s2 := match o.rc with
        | some k => ctrAddTagged s1 k 1 o.tag o.job
        | none => s1
      { s2 with ops := kvSet s2.ops id { o with done := true } }
/-- Drop a work request of a unit's context: its operation as above, its counter add, no latch. -/
def wrReset (s : State) (n : Nat) (w : Wreq) : State :=
  let s1 := match w.op with
    | some id => opReset s id
    | none => if w.flags.toNat.testBit 0 then ctrAddTagged s w.cc 1 w.tag w.job else s
  qpUpd s1 n fun q => { q with sq := q.sq.filter fun x => x.ord ≠ w.ord }
/-- Reset a tile's contexts and store. -/
def tileReset (s : State) (L : Nat) : State :=
  let sws := tileSws (tileGet s L)
  let s1 := s.qps.foldl (fun s q => (q.2.sq.filter fun w => sws.contains w.sw).foldl (fun s w => wrReset s q.1 w) s) s
  let s2 := s1.ops.foldl (fun s o => if sws.contains o.2.owner then opReset s o.1 else s) s1
  let s3 := dpsDrop (poolsDropSws s2 sws) L
  let s4 := tileSet s3 L {}
  let s5 := (List.range 8).foldl (fun s h => frontDrop s (ctxSrc L h)) s4
  tsFill s5 (slotIdx s5 L)
/-- Steps 4 and 5 of R510 for a unit: FAILED and RETIRED units stay as they are. -/
def unitReset (s : State) (u : Nat) : State :=
  let s1 := engReset s (enginesUnder u)
  let s2 := ((tilesUnder u).filter fun L => backed s1 L).foldl tileReset s1
  unitsMove s2 u (fun st => st ≠ .failed && st ≠ .retired && st ≠ .off) fun _ => .ready

/-! ## UCB commands (R35, R36) -/

/-- Complete the command in progress on a UCB. -/
def ucbDone (s : State) (u : Nat) (st : Status) : State :=
  let x := unitGet s u
  unitSet s u { x with busy := false, cmd := 0, last := x.cmd, status := st }
/-- A command write is discarded (R36). -/
def ucbCollides (s : State) (u cmd : Nat) : Bool :=
  (unitGet s u).busy || ((ancestors u).any fun a => (unitGet s a).busy) || ((unitsUnder u).any fun v => (unitGet s v).busy) ||
  (cmd ≠ 3 && (ancestors u).any fun a => (unitGet s a).st = .frozen) || (s.host.remap.any fun r => (tilesUnder u).contains r.2.1)
/-- The job of a tile's contexts, for the freeze event. -/
def tileJob (s : State) (L : Nat) : BitVec 16 :=
  let t := tileGet s L
  (((t.hws.map (·.2.job)) ++ (t.runq ++ t.waiting).map (·.job)).head?).getD 0xFFFF
/-- FREEZE: every tile of the subtree as R473 gives, every node FROZEN. -/
def ucbFreeze (s : State) (u : Nat) : State :=
  let s1 := (tilesUnder u).foldl (fun s L =>
    let st := (unitGet s (tileUcb L)).st
    if st = .failed ∨ st = .retired ∨ st = .off then s else freezeTile s L stMasterFrozen 0 (tileJob s L) 0) s
  (nodesUnder u).foldl (fun s v => unitSet s v { unitGet s v with st := .frozen }) s1
/-- Load a context that a freeze saved into its hardware context again (R475, R558 row 8). -/
def frozenLoad (s : State) (L : Nat) (e : Nat × Saved) : State :=
  if (unitGet s (tileUcb L)).st = .frozen then s
  else
    let v := e.2
    let r := areaRead s v.areaLo v.areaHi
    if r.1 ≠ stOk then freezeTile r.2.2 L r.1 0 v.job v.areaLo
    else
      let c := ctxOfImage v.sw v.areaLo v.areaHi r.2.1
      let s1 := tileUpd r.2.2 L fun t => { t with frozen := t.frozen.filter fun x => x.2.sw ≠ v.sw, hws := kvSet t.hws e.1 { c with ord := v.ord, wait := v.wait } }
      frontSet s1 (ctxSrc L e.1) c.job (ctxFront c)
/-- Issue restarts in a tile: what a freeze saved is loaded, and free hardware contexts take from the run queue. -/
def tileStart (s : State) (L : Nat) : State :=
  tileSettle ((tileGet s L).frozen.foldl (fun s e => if (ctxGet s L e.1).isNone then frozenLoad s L e else s) s) L
/-- RESUME. -/
def ucbResume (s : State) (u : Nat) : State :=
  let ls := (tilesUnder u).filter fun L => (unitGet s (tileUcb L)).st = .quiesced
  let s1 := unitsMove s u (fun st => st = .quiesced) fun v => if unitRuns s v then .running else .ready
  ls.foldl tileStart s1
/-- Stop issue for QUIESCE or RESET (R510 step 1). -/
def ucbQuiesce (s : State) (u : Nat) : State := unitsMove s u uActive fun _ => .quiescing
/-- Start a command on a local unit; its TIMEOUT field is stored (UCB_CMD). -/
def ucbStart (s : State) (u cmd : Nat) (timeout : BitVec 16) : State :=
  let set := fun (s : State) => unitSet s u { unitGet s u with timeout := timeout, cmd := BitVec.ofNat 8 cmd, since := s.now }
  let begin_ := fun (s : State) => unitSet s u { unitGet s u with busy := true }
  match cmd with
  | 1 => begin_ (ucbQuiesce (set s) u)
  | 2 => ucbDone (ucbResume (set s) u) u stOk
  | 3 => ucbDone (ucbFreeze (set s) u) u stOk
  | 4 => ucbDone (unitsMove (set s) u (fun st => st = .frozen) fun _ => .quiesced) u stOk
  | _ =>
    if (unitGet s u).st = .frozen then ucbDone (unitReset (set s) u) u stOk
    else begin_ (ucbQuiesce (set s) u)

/-! ## Group UCBs (R38) -/

/-- Group hosted in slot k. -/
def groupGet (s : State) (k : Nat) : Option GroupRec := kvGet s.groups k
/-- Change a group. -/
def groupUpd (s : State) (k : Nat) (f : GroupRec → GroupRec) : State := { s with groups := kvUpd s.groups k f }
/-- UCB index of a local child locator. -/
def localChild (s : State) (e : Word) : Option Nat := if routeRemote e then none else handleUcb s e
/-- Forward a group's command to its next member: a local one starts it, a remote one is written over its queue pair. -/
def groupSend (s : State) (k : Nat) : State :=
  match groupGet s k with
  | none => s
  | some g =>
    match g.children[g.next]? with
    | none => s
    | some e =>
      let x := unitGet s (2048 + k)
      match localChild s e with
      | some u => if ucbCollides s u x.cmd.toNat then unitSet s u { unitGet s u with collide := true } else ucbStart s u x.cmd.toNat x.timeout
      | none =>
        (sinkPost s e {
          opcode := 1, length := 8, offset := 0x20, win := some 0, job := 0xFFFF
          data := memOfBytes 0 (leBytes 8 (x.cmd.toNat + x.timeout.toNat * 2 ^ 16)) }).2
/-- State of a group that a command has ended in (R35). -/
def groupState (cmd : Nat) (old : UState) : UState :=
  match cmd with
  | 1 => .quiesced
  | 2 => .running
  | 3 => .frozen
  | 4 => .quiesced
  | 5 => .ready
  | _ => old
/-- Complete a group command. -/
def groupDone (s : State) (k : Nat) (st : Status) : State :=
  let cmd := (unitGet s (2048 + k)).cmd.toNat
  ucbDone (groupUpd s k fun g => { g with next := 0, firstFail := 0, st := if st = stOk then groupState cmd g.st else g.st }) (2048 + k) st
/-- Start a command on a group. -/
def groupStart (s : State) (k cmd : Nat) (timeout : BitVec 16) : State :=
  let u := 2048 + k
  let s1 := unitSet s u { unitGet s u with timeout := timeout, cmd := BitVec.ofNat 8 cmd, since := s.now, busy := true }
  let s2 := groupUpd s1 k fun g => { g with next := 0, firstFail := 0 }
  match (groupGet s2 k).map (·.children.length) with
  | some 0 => groupDone s2 k stOk
  | _ => groupSend s2 k
/-- A member's completion (R38): a local member's command must have ended; none means that it did not answer within TIMEOUT. -/
def groupForward (s : State) (k : Nat) (answer : Option Status) : State :=
  match groupGet s k with
  | none => s
  | some g =>
    if !(unitGet s (2048 + k)).busy then s
    else
      let child := (g.children[g.next]?).bind (localChild s)
      match child with
      | some u =>
        if (unitGet s u).busy then s
        else
          let st := (unitGet s u).status
          let f := if g.firstFail = 0 then st else g.firstFail
          let s1 := groupUpd s k fun g => { g with next := g.next + 1, firstFail := f }
          if g.next + 1 < g.children.length then groupSend s1 k else groupDone s1 k f
      | none =>
        match answer with
        | none => groupDone s k stPeerUnreachable
        | some st =>
          let f := if g.firstFail = 0 then st else g.firstFail
          let s1 := groupUpd s k fun g => { g with next := g.next + 1, firstFail := f }
          if g.next + 1 < g.children.length then groupSend s1 k else groupDone s1 k f
/-- Sum of the members' counters, saturating (R476). -/
def groupCounts (ms : List Member) : Tab (BitVec 16) :=
  ms.foldl (fun t m => m.counts.foldl (fun t c => tabSet 0 t c.1 (BitVec.ofNat 16 (min 0xFFFF ((tabGet 0 t c.1).toNat + c.2.toNat)))) t) []
/-- GROUP_REFRESH: the aggregates of the members that answered (R38). -/
def groupRefresh (s : State) (k : Nat) (members : List Member) : State :=
  let ms := members.filter (·.answered)
  let low := ms.foldl (fun (b : Option Member) m => match b with
    | some x => if m.score.toNat < x.score.toNat then some m else b
    | none => some m) none
  groupUpd s k fun g =>
    { g with
      spares := (ms.map (·.spares)).foldl (fun b x => if x.toNat < b.toNat then x else b) ((ms.head?.map (·.spares)).getD 0)
      tdc := ms.foldl (fun t m => t + m.tdc) 0
      counts := groupCounts ms
      score := (low.map (·.score)).getD g.score
      conf := (low.map (·.conf)).getD g.conf
      refresh := s.now }

/-! ## The commands -/

/-- A write of UCB_CMD (R35, R36): nothing starts on a unit without the register, on a hole, or for a code that is no command. -/
def ucbCmd (s : State) (u cmd : Nat) (timeout : BitVec 16) : State :=
  match ucbKind s u with
  | none | some 5 => s
  | some kind =>
    if cmd = 0 ∨ 5 < cmd then unitSet s u { unitGet s u with timeout := timeout }
    else if kind = 4 then
      if (unitGet s u).busy then unitSet s u { unitGet s u with collide := true } else groupStart s (u - 2048) cmd timeout
    else if ucbCollides s u cmd then unitSet s u { unitGet s u with collide := true }
    else ucbStart s u cmd timeout
/-- QUIESCE. -/
def execQuiesce (u : BitVec 12) (timeout : BitVec 16) (s : State) : Out_ := .next (ucbCmd s u.toNat 1 timeout)
/-- RESUME. -/
def execResume (u : BitVec 12) (timeout : BitVec 16) (s : State) : Out_ := .next (ucbCmd s u.toNat 2 timeout)
/-- FREEZE. -/
def execFreeze (u : BitVec 12) (timeout : BitVec 16) (s : State) : Out_ := .next (ucbCmd s u.toNat 3 timeout)
/-- UNFREEZE. -/
def execUnfreeze (u : BitVec 12) (timeout : BitVec 16) (s : State) : Out_ := .next (ucbCmd s u.toNat 4 timeout)
/-- RESET. -/
def execReset (u : BitVec 12) (timeout : BitVec 16) (s : State) : Out_ := .next (ucbCmd s u.toNat 5 timeout)
/-- A UCB_CMD write whose code starts no command: a code of R35 here starts none either. -/
def execUcbCmdNone (u : BitVec 12) (cmd : BitVec 8) (timeout : BitVec 16) (s : State) : Out_ :=
  if 1 ≤ cmd.toNat ∧ cmd.toNat ≤ 5 then .next s else .next (ucbCmd s u.toNat cmd.toNat timeout)

/-! ## Block resets (R510) and the end of a quiesce -/

/-- Targets of BLK_RESET that are not reserved. -/
def blkTarget (t : Nat) : Bool := decide (t < 48) || decide (64 ≤ t ∧ t < 112) || decide (128 ≤ t ∧ t < 176) || decide (192 ≤ t ∧ t < 198) || t = 200 || t = 201
/-- A write of BLK_RESET: TARGET and TIMEOUT are stored; GO starts the quiesce, ignored while BUSY or for a reserved TARGET. -/
def blkReset (s : State) (v : Word) : State :=
  let t := (fld v 0 8).toNat
  let s1 := { s with pwr := { s.pwr with brTarget := fld v 0 8, brTimeout := fld v 16 16 } }
  if !s.pwr.brBusy && v.getLsbD 8 && blkTarget t then
    { s1 with pwr := { s1.pwr with brBusy := true, brCur := fld v 0 8, brSince := s.now }, engQuiesce := s1.engQuiesce ++ [if t = 201 then 200 else t] }
  else s1
/-- BLK_RESET. -/
def execBlkReset (v : Word) (s : State) : Out_ := .next (blkReset s v)
/-- Steps 4 and 5 for an engine instance. -/
def blkFinish (s : State) (st : Status) : State :=
  let t := s.pwr.brCur.toNat
  let s1 := if t = 200 then gatherReset s 0 else if t = 201 then gatherReset s 1 else engReset s [t]
  { s1 with pwr := { s1.pwr with brBusy := false, brStatus := st }, engQuiesce := s1.engQuiesce.filter fun c => c ≠ (if t = 201 then 200 else t) }
/-- The engine instance under reset has no active descriptor. -/
def blkDrained (s : State) : Bool :=
  let t := s.pwr.brCur.toNat
  (engQueue s (if t = 201 then 200 else t)).all fun d => !d.active
/-- End the quiesce of a unit's command: drained, or its wait expired (R510 step 3). -/
def ucbQuiesced (s : State) (u : Nat) (expired : Bool) : State :=
  let x := unitGet s u
  if !x.busy then s
  else if x.cmd = 1 then
    if expired then ucbDone (unitsMove s u (fun st => st = .quiescing) fun _ => .running) u stQuiesceTimeout
    else ucbDone ((tilesUnder u).foldl tileUnpool (unitsMove s u (fun st => st = .quiescing) fun _ => .quiesced)) u stOk
  else if x.cmd = 5 then ucbDone (unitReset s u) u (if expired then stQuiesceTimeout else stOk)
  else s
/-- QUIESCE_DRAINED: nothing of the unit or engine instance is in flight. -/
def execQuiesceDrained (target : Nat) (s : State) : Out_ :=
  if 0xF000 ≤ target then .next (if s.pwr.brBusy ∧ s.pwr.brCur.toNat = target - 0xF000 ∧ blkDrained s then blkFinish s stOk else s)
  else .next (if target < 2048 ∧ unitDrained s target then ucbQuiesced s target false else s)
/-- QUIESCE_TIMEOUT: the wait expires. -/
def execQuiesceTimeout (target : Nat) (s : State) : Out_ :=
  if 0xF000 ≤ target then .next (if s.pwr.brBusy ∧ s.pwr.brCur.toNat = target - 0xF000 then blkFinish s stQuiesceTimeout else s)
  else .next (if target < 2048 then ucbQuiesced s target true else s)

/-- Clear the trouble counters of a mask; a cause that counts in the same access leaves 1 (R37). -/
def troubleClear (s : State) (key : Nat) (mask : BitVec 64) (same : BitVec 64) : State :=
  let x := siliconGet s key
  let s1 := siliconSet s key { x with count := x.count.filter fun e => !mask.getLsbD e.1, sat := x.sat &&& ~~~mask }
  ((List.range 64).filter fun k => same.getLsbD k).foldl (fun s k => addTrouble s key k) s1
/-- UCB_TROUBLE_CLR (R37): absent from group UCBs. -/
def execUcbTroubleClr (u : BitVec 12) (mask : BitVec 64) (same : BitVec 64) (s : State) : Out_ :=
  match ucbKind s u.toNat with
  | none | some 4 => .next s
  | some _ => .next (troubleClear s (siliconKey s u.toNat) mask same)
/-- GROUP_REFRESH. -/
def execGroupRefresh (k : Fin 256) (members : List Member) (s : State) : Out_ := .next (groupRefresh s k.val members)
/-- GROUP_COMMAND_FORWARD. -/
def execGroupCommandForward (k : Fin 256) (answer : Option Status) (s : State) : Out_ := .next (groupForward s k.val answer)

end Sys2Proof.Machine
end

