-- ==== Sys2Proof/Machine/Lehr.lean ====
section
/-! DEFINITION. The Lehr scrub engine (R467-R469), HBM refresh (R452), and arrivals at the sync counters (R368). -/

namespace Sys2Proof.Machine

/-! ## Lehr -/

/-- The range `[a, a + n)` starts on a sector and lies wholly in the flat view or in one per-stack window (R467). -/
def lehrRangeOk (s : State) : Bool :=
  let a := s.lehr.start.toNat * 64
  let n := s.lehr.len.toNat
  n ≠ 0 && n % 64 = 0 && oneHbmRange a n && decide (s.lehr.sampleLog2.toNat ≤ 20)
/-- Position of a flat sector in a pass's view: its address there, or none where the pass does not read it. -/
def lehrAddr (s : State) (sector : Nat) : Option Nat :=
  let p := s.lehr.pass
  let so := stackOf s (sector * 64)
  let a := if p.1 < 0x020000000000 then sector * 64 else 0x020000000000 + so.1 * 2 ^ 37 + so.2
  if p.1 ≤ a ∧ a < p.1 + p.2.1 ∧ (a - p.1) / 64 % 2 ^ p.2.2 = 0 then some a else none
/-- Sectors the running pass reads in all. -/
def lehrTotal (s : State) : Nat := ceilDiv (s.lehr.pass.2.1 / 64) (2 ^ s.lehr.pass.2.2)
/-- Put a damaged sector at its place in ascending address. -/
def lehrOrder (l : List (Nat × Nat)) : List (Nat × Nat) := l.foldl (fun t e => tabInsert t e.1 e.2) []
/-- One damaged sector of a pass (R468): counted, listed or corrected. -/
def lehrSector (s : State) (a sector : Nat) : State :=
  let o := rsDecode ((kvGet s.hbmErr sector).getD [])
  let s1 := countEcc s sector o
  let so := stackOf s (sector * 64)
  let entry := fun (k : Nat) => BitVec.ofNat 64 (a + k * 2 ^ 48 + so.2 / 256 % 64 * 2 ^ 50 + so.1 * 2 ^ 56)
  let list := fun (k : Nat) => if s.lehr.fails.length < 16 then s.lehr.fails ++ [entry k] else s.lehr.fails
  match o with
  | .clean => s1
  | .corrected left =>
    let s2 := { s1 with lehr := { s1.lehr with corr := s1.lehr.corr + 1 } }
    if s.lehr.writeback then patStore s2 sector left else s2
  | .uncorrectable => { s1 with lehr := { s1.lehr with unc := s1.lehr.unc + 1, fails := list 1 } }
  | .mismatch => { s1 with lehr := { s1.lehr with mism := s1.lehr.mism + 1, fails := list 2 } }
/-- Read the first `n` sectors of the pass. -/
def lehrScan (s : State) (n : Nat) : State :=
  let p := s.lehr.pass
  let l := lehrOrder (s.hbmErr.filterMap fun e => (lehrAddr s e.1).map fun a => (a, e.1))
  let s1 := (l.filter fun e => decide ((e.1 - p.1) / 64 / 2 ^ p.2.2 < n)).foldl (fun s e => lehrSector s e.1 e.2) s
  { s1 with lehr := { s1.lehr with sectors := BitVec.ofNat 40 n } }
/-- Start a pass (R467). -/
def lehrStart (s : State) : State :=
  if s.lehr.busy then { s with lehr := { s.lehr with goIgnored := true } }
  else
    let l := { s.lehr with sectors := 0, corr := 0, unc := 0, mism := 0, fails := [] }
    if lehrRangeOk s then { s with lehr := { l with busy := true, pass := (s.lehr.start.toNat * 64, s.lehr.len.toNat, s.lehr.sampleLog2.toNat) } }
    else { s with lehr := { l with status := stScrubRange } }
/-- End the running pass with SCRUB_ABORTED: how many sectors it had read is a free value (R468, log 4). -/
def lehrStop (s : State) : State :=
  if s.lehr.busy then
    let n := (Config.freeWord s.freeCtr).toNat % (lehrTotal s + 1)
    let s1 := lehrScan { s with freeCtr := s.freeCtr + 1 } n
    { s1 with lehr := { s1.lehr with busy := false, status := stScrubAborted } }
  else s
/-- A write of LEHR_CTRL. -/
def lehrCtrl (s : State) (v : Word) : State :=
  let s1 : State := { s with lehr := { s.lehr with
    writeback := v.getLsbD 2, goIgnored := w1cB s.lehr.goIgnored (v.getLsbD 3), share := fld v 4 4, sampleLog2 := fld v 8 5
    ctr := fld v 32 17, ctrEn := v.getLsbD 63 } }
  let s2 := if v.getLsbD 0 then lehrStart s1 else s1
  if v.getLsbD 1 && s.lehr.busy then lehrStop s2 else s2
/-- LEHR_GO: a write of LEHR_CTRL with GO. -/
def execLehrGo (v : Word) (s : State) : Out_ := .next (lehrCtrl s (v ||| 1))
/-- LEHR_ABORT: a write of LEHR_CTRL with ABORT alone, its RW fields as they stand. -/
def execLehrAbort (s : State) : Out_ := .next (lehrStop s)
/-- LEHR_PASS_DONE (R468). -/
def execLehrPassDone (s : State) : Out_ :=
  if s.lehr.busy then
    let s1 := lehrScan s (lehrTotal s)
    let s2 := { s1 with lehr := { s1.lehr with busy := false, status := stOk } }
    .next (if s2.lehr.ctrEn then ctrAdd s2 s2.lehr.ctr.toNat 1 else s2)
  else .next s
/-- HBM_REFRESH (R452): it delays accesses and changes no state. -/
def execHbmRefresh (_stack : Fin 24) (s : State) : Out_ := .next s

/-! ## Adds that arrive at a sync counter (R368) -/

/-- TAGGED_ADD_ARRIVAL: held apart under STRICT while the store of 65,536 adds has room, else it waits in the fabric. -/
def execTaggedAddArrival (ctr : BitVec 17) (amt : Word) (tag : BitVec 128) (job : BitVec 16) (s : State) : Out_ :=
  if strictJob s job && decide (65536 ≤ s.adds.length) then .next s else .next (ctrAddTagged s ctr.toNat amt tag job)
/-- UNTAGGED_ADD_ARRIVAL. -/
def execUntaggedAddArrival (ctr : BitVec 17) (amt : Word) (s : State) : Out_ := .next (ctrAdd s ctr.toNat amt)
/-- A pending add can merge: every source frontier lies above its tag, and no read at or below it is pending. -/
def addMerges (s : State) (a : PendAdd) : Bool :=
  frontsAbove s a.job a.tag && ((kvGet s.dps a.ctr).getD []).all fun r => decide (r.tag.toNat < a.tag.toNat) || r.job ≠ a.job
/-- PENDING_ADD_MERGE: the pending add of the counter with the least tag merges when it can. -/
def execPendingAddMerge (ctr : BitVec 17) (s : State) : Out_ :=
  let k := ctr.toNat
  match (s.adds.filter fun a => a.ctr = k).foldl (fun (b : Option PendAdd) a => match b with
      | some x => if a.tag.toNat < x.tag.toNat then some a else b
      | none => some a) none with
  | none => .next s
  | some a => if addMerges s a then .next (ctrAdd { s with adds := s.adds.erase a } k a.amt) else .next s

end Sys2Proof.Machine
end

