-- ==== Sys2Proof/Machine/Ports.lean ====
section
/-! DEFINITION. Ethernet ports (R382-R392), PTP corrections (R396), management frames (R397) and the enabling of the management ring and the slip journal (R539, R79). -/

namespace Sys2Proof.Machine

/-! ## Configuration and link state (R382-R387) -/

/-- DETAIL of PORT_UP, PORT_DOWN and LINK_DEGRADED (R389). -/
def portDetail (x : Port) (reason : Nat) : Bytes :=
  [x.lanes.setWidth 8, x.rate.setWidth 8, x.state.setWidth 8, BitVec.ofNat 8 reason] ++ leBytes 4 x.lastSym.toNat ++ leBytes 4 x.lastUnc.toNat ++ zeros 4
/-- LANES and RATE hold one of their values. -/
def lanesOk (n : Nat) : Bool := n = 1 || n = 2 || n = 4 || n = 8
/-- A configuration may be enabled at port p (R382, R384). -/
def portCfgOk (s : State) (p lanes rate : Nat) : Bool :=
  lanesOk lanes && (rate = 1 || rate = 2) && p % lanes = 0 && decide (p + lanes ≤ 96) &&
  s.ports.all fun e => e.1 = p || !e.2.en || decide (e.1 + e.2.lanes.toNat ≤ p ∨ p + lanes ≤ e.1)
/-- A port leaves UP: frames queued or in transit are dropped, pauses end, and PORT_DOWN is raised (R385, R386). -/
def portDown (s : State) (p reason : Nat) (st : BitVec 2) : State :=
  let s1 := portCount s p 15 1
  let x := { portGet s1 p with state := st, txq := [], paused := [], pausing := 0, degraded := false, reason := BitVec.ofNat 8 reason }
  raise (portSet s1 p x) 2 0 p (portDetail x reason)
/-- A write of PORT_CFG (R384, R385). -/
def portCfg (s : State) (p : Nat) (v : Word) : State :=
  let x := portGet s p
  let lanes : BitVec 4 := fld v 0 4
  let rate : BitVec 2 := fld v 4 2
  let en := v.getLsbD 6
  let medium := v.getLsbD 7
  if (x.en && (lanes ≠ x.lanes || rate ≠ x.rate || medium ≠ x.medium)) || (en && !portCfgOk s p lanes.toNat rate.toNat) then portSet s p { x with refused := true }
  else
    let y := { x with
      lanes := if lanes = 0 ∨ lanesOk lanes.toNat then lanes else x.lanes
      rate := if rate = 3 then x.rate else rate
      en := en, medium := medium, pfcEn := fld v 8 8 }
    if en && !x.en then portSet s p { y with state := 1, reason := 1, degraded := false }
    else if !en && x.en then
      if x.state = 2 then portDown (portSet s p y) p 2 0 else portSet s p { y with state := 0, degraded := false }
    else portSet s p y
/-- PORT_CFG as it reads. -/
def portCfgReg (x : Port) : Word := put x.lanes 0 ||| put x.rate 4 ||| putB x.en 6 ||| putB x.medium 7 ||| put x.pfcEn 8
/-- PORT_ENABLE: a write of PORT_CFG with EN. -/
def execPortEnable (p : Fin 96) (v : Word) (s : State) : Out_ := .next (portCfg s p.val (v ||| 0x40))
/-- PORT_DISABLE: a write of PORT_CFG that clears EN alone. -/
def execPortDisable (p : Fin 96) (s : State) : Out_ := .next (portCfg s p.val (portCfgReg { portGet s p.val with en := false }))
/-- RETRAIN (R385): ignored unless the port is UP. -/
def portRetrain (s : State) (p : Nat) : State := if (portGet s p).state = 2 then portDown s p 4 1 else s
/-- RETRAIN. -/
def execRetrain (p : Fin 96) (s : State) : Out_ := .next (portRetrain s p.val)
/-- PORT_TRAINING_DONE (R385): not while the Ethernet pads are held (R517). -/
def execPortTrainingDone (p : Fin 96) (s : State) : Out_ :=
  let x := portGet s p.val
  if x.state = 1 ∧ !s.pwr.holdEth then
    let y := { x with state := 2 }
    .next (raise (portSet s p.val y) 1 0 p.val (portDetail y x.reason.toNat))
  else .next s
/-- TRAINING_RETRY (R385): a failed attempt is counted and training starts again. -/
def execTrainingRetry (p : Fin 96) (s : State) : Out_ := .next (if (portGet s p.val).state = 1 ∧ !s.pwr.holdEth then portCount s p.val 13 1 else s)
/-- LOSS_OF_LOCK (R385). -/
def execLossOfLock (p : Fin 96) (s : State) : Out_ := .next (if (portGet s p.val).state = 2 then portDown s p.val 3 1 else s)
/-- FEC_WINDOW_END (R388): counts of the window, and entering or leaving the degraded state. -/
def execFecWindowEnd (p : Fin 96) (cw sym unc : BitVec 32) (s : State) : Out_ :=
  if (portGet s p.val).state = 0 then .next s
  else
    let s1 := portCount (portCount (portCount s p.val 6 cw.toNat) p.val 7 sym.toNat) p.val 8 unc.toNat
    let s2 := addTroubleN s1 0 33 unc.toNat
    let x := { portGet s2 p.val with lastSym := sym, lastUnc := unc }
    let bySym := x.symThresh ≠ 0 && decide (x.symThresh.toNat ≤ sym.toNat)
    let byUnc := x.uncThresh ≠ 0 && decide (x.uncThresh.toNat ≤ unc.toNat)
    let y := { x with degraded := bySym || byUnc }
    let s3 := portSet s2 p.val y
    .next (if y.degraded && !x.degraded then raise s3 3 0 p.val (portDetail y (if bySym then 5 else 6)) else s3)

/-! ## Priority flow control (R392) -/

/-- MAC address of a port (PORT_STATUS). -/
def portMac (s : State) (p : Nat) : Nat := (s.glob.macBase.toNat + p) % 2 ^ 48
/-- A PFC frame for one priority (IEEE 802.1Qbb), without FCS. -/
def pfcFrame (s : State) (p prio quanta : Nat) : Bytes :=
  [0x01, 0x80, 0xC2, 0x00, 0x00, 0x01] ++ beBytes 6 (portMac s p) ++ [0x88, 0x08, 0x01, 0x01] ++ beBytes 2 (2 ^ prio) ++
  ((List.range 8).flatMap fun i => beBytes 2 (if i = prio then quanta else 0)) ++ zeros 26
/-- Send a PFC frame: it is no frame of a priority, so no pause holds it. -/
def pfcSend (s : State) (p prio quanta : Nat) : State :=
  send (portCount (portCount (portCount s p 0 1) p 1 64) p 11 1) (.frame p (pfcFrame s p prio quanta))
/-- PFC_REPEAT: the port looks at the occupancy of a priority, in 4 KiB units: at XOFF a pause begins, it repeats until XON, and then a zero-time frame ends it. -/
def execPfcRepeat (p : Fin 96) (prio : Fin 8) (occ : Nat) (s : State) : Out_ :=
  let x := portGet s p.val
  let on := x.pausing.getLsbD prio.val
  let bit : BitVec 8 := 1#8 <<< prio.val
  if x.state ≠ 2 || !x.pfcEn.getLsbD prio.val then .next s
  else if on && decide (occ ≤ x.xon.toNat) then .next (pfcSend (portSet s p.val { x with pausing := x.pausing &&& ~~~bit }) p.val prio.val 0)
  else if on || decide (x.xoff.toNat ≤ occ) then .next (pfcSend (portSet s p.val { x with pausing := x.pausing ||| bit }) p.val prio.val x.quanta.toNat)
  else .next s
/-- Nanoseconds of a pause of `q` quanta of 512 bit times. -/
def pauseNs (x : Port) (q : Nat) : Nat := ceilDiv (512 * q) (max 1 (x.lanes.toNat * 100 * x.rate.toNat))
/-- The stop of a priority ends: its time is counted, and what waited is sent. -/
def pauseEnd (s : State) (p prio : Nat) (full : Bool) : State :=
  let x := portGet s p
  match x.paused.find? fun e => e.1 = prio with
  | none => s
  | some e =>
    let s1 := portCount (portSet s p { x with paused := x.paused.filter fun y => y.1 ≠ prio, txq := x.txq.filter fun y => y.1 ≠ prio }) p 4
      (if full then e.2.2 else min e.2.2 (s.now - e.2.1).toNat)
    (x.txq.filter fun y => y.1 = prio).foldl (fun s y =>
      let n := match y.2 with
        | .frerak _ ip q => frameLen ip false ((pktBody q).length + 4)
        | .frame _ b => b.length + 4
        | _ => 64
      send (portCount (portCount s p 0 1) p 1 n) y.2) s1
/-- A received PFC frame stops or releases the priorities it names among the enabled ones. -/
def pfcReceive (s : State) (p : Nat) (f : Bytes) : State :=
  if (portGet s p).state ≠ 2 then s
  else
    let v := beNat (sub f 16 2)
    (List.range 8).foldl (fun s i =>
      let x := portGet s p
      if bitOf v i && x.pfcEn.getLsbD i then
        let q := beNat (sub f (18 + 2 * i) 2)
        if q = 0 then pauseEnd s p i false
        else
          let s1 := match x.paused.find? fun e => e.1 = i with
            | some e => portCount s p 4 (min e.2.2 (s.now - e.2.1).toNat)
            | none => s
          portUpd s1 p fun x => { x with paused := (x.paused.filter fun e => e.1 ≠ i) ++ [(i, s.now, pauseNs x q)] }
      else s) (portCount s p 12 1)
/-- The frame is a PFC frame: its EtherType and opcode. -/
def isPfc (f : Bytes) : Bool := sub f 12 4 = [0x88, 0x08, 0x01, 0x01]
/-- PFC_FRAME_RECEIVED. -/
def execPfcFrameReceived (p : Fin 96) (f : Bytes) (s : State) : Out_ := .next (if isPfc f then pfcReceive s p.val f else s)
/-- PFC_PAUSE_EXPIRY: transmission of the priority resumes. -/
def execPfcPauseExpiry (p : Fin 96) (prio : Fin 8) (s : State) : Out_ := .next (pauseEnd s p.val prio.val true)

/-! ## Time and management frames (R396, R397) -/

/-- Write PTP_STEP (R396): below 1 s a slew, which replaces what remains; from 1 s up at once, except backward. -/
def ptpStep (s : State) (step : BitVec 64) : State :=
  let d := step.toInt
  if 1000000000 ≤ d then { s with now := s.now + step, ptpSlew := 0, ptpJump := some (s.now + step) }
  else { s with ptpSlew := d * 2 ^ 40 }
/-- PTP_STEP. -/
def execPtpStep (step : BitVec 64) (s : State) : Out_ := .next (ptpStep s step)
/-- Write MGMT_TX_CTRL (R397). -/
def mgmtTx (s : State) (v : Word) : State :=
  let m := { s.mgmt with txPort := fld v 0 7, txLen := fld v 16 14 }
  let p := (fld v 0 7 : BitVec 7).toNat
  let n := (fld v 16 14 : BitVec 14).toNat
  if !v.getLsbD 8 || s.mgmt.busy || !decide (60 ≤ n ∧ n ≤ 9212) then { s with mgmt := m }
  else if (portGet s p).state ≠ 2 then { s with mgmt := { m with txTs := 0 } }
  else { s with mgmt := { m with busy := true, cur := (p, n, s.mgmt.txAddr.toNat * 64) } }
/-- MGMT_TX_GO: a write of MGMT_TX_CTRL with GO. -/
def execMgmtTxGo (v : Word) (s : State) : Out_ := .next (mgmtTx s (v ||| 0x100))
/-- MGMT_TX_DONE: the frame is sent; a frame that does not read, or whose port has left UP, is not. -/
def execMgmtTxDone (at_ : Word) (s : State) : Out_ :=
  if !s.mgmt.busy then .next s
  else
    let c := s.mgmt.cur
    let r := if inHbm s c.2.2 c.2.1 then physRead s c.2.2 c.2.1 else (stOutOfBounds, [], s)
    let s1 : State := { r.2.2 with mgmt := { r.2.2.mgmt with busy := false } }
    if r.1 ≠ stOk then .next (ownFail { s1 with mgmt := { s1.mgmt with txTs := 0 } } 0 c.2.2 r.1)
    else if (portGet s c.1).state ≠ 2 then .next { s1 with mgmt := { s1.mgmt with txTs := 0 } }
    else .next { portSend s1 c.1 8 (c.2.1 + 4) (.frame c.1 (memBytes r.2.1 0 c.2.1)) with mgmt := { s1.mgmt with txTs := at_ } }
/-- Set the management ring's EN: a 0-to-1 write zeroes HEAD and TAIL (R539). -/
def mgmtRingEn (s : State) (en : Bool) : State :=
  if en && !s.mgmt.ringEn then { s with mgmt := { s.mgmt with ringEn := true, head := 0, tail := 0 } } else { s with mgmt := { s.mgmt with ringEn := en } }
/-- MGMT_RING_ENABLE. -/
def execMgmtRingEnable (s : State) : Out_ := .next (mgmtRingEn s true)
/-- Set the slip journal's EN: a 0-to-1 write zeroes HEAD, TAIL and LOST (R79). -/
def slipRingEn (s : State) (en : Bool) : State :=
  if en && !s.pace.ringEn then { s with pace := { s.pace with ringEn := true, ringHead := 0, ringTail := 0, ringLost := 0 } }
  else { s with pace := { s.pace with ringEn := en } }
/-- SLIP_RING_ENABLE. -/
def execSlipRingEnable (s : State) : Out_ := .next (slipRingEn s true)
/-- Put a received frame into the management ring (R397): with EN 0 or a full ring it is dropped and counted. -/
def mgmtFrame (s : State) (p : Nat) (f : Bytes) (at_ : Word) : State :=
  let m := s.mgmt
  if !m.ringEn || decide (2 ^ m.ringSize.toNat ≤ (m.head - m.tail).toNat) then portCount s p 10 1
  else
    let pa := m.ringBase.toNat * 16384 + 16384 * (m.head.toNat % 2 ^ m.ringSize.toNat)
    let w1 := physPut s pa (leBytes 8 at_.toNat ++ [BitVec.ofNat 8 p])
    let w2 := physPut w1.2 (pa + 10) (leBytes 2 f.length)
    let w3 := physPut w2.2 (pa + 64) f
    let st := if w1.1 ≠ stOk then w1.1 else if w2.1 ≠ stOk then w2.1 else w3.1
    let s1 := if !inHbm s pa 16384 then ownFail s 1 pa stOutOfBounds else if st ≠ stOk then ownFail s 1 pa st else w3.2
    portCount { s1 with mgmt := { s1.mgmt with head := m.head + 1 } } p 5 1

end Sys2Proof.Machine
end

