-- ==== Sys2Proof/Machine/Regs.lean ====
section
/-! DEFINITION. What the unit control blocks (R30-R38) and the register blocks (R531-R540) read as. -/

namespace Sys2Proof.Machine

/-! ## Unit control blocks -/

/-- The least of a list. -/
def minOf (l : List Nat) : Nat := l.foldl min (l.headD 0)
/-- UCB_STATE.SPARES (R33). -/
def ucbSpares (s : State) (u : Nat) : Nat :=
  if u = 0 then minOf ((List.range 48).map fun n => (sparesOf s n).length)
  else if u < 7 then minOf ((rangeFrom (8 * (u - 1)) 8).map fun n => (sparesOf s n).length)
  else if 8 ≤ u ∧ u < 56 then (sparesOf s (u - 8)).length
  else if 2048 ≤ u then ((groupGet s (u - 2048)).map fun g => g.spares.toNat).getD 0
  else 0
/-- State of a unit as UCB_STATE shows it: retired slots and tiles without a slot stand apart (R33). -/
def ucbStateOf (s : State) (u : Nat) : UState :=
  if 1024 ≤ u ∧ u < 1888 ∧ (slotStateOf s (u - 1024) = .factoryRetired ∨ slotStateOf s (u - 1024) = .fieldRetired) then .retired
  else if 64 ≤ u ∧ u < 832 ∧ !backed s (u - 64) then .failed
  else if 2048 ≤ u then ((groupGet s (u - 2048)).map (·.st)).getD .off
  else (unitGet s (ucbHome s u)).st
/-- Code of a unit state. -/
def uStateCode : UState → Nat
  | .off => 0 | .resetting => 1 | .ready => 2 | .running => 3 | .quiescing => 4
  | .quiesced => 5 | .frozen => 6 | .failed => 7 | .retired => 8
/-- UCB_ID (R31, R33). -/
def ucbIdReg (s : State) (u : Nat) : Nat :=
  let base := 1 * 2 ^ 8
  if u = 0 then 3 + base + s.devUnit.toNat * 2 ^ 32 + s.devGroup.toNat * 2 ^ 40
  else if u < 7 then 2 + base + (u - 1) * 2 ^ 16 + 0xFFFF * 2 ^ 32
  else if u < 56 then 1 + base + (u - 8) / 8 * 2 ^ 16 + (u - 8) % 8 * 2 ^ 19 + 0xFFFF * 2 ^ 32
  else if u < 832 then
    let L := u - 64
    base + L / 128 * 2 ^ 16 + L / 16 % 8 * 2 ^ 19 + L % 16 * 2 ^ 22 + slotOf s L * 2 ^ 26 + 0xFFFF * 2 ^ 32
  else if u < 1888 then
    let i := u - 1024
    let t := tileOfSlot s i
    5 + b2n t.isNone * 2 ^ 4 + base + i / 144 * 2 ^ 16 + i / 18 % 8 * 2 ^ 19 + ((t.map (· % 16)).getD 0) * 2 ^ 22 + i % 18 * 2 ^ 26 + 2 ^ 31 + 0xFFFF * 2 ^ 32
  else 4 + base + 0xFF * 2 ^ 32 + ((groupGet s (u - 2048)).map fun g => g.g.toNat).getD 0xFF * 2 ^ 40
/-- Children of a unit as local locators (R34). -/
def ucbChildren (s : State) (u : Nat) : List Word :=
  let loc := fun (l : List Nat) => l.map localHandle
  if u = 0 then loc (rangeFrom 1 6)
  else if u < 7 then loc (rangeFrom (8 + 8 * (u - 1)) 8)
  else if 8 ≤ u ∧ u < 56 then loc (rangeFrom (64 + 16 * (u - 8)) 16)
  else if 2048 ≤ u then ((groupGet s (u - 2048)).map (·.children)).getD []
  else []
/-- UCB_TDC (R33, R58). -/
def ucbTdc (s : State) (u : Nat) : Word := if 2048 ≤ u then ((groupGet s (u - 2048)).map (·.tdc)).getD 0 else (unitGet s (ucbHome s u)).tdc
/-- UCB_HS_RATE. -/
def ucbRate (s : State) (u : Nat) : Nat :=
  let h := ucbHome s u
  minOf (((tilesUnder h).filter (backed s)).map fun L => (hsRate s L).toNat)
/-- UCB_HEALTH (R478). -/
def ucbHealth (s : State) (u : Nat) : Nat :=
  if 2048 ≤ u then ((groupGet s (u - 2048)).map fun g => g.score.toNat + g.conf.toNat * 2 ^ 16).getD 0
  else
    let x := siliconGet s (siliconKey s u)
    x.score + min 1000 (1000 * s.flt.hours / s.flt.confH.toNat) * 2 ^ 16
/-- Trouble counter k as a UCB shows it (R22, R476). -/
def ucbCount (s : State) (u k : Nat) : Nat :=
  if 2048 ≤ u then ((groupGet s (u - 2048)).map fun g => (tabGet 0 g.counts k).toNat).getD 0
  else (tabGet 0 (siliconGet s (siliconKey s u)).count k).toNat
/-- Pack fields of `w` bits, lowest first. -/
def packBits (w : Nat) : List Nat → Nat
  | [] => 0
  | x :: r => x % 2 ^ w + 2 ^ w * packBits w r
/-- A UCB register (R33): every offset that names none reads zero. -/
def ucbRead (s : State) (u off : Nat) : Word :=
  BitVec.ofNat 64 <|
  let x := unitGet s (ucbHome s u)
  let cmds := !(1024 ≤ u && u < 1888)
  if off % 8 ≠ 0 then 0
  else if off = 0x000 then ucbIdReg s u
  else if off = 0x008 then uStateCode (ucbStateOf s u) + ucbSpares s u * 2 ^ 16
  else if off = 0x010 then (ucbChildren s u).length
  else if off = 0x020 then if cmds then (if x.busy then x.cmd.toNat else 0) + x.timeout.toNat * 2 ^ 16 else 0
  else if off = 0x028 then if cmds then b2n x.busy + b2n x.collide * 2 + x.status.toNat * 2 ^ 16 + x.last.toNat * 2 ^ 32 else 0
  else if off = 0x040 then (ucbTdc s u).toNat
  else if off = 0x050 then ucbRate s u
  else if off = 0x058 then if 2048 ≤ u then ((groupGet s (u - 2048)).map fun g => g.refresh.toNat).getD 0 else s.now.toNat
  else if 0x100 ≤ off ∧ off < 0x180 then packBits 16 ((rangeFrom (4 * ((off - 0x100) / 8)) 4).map (ucbCount s u))
  else if off = 0x180 then if 2048 ≤ u then 0 else (siliconGet s (siliconKey s u)).sat.toNat
  else if off = 0x200 then ucbHealth s u
  else if 8 ≤ u ∧ u < 56 ∧ off = 0x300 then packBits 5 ((rangeFrom (16 * (u - 8)) 12).map (slotOf s))
  else if 8 ≤ u ∧ u < 56 ∧ off = 0x308 then packBits 5 ((rangeFrom (16 * (u - 8) + 12) 4).map (slotOf s))
  else if 8 ≤ u ∧ u < 56 ∧ off = 0x310 then
    packBits 2 ((rangeFrom (18 * (u - 8)) 18).map fun i => match slotStateOf s i with
      | .mapped => 0 | .fieldSpare => 1 | .factoryRetired => 2 | .fieldRetired => 3)
  else if u = 0 ∧ 0x320 ≤ off ∧ off < 0x340 then subNat (spareDigest s) (off - 0x320) 8
  else if 0x800 ≤ off then (((ucbChildren s u)[(off - 0x800) / 8]?).map (·.toNat)).getD 0
  else 0

/-! ## Registers of the blocks -/

/-- FAULT_N is driven low (R537). -/
def faultN (s : State) : Bool := s.pwr.fuseFail || s.pwr.failed || s.glob.tripped || s.glob.faultAssert || !s.pwr.refclk
/-- The power cap in force, or none (R534). -/
def capInForce (g : Global) : Option Nat :=
  match g.capW.toNat, g.bmcCapW.toNat with
  | 0, 0 => none
  | 0, b => some b
  | a, 0 => some a
  | a, b => some (min a b)
/-- Global block (R533). -/
def globRead (s : State) (off : Nat) : Word :=
  let g := s.glob
  match off with
  | 0x000 => put (0x9600#16) 0 ||| put g.stepping 16 ||| put g.speedBin 24
  | 0x008 => putB (faultN s) 0 ||| putB g.tripped 1 ||| put (BitVec.ofNat 7 s.jobs.length) 8 ||| putB (s.jobs.any (·.paced)) 15
  | 0x010 => putB g.faultAssert 0
  | 0x040 => put g.capW 0 ||| put g.bmcCapW 16
  | 0x048 => put g.vset 0 ||| put g.target 16
  | 0x050 => put g.powerW 0 ||| put g.vcore 16 ||| put g.limit 26 ||| putB g.capUnmet 28
  | 0x058 => put g.tjMax 0 ||| put g.trip 16
  | 0x080 => put g.evtSeen 1
  | 0x088 => put g.unrouted 0
  | _ => 0
/-- MIRROR_OK (R448). -/
def mirrorOk (s : State) : Bool := s.host.mirrorOk && s.media.state ≠ 0 && s.media.state ≠ 4 && s.media.state ≠ 5
/-- HI_JMIRROR: the highest JSN up to which every entry is on flash in its latest state. -/
def jMirror (s : State) : Nat := (s.host.unmirrored.foldl (fun m j => min m j) s.host.jnext.toNat) - 1
/-- Base of the HDM window in GiB (R429): below the map region, or below the top of the populated flat view. -/
def hdmBase (s : State) : Nat := (if s.media.mapSize = 0 then Config.hbmSize / 2 ^ 30 else s.media.mapBase) - s.host.hdmSize.toNat
/-- HI_CAP. -/
def hiCap (s : State) : Word := put (1#8) 0 ||| put (8192#14) 16 ||| put (64#8) 30 ||| putB true 38 ||| putB true 39 ||| putB s.host.linkCxl 40
/-- Completion ring r. -/
def cringGet (s : State) (r : Nat) : CRing := (kvGet s.host.crings r).getD {}
/-- Host interface block (15, "Host interface registers"). -/
def hostRead (s : State) (off : Nat) : Word :=
  let h := s.host
  match off with
  | 0x000 => hiCap s
  | 0x008 => put h.drvMajor 0 ||| put h.drvMinor 8 ||| putB h.enable 16 ||| putB h.accepted 17 ||| put h.activeMinor 24
  | 0x010 => h.jnext
  | 0x018 => BitVec.ofNat 64 (jMirror s)
  | 0x020 => putB (mirrorOk s) 0
  | 0x028 => put h.hdmSize 0 ||| putB h.hdmLocked 9 ||| put (BitVec.ofNat 18 (hdmBase s)) 30
  | o =>
    if 0x100 ≤ o ∧ o < 0x900 then
      let c := cringGet s ((o - 0x100) / 0x20)
      match o % 0x20 with
      | 0x00 => put c.addr 6
      | 0x08 => put c.sizeLog2 0 ||| putB c.en 5 ||| put c.vector 8 ||| putB c.full 14
      | 0x10 => c.head
      | 0x18 => c.tail
      | _ => 0
    else 0
/-- Pace block (02, "Pace and order registers"). -/
def paceRead (s : State) (off : Nat) : Word :=
  let p := s.pace
  match off with
  | 0x000 => put p.mult 0 ||| putB p.lock 8
  | 0x008 => p.tick
  | 0x010 => p.t0
  | 0x018 => p.period
  | 0x020 => put p.slips 0
  | 0x028 => put p.ringBase 12
  | 0x030 => put p.ringSize 0 ||| putB p.ringEn 8
  | 0x038 => p.ringHead
  | 0x040 => p.ringTail
  | 0x048 => put p.ringLost 0
  | 0x050 => put p.stallLimit 0
  | 0x058 => putB p.stalled 0 ||| putB p.tdcStrict 1 ||| putB p.collided 2
  | _ => 0
/-- Transport block (11, "Transport registers"). -/
def xpRead (s : State) (off : Nat) : Word :=
  let x := s.xp
  match off with
  | 0x000 => put x.qpt 12
  | 0x008 => put x.mrtLog2 0 ||| put x.mrt 12
  | 0x010 => put x.ringt 12
  | 0x018 => put x.cmdAddr 7
  | 0x020 => putB x.busy 1 ||| put x.status 16 ||| put x.result 32
  | 0x028 => put x.mpl 0 ||| put x.respWait 16 ||| put x.idle 32 ||| put x.rtoMin 48
  | 0x030 => put x.targetDelay 0 ||| put x.ai 16 ||| put x.beta 32 ||| put x.retryMax 40
  | 0x038 => put x.dport 0 ||| put x.sportBase 16 ||| put x.waitLimit 32
  | _ => 0
/-- Cullet block (12, "Pool registers"). -/
def culRead (s : State) (off : Nat) : Word :=
  if off < 0x1000 then
    let p := poolGet s (off / 0x40)
    match off % 0x40 with
    | 0x00 => put p.addr 8
    | 0x08 => put p.bufLog2 0 ||| putB p.loc 5 ||| put p.count 8 ||| put p.job 48
    | 0x10 => put p.sbase 12
    | 0x18 => put p.wm1 0 ||| put p.wm2 16 ||| put p.wm3 32 ||| put p.hyst 48
    | 0x20 => putB p.en 0 ||| putB p.ready 1 ||| putB p.refused 2 ||| put p.genSeed 16
    | 0x28 => if p.ready then BitVec.ofNat 64 (poolFree p) ||| put p.level 34 ||| BitVec.ofNat 64 (min 0xFFFF p.waiters.length * 2 ^ 48) else 0
    | 0x30 => put p.wraps 0
    | _ => 0
  else
    match off with
    | 0x1000 => put s.cul.quotaBase 12
    | 0x1008 => put s.cul.delay 0
    | _ => 0
/-- Port block (13, "Port registers"; R398). -/
def portRead (s : State) (off : Nat) : Word :=
  let p := off / 0x100
  let x := portGet s p
  match off % 0x100 with
  | 0x00 => portCfgReg x
  | 0x08 => put x.state 0 ||| putB x.refused 2 ||| putB x.degraded 3 ||| BitVec.ofNat 64 (portMac s p * 2 ^ 16)
  | 0x18 => put x.symThresh 0 ||| put x.uncThresh 32
  | 0x20 => put x.xoff 0 ||| put x.xon 16 ||| put x.quanta 32
  | o => if 0x80 ≤ o then put (tabGet 0 x.cnt ((o - 0x80) / 8)) 0 else 0
/-- MEDIA_STATUS. -/
def mediaStatus (m : Media) : Word := put m.state 0 ||| BitVec.ofNat 64 ((if m.formatted then lifeUsed m else 0) * 2 ^ 8) ||| put m.last 16
/-- MEDIA_CAP. -/
def mediaCap (m : Media) : Word := BitVec.ofNat 64 (m.userLbas % 2 ^ 40 + m.objUnits * 2 ^ 40)
/-- MEDIA_META. -/
def mediaMeta (m : Media) : Word := BitVec.ofNat 64 (m.metaLbas % 2 ^ 40)
/-- MEDIA_SPARES. -/
def mediaSpares (m : Media) : Word := put m.spareInit 0 ||| put m.spareLeft 32
/-- Media block (14, "Media registers"). -/
def mediaRead (s : State) (off : Nat) : Word :=
  let m := s.media
  match off with
  | 0x000 => mediaStatus m
  | 0x008 => put m.planes 0 ||| put m.cwpp 3 ||| put m.pages 8 ||| put m.units 21 ||| put m.luns 37 ||| put m.targets 39
  | 0x010 => m.channels
  | 0x018 => mediaCap m
  | 0x020 => mediaMeta m
  | 0x028 => put m.metaPermil 0 ||| put m.opPermil 4 ||| put m.objUnitsReg 16
  | 0x030 => mediaSpares m
  | 0x038 => put m.wValid 0 ||| put m.wAge 16 ||| put m.wWear 32 ||| put m.ageShift 48
  | 0x040 => put m.gcLow 0 ||| put m.gcHigh 8 ||| put m.wlDelta 16 ||| put m.spareMin 32
  | 0x048 => put m.refreshBits 0 ||| put m.readLimit 16
  | 0x050 => BitVec.ofNat 64 (m.mapBase * 2 ^ 30 + m.mapSize * 2 ^ 48)
  | _ => 0
/-- Memory block (16, "Lehr passes", "Error counters"). -/
def memBlkRead (s : State) (off : Nat) : Word :=
  let m := s.mem
  let l := s.lehr
  match off with
  | 0x000 => BitVec.ofNat 64 (packBits 5 ((m.ilv.take 12).map (·.toNat)))
  | 0x008 => BitVec.ofNat 64 (packBits 5 (((m.ilv.drop 12).take 12).map (·.toNat)))
  | 0x010 => putB m.fillDone 0 ||| putB m.locked 1 ||| put m.stackOk 2
  | 0x1000 => put l.start 6
  | 0x1008 => put l.len 0
  | 0x1010 => putB l.writeback 2 ||| putB l.goIgnored 3 ||| put l.share 4 ||| put l.sampleLog2 8 ||| put l.ctr 32 ||| putB l.ctrEn 63
  | 0x1018 => putB l.busy 0 ||| put l.status 16 ||| BitVec.ofNat 64 (l.fails.length * 2 ^ 32)
  | 0x1020 => put l.sectors 0
  | 0x1028 => put l.corr 0
  | 0x1030 => put l.unc 0
  | 0x1038 => put l.mism 0
  | o =>
    if 0x100 ≤ o ∧ o < 0x400 then
      let st := (o - 0x100) / 0x20
      match o % 0x20 with
      | 0x00 => put (tabGet 0 m.corr st) 0
      | 0x08 => put (tabGet 0 m.unc st) 0
      | 0x10 => put (tabGet 0 m.mism st) 0
      | _ => 0
    else if 0x1040 ≤ o ∧ o < 0x10C0 then l.fails.getD ((o - 0x1040) / 8) 0
    else 0
/-- Fault block (R498). -/
def fltRead (s : State) (off : Nat) : Word :=
  let f := s.flt
  match off with
  | 0x000 => put f.cmdAddr 7
  | 0x008 => putB f.busy 1 ||| put f.status 16 ||| put f.result 32
  | 0x100 => put f.decayShift 0 ||| put f.tickH 8 ||| put f.hyst 16 ||| put f.confH 32
  | 0x1C0 => put f.canaryLimit 0
  | 0x1C8 => put f.trcBase 12
  | 0x200 => put f.lsState 0 ||| put f.lsJob 16
  | 0x208 => put f.lsTile 0 ||| put f.lsOrd 10 ||| putB f.lsKind 18 ||| put f.lsSegment 24
  | 0x210 => f.lsBatch
  | 0x218 => put f.lsTimeout 0
  | o =>
    if 0x040 ≤ o ∧ o < 0x0B0 then (f.suspect >>> (64 * ((o - 0x040) / 8))).setWidth 64
    else if 0x140 ≤ o ∧ o < 0x1C0 then BitVec.ofNat 64 (packBits 16 ((rangeFrom (4 * ((o - 0x140) / 8)) 4).map (weightOf s)))
    else 0
/-- Power block (18, "Reset and power registers"). -/
def pwrRead (s : State) (off : Nat) : Word :=
  let p := s.pwr
  match off with
  | 0x000 => putB p.warm 0 ||| put p.source 1 ||| putB p.fuseFail 3 ||| put p.fuseTries 4 ||| put p.stage 8 ||| put p.status 16 ||| put p.warmCount 32
  | 0x008 => put p.state 0 ||| put p.target 2 ||| putB p.entering 4 ||| putB p.wakePending 5
  | 0x010 => put p.ret 30
  | 0x018 => putB p.holdNand 0 ||| putB p.holdEth 1 ||| putB p.autoNand 16 ||| putB p.autoEth 17
  | 0x020 => 1 ||| put p.wakeEn 1
  | 0x028 => put p.wakeSeen 0
  | 0x030 => put p.wakeTimer 0
  | 0x040 => put p.brTarget 0 ||| putB p.brBusy 9 ||| put p.brTimeout 16 ||| put p.brStatus 48
  | _ => 0
/-- Security block (19, "Security registers"). -/
def secRead (s : State) (off : Nat) : Word :=
  let c := s.sec
  match off with
  | 0x000 => putB c.active 0 ||| putB c.booted 1 ||| putB c.fallback 2 ||| put c.bootReason 8 ||| put c.fwMin 16 ||| put c.rtMin 24 ||| put c.revoked 32
  | 0x100 => put c.cmdAddr 7
  | 0x108 => putB c.busy 1 ||| put c.reason 8 ||| put c.result 16
  | o => if 0x040 ≤ o ∧ o < 0x0C0 then BitVec.ofNat 64 (subNat (c.meas.flatten) (o - 0x040) 8) else 0
/-- Management block (R539). -/
def mgmtRead (s : State) (off : Nat) : Word :=
  let m := s.mgmt
  match off with
  | 0x000 => put s.ptpRate 0
  | 0x008 => BitVec.ofInt 64 (s.ptpSlew / 2 ^ 40)
  | 0x010 => s.now
  | 0x020 => put m.ringBase 14
  | 0x028 => put m.ringSize 0 ||| putB m.ringEn 8
  | 0x030 => m.head
  | 0x038 => m.tail
  | 0x040 => put m.txAddr 6
  | 0x048 => put m.txPort 0 ||| putB m.busy 9 ||| put m.txLen 16
  | 0x050 => m.txTs
  | 0x058 => put m.neigh 17
  | _ => 0
/-- A register of block `blk` (R531): an aligned 8-byte offset that names none reads zero. -/
def regRead (s : State) (blk off : Nat) : Word :=
  if off % 8 ≠ 0 then 0
  else match blk with
    | 0 => globRead s off
    | 1 => hostRead s off
    | 2 => paceRead s off
    | 3 => xpRead s off
    | 4 => culRead s off
    | 5 => portRead s off
    | 6 => mediaRead s off
    | 7 => memBlkRead s off
    | 8 => fltRead s off
    | 9 => pwrRead s off
    | 10 => secRead s off
    | 11 => mgmtRead s off
    | 12 => put (tabGet 0 s.engCnt (off / 8)) 0
    | _ => 0
/-- The state a read leaves: SLIP_RING_LOST is the one RC field (R6). -/
def regReadFx (s : State) (blk off : Nat) : State :=
  if blk = 2 ∧ off = 0x048 then { s with pace := { s.pace with ringLost := 0 } } else s

end Sys2Proof.Machine
end

