-- ==== Sys2Proof/Machine/Host.lean ====
section
/-! DEFINITION. The host interface (spec 15): the journal, acceptance and completion of commands, completion rings and MSI-X, the storage commands, logs, self-tests, the HDM window and the link. -/

namespace Sys2Proof.Machine

/-! ## The command journal (R447-R449) -/

/-- Position of a JSN's entry in the ring. -/
def jrnPos (j : Nat) : Nat := (j - 1) % 2 ^ 20
/-- A journal entry (R447). -/
def jrnEntry (jsn slot op state st tag r0 : Nat) (hash : Bytes) (accept done : Nat) : Bytes :=
  leBytes 8 jsn ++ leBytes 2 slot ++ leBytes 1 op ++ leBytes 1 state ++ leBytes 2 st ++ zeros 2 ++ leBytes 4 tag ++ zeros 4 ++
  leBytes 8 r0 ++ sub hash 0 16 ++ leBytes 8 accept ++ leBytes 8 done
/-- Write the entry of a JSN; it waits for the mirror. -/
def jrnPut (s : State) (j : Nat) (e : Bytes) : State :=
  { s with host := { s.host with
      journal := kvSet s.host.journal (jrnPos j) e
      unmirrored := (s.host.unmirrored.filter fun k => jrnPos k ≠ jrnPos j) ++ [j] } }
/-- Rewrite the entry of a JSN at its end, unless a later JSN's entry has overwritten it. -/
def jrnDone (s : State) (j state : Nat) (st : Status) (r0 : Word) : State :=
  match kvGet s.host.journal (jrnPos j) with
  | some e =>
    if subNat e 0 8 = j then
      jrnPut s j (jrnEntry j (subNat e 8 2) (subNat e 10 1) state st.toNat (subNat e 0x10 4) r0.toNat (sub e 0x20 16) (subNat e 0x30 8) s.now.toNat)
    else s
  | none => s
/-- Take the next JSN: the flash ceiling stays above it, and the coarse ceiling is raised in time (R448, R449). -/
def jrnNext (s : State) : Nat × State :=
  let h := s.host
  let j := h.jnext
  let n := j + 1
  (j.toNat, { s with host := { h with
    jnext := n
    ceiling := if mirrorOk s && decide (h.ceiling ≤ n) then n + 2 ^ 20 else h.ceiling
    ceilLog := if (ceilTop h.ceilLog).2.1.toNat - n.toNat ≤ 2 ^ 39 then ceilRaise h.ceilLog else h.ceilLog } })
/-- Mirror the ring to flash (R448). -/
def jrnMirrorNow (s : State) : State :=
  if mirrorOk s then { s with host := { s.host with mirror := s.host.journal, unmirrored := [], ceiling := s.host.jnext + 2 ^ 20 } } else s
/-- JOURNAL_MIRROR. -/
def execJournalMirror (s : State) : Out_ := .next (jrnMirrorNow s)

/-! ## Completion rings and MSI-X (R434, R435) -/

/-- Change a completion ring. -/
def cringUpd (s : State) (r : Nat) (f : CRing → CRing) : State := { s with host := { s.host with crings := kvSet s.host.crings r (f (cringGet s r)) } }
/-- Dword i of the MSI-X table, 0 to 255: address low and high, data, control; the control word is masked at reset (log 32). -/
def msixDword (s : State) (i : Nat) : Nat :=
  let w := (tabGet 0 s.host.msixTab (i / 2)).toNat
  let d := if i % 2 = 0 then w % 2 ^ 32 else w / 2 ^ 32
  if i % 4 = 3 then d.xor 1 else d
/-- Send the message of a vector; a masked vector sets its pending bit. -/
def msixSend (s : State) (v : Nat) : State :=
  if bitOf (msixDword s (4 * v + 3)) 0 then { s with host := { s.host with pba := s.host.pba ||| (1#64 <<< v) } }
  else send s (.msix (BitVec.ofNat 64 (msixDword s (4 * v) + msixDword s (4 * v + 1) * 2 ^ 32)) (BitVec.ofNat 32 (msixDword s (4 * v + 2))))
/-- Write one ring entry, advance HEAD, and send the ring's message unless one was sent since TAIL was written. -/
def cringPut (s : State) (r : Nat) (e : Bytes) : State :=
  let c := cringGet s r
  let a := c.addr.toNat * 64 + 32 * (c.head.toNat % 2 ^ c.sizeLog2.toNat)
  let s1 := cringUpd { s with hostMem := memWrite s.hostMem a e } r fun c => { c with head := c.head + 1, sent := true }
  if c.sent then s1 else msixSend s1 c.vector.toNat
/-- The ring holds as many entries as it has places. -/
def cringFull (c : CRing) : Bool := decide (2 ^ c.sizeLog2.toNat ≤ (c.head - c.tail).toNat)
/-- Give a ring an entry: it is written, or it waits behind the others (R435). A ring that is disabled by now discards it. -/
def cringPush (s : State) (r : Nat) (e : Bytes) : State :=
  let c := cringGet s r
  if !c.en then s
  else if cringFull c || !c.waiting.isEmpty then cringUpd s r fun c => { c with waiting := c.waiting ++ [e], full := true }
  else cringPut s r e
/-- CRING_ENTRY_WRITE: the first waiting entry is written once there is room. -/
def execCringEntryWrite (ring : Fin 64) (s : State) : Out_ :=
  let c := cringGet s ring.val
  match c.waiting with
  | e :: r =>
    if cringFull c || !c.en then .next s
    else
      let s1 := cringPut (cringUpd s ring.val fun c => { c with waiting := r }) ring.val e
      .next (if cringFull (cringGet s1 ring.val) && !r.isEmpty then cringUpd s1 ring.val fun c => { c with full := true } else s1)
  | [] => .next s
/-- A write of HI_CRING_CTRL: EN 0 to 1 zeroes HEAD and TAIL, EN 0 discards what waits (R435, R512). -/
def cringCtrl (s : State) (r : Nat) (v : Word) : State :=
  cringUpd s r fun c =>
    let en := v.getLsbD 5
    { c with
      sizeLog2 := rwIn c.sizeLog2 (fld v 0 5) 4 16
      en := en
      vector := fld v 8 6
      full := w1cB c.full (v.getLsbD 14)
      head := if en && !c.en then 0 else c.head
      tail := if en && !c.en then 0 else c.tail
      sent := if en && !c.en then false else c.sent
      waiting := if en then c.waiting else [] }
/-- HI_CRING_ENABLE. -/
def execHiCringEnable (ring : Fin 64) (v : Word) (s : State) : Out_ := .next (cringCtrl s ring.val v)

/-! ## Slots: acceptance and completion (R431-R434, R446) -/

/-- Task slot k. -/
def slotGet (s : State) (k : Nat) : Slot := (kvGet s.host.slots k).getD {}
/-- Store task slot k. -/
def slotSet (s : State) (k : Nat) (x : Slot) : State := { s with host := { s.host with slots := kvSet s.host.slots k x } }
/-- Field of a latched command area. -/
def areaNat (x : Slot) (off n : Nat) : Nat := memNat x.latched off n
/-- Opcodes that R436 and R438 define. -/
def hostOp (op : Nat) : Bool := decide (1 ≤ op ∧ op ≤ 8) || decide (0x20 ≤ op ∧ op ≤ 0x29)
/-- The device is in PS0 and not entering another state. -/
def inPs0 (s : State) : Bool := s.pwr.state = 0 && !s.pwr.entering
/-- A wake event with its bit of WAKE_STATUS (R515, R518). -/
def wakeEvent (s : State) (bit : Nat) : State :=
  if inPs0 s then s
  else
    let p := { s.pwr with wakeSeen := s.pwr.wakeSeen ||| (1#5 <<< bit) }
    if s.pwr.entering then { s with pwr := { p with wakePending := true } } else { s with pwr := { p with wakeStep := max 1 p.wakeStep } }
/-- Complete an accepted command (R434), with the state its journal entry takes: 2 DONE, 3 ABORTED. -/
def slotFinish (s : State) (k : Nat) (st : Status) (r0 r1 : Word) (jst : Nat) : State :=
  let x := slotGet s k
  if x.state ≠ 1 then s
  else
    let s1 := slotSet s k { x with state := 2, status := st, result0 := r0, result1 := r1, phase := 0 }
    let s2 := jrnDone s1 x.jsn.toNat jst st r0
    if bitOf (areaNat x 1 1) 0 then
      cringPush s2 (areaNat x 2 1) (leBytes 8 x.jsn.toNat ++ leBytes 4 (areaNat x 4 4) ++ leBytes 2 k ++ leBytes 2 st.toNat ++ leBytes 8 r0.toNat ++ leBytes 8 r1.toNat)
    else s2
/-- End an accepted command (R434). -/
def slotDone (s : State) (k : Nat) (st : Status) (r0 r1 : Word) : State := slotFinish s k st r0 r1 2
/-- Accept the command of a slot (R432); a reserved OPCODE completes as soon as the device is in PS0 (R433, R446). -/
def slotAccept (s : State) (k : Nat) : State :=
  let x := slotGet s k
  let n := jrnNext s
  let op := (tabGet 0 x.area 0).toNat
  let e := jrnEntry n.1 k op 1 0 (memNat x.area 4 4) 0 (shake (memBytes x.area 0 64)) s.now.toNat 0
  let s1 := slotSet n.2 k {
    x with
    state := 1, jsn := BitVec.ofNat 64 n.1, latched := x.area
    phase := if inPs0 s then 0 else 16 + (if s.pwr.entering then s.pwr.target else s.pwr.state).toNat }
  if inPs0 s then
    let s2 := jrnPut s1 n.1 e
    if hostOp op then s2 else slotDone s2 k stOpcodeInvalid 0 0
  else wakeEvent { s1 with host := { s1.host with lateJournal := s1.host.lateJournal ++ [(n.1, e)] } } 0
/-- The journal is in service (R448, R506): reloaded after a cold reset, and its HBM filled. -/
def journalUp (s : State) : Bool := !s.host.reload && decide (6 ≤ s.pwr.stage.toNat) && !s.pwr.asserted
/-- A GO to a slot that holds no accepted command (R432). -/
def slotTake (s : State) (k : Nat) : State :=
  if s.host.accepted then slotAccept s k
  else slotSet s k { slotGet s k with state := 2, status := stHostNotEnabled, jsn := 0 }
/-- GO to a slot (R432, R448, R506). -/
def slotGo (s : State) (k : Nat) : State :=
  let x := slotGet s k
  if x.state = 1 then slotSet s k { x with goIgnored := true }
  else if s.host.accepted && !journalUp s then
    if s.host.latchedGo.contains k then s else { s with host := { s.host with latchedGo := s.host.latchedGo ++ [k] } }
  else slotTake s k
/-- Accept what was latched, in latch order, once the journal is in service. -/
def latchedTake (s : State) : State :=
  if journalUp s then s.host.latchedGo.foldl slotTake { s with host := { s.host with latchedGo := [] } } else s
/-- TS_GO: it reaches the device over a trained link. -/
def execTsGo (slot : Fin 8192) (s : State) : Out_ := .next (if s.host.trained then slotGo s slot.val else s)
/-- A write of HI_DRV (R430); the interface is granted from step 8 of bring-up on (R508, R509). -/
def hiDrv (s : State) (v : Word) : State :=
  let h := s.host
  let en := v.getLsbD 16
  let up := decide (7 ≤ s.pwr.stage.toNat) && !s.pwr.failed && !s.pwr.asserted
  let ok := en && up && (fld v 0 8 : BitVec 8) = 1 && (fld v 8 8 : BitVec 8) = 0
  { s with host := { h with drvMajor := fld v 0 8, drvMinor := fld v 8 8, enable := en, accepted := ok, activeMinor := if ok then fld v 8 8 else h.activeMinor } }
/-- HI_DRV_ENABLE. -/
def execHiDrvEnable (v : Word) (s : State) : Out_ := .next (hiDrv s v)

/-! ## Checks and data (R428, R429, R433) -/

/-- Arguments that an opcode uses: ARG0, ARG1, ARG2 and the buffer (R436, R438). GROUP_JOIN uses its buffer with HOST alone. -/
def opUses (x : Slot) (op : Nat) : Bool × Bool × Bool × Bool :=
  match op with
  | 0x01 | 0x02 => (true, true, false, true)
  | 0x04 | 0x23 | 0x26 => (true, true, false, false)
  | 0x05 | 0x20 | 0x22 => (false, false, false, true)
  | 0x06 | 0x08 | 0x21 | 0x24 | 0x29 => (true, false, false, false)
  | 0x07 => (true, true, true, true)
  | 0x25 => (true, false, false, true)
  | 0x27 => (true, true, true, false)
  | 0x28 => (true, true, true, bitOf (areaNat x 0x28 8) 63)
  | _ => (false, false, false, false)
/-- The checks of R433 that every command takes. -/
def slotFieldsOk (s : State) (x : Slot) : Bool :=
  let op := areaNat x 0 1
  let fl := areaNat x 1 1
  let u := opUses x op
  decide (fl < 8) && (!bitOf fl 2 || op = 2) && (!bitOf fl 1 || u.2.2.2) &&
  decide (areaNat x 2 1 < 64) && (if bitOf fl 0 then (cringGet s (areaNat x 2 1)).en else areaNat x 2 1 = 0) &&
  areaNat x 3 1 = 0 && areaNat x 0x38 8 = 0 && areaNat x 0x30 8 = 0 &&
  (u.1 || areaNat x 0x08 8 = 0) && (u.2.1 || areaNat x 0x10 8 = 0) && (u.2.2.1 || areaNat x 0x28 8 = 0) &&
  (u.2.2.2 || (areaNat x 0x18 8 = 0 && areaNat x 0x20 8 = 0))
/-- The slot holds an accepted command of this opcode and the device runs commands. -/
def slotRuns (s : State) (k op : Nat) : Bool :=
  (slotGet s k).state = 1 && areaNat (slotGet s k) 0 1 = op && inPs0 s && decide (s.pwr.stage.toNat = 8) && !s.pwr.failed && !s.pwr.asserted
/-- The buffer lies inside the HDM window (R428, R429). -/
def inHdm (s : State) (a n : Nat) : Bool :=
  decide (hdmBase s * 2 ^ 30 ≤ a ∧ a + n ≤ (hdmBase s + s.host.hdmSize.toNat) * 2 ^ 30)
/-- Read `n` bytes of a command's buffer (R428). -/
def dataRead (s : State) (x : Slot) (n : Nat) : Status × Mem × State :=
  let a := areaNat x 0x18 8
  if bitOf (areaNat x 1 1) 1 then
    if inHdm s a n then
      let r := physRead s a n
      (if r.1 = stOk then stOk else stDataAccess, r.2.1, r.2.2)
    else (stDataAccess, [], s)
  else if s.host.trained then (stOk, memSlice s.hostMem a n, s) else (stDataAccess, [], s)
/-- Write `n` bytes to a command's buffer (R428). -/
def dataWrite (s : State) (x : Slot) (n : Nat) (m : Mem) : Status × State :=
  let a := areaNat x 0x18 8
  if bitOf (areaNat x 1 1) 1 then
    if inHdm s a n then
      let r := physWrite s a n m
      (if r.1 = stOk then stOk else stDataAccess, r.2)
    else (stDataAccess, s)
  else if s.host.trained then (stOk, { s with hostMem := memBlit s.hostMem a n m }) else (stDataAccess, s)
/-- Run a command of a slot when it can run: the common checks, then its own work, which may end it or leave it waiting. -/
def slotRun (s : State) (k op : Nat) (f : State → Slot → State) : State :=
  if slotRuns s k op then
    let x := slotGet s k
    if slotFieldsOk s x then f s x else slotDone s k stFieldInvalid 0 0
  else s
/-- Run a storage command: outside READY and READ_ONLY it completes with MEDIA_NOT_READY (R436). -/
def storageRun (s : State) (k op : Nat) (ok : Slot → Bool) (f : State → Slot → State) : State :=
  slotRun s k op fun s x =>
    if !ok x then slotDone s k stFieldInvalid 0 0
    else if !mediaUp s then slotDone s k stMediaNotReady 0 0
    else f s x

/-! ## Storage commands (R436, R441, R442) -/

/-- LBA range of a READ, WRITE or TRIM. -/
def slotLbas (x : Slot) : Nat × Nat := (areaNat x 8 8, areaNat x 0x10 8)
/-- A READ, WRITE or TRIM waits for what R441 puts before it: an earlier unfinished command whose range overlaps, unless both read. -/
def storageWaits (s : State) (x : Slot) : Bool :=
  let a := slotLbas x
  s.host.slots.any fun e =>
    let y := e.2
    let op := areaNat y 0 1
    let b := slotLbas y
    y.state = 1 && y.phase ≠ 1 && decide (y.jsn.toNat < x.jsn.toNat) && (op = 1 || op = 2 || op = 4) &&
      !(op = 1 && areaNat x 0 1 = 1) && decide (a.1 < b.1 + b.2 ∧ b.1 < a.1 + a.2)
/-- A READ's or WRITE's own ranges. -/
def blocksOk (x : Slot) : Bool := decide (1 ≤ areaNat x 0x10 8 ∧ areaNat x 0x10 8 ≤ 4096 ∧ 4096 * areaNat x 0x10 8 ≤ areaNat x 0x20 8)
/-- READ. -/
def execRead (slot : Fin 8192) (s : State) : Out_ :=
  let k := slot.val
  .next (storageRun s k 0x01 blocksOk fun s x =>
    let a := slotLbas x
    if s.media.userLbas < a.1 + a.2 then slotDone s k stLbaRange 0 0
    else if storageWaits s x then s
    else
      let lbas := rangeFrom a.1 a.2
      let r := lbasFetch s lbas
      match r.1 with
      | none => r.2
      | some (st, m) =>
        let s1 := lbasDone r.2 lbas
        if st ≠ stOk then slotDone s1 k st 0 0
        else
          let w := dataWrite s1 x (4096 * a.2) m
          slotDone w.2 k w.1 (if w.1 = stOk then BitVec.ofNat 64 (4096 * a.2) else 0) 0)
/-- Everything that satisfies `p` is durable and the journal is mirrored, as FUA and FLUSH need (R436, R448). -/
def durable (s : State) (p : Nat → Bool) : Bool × State :=
  let r := lbasDurable s p
  if r.1 && !s.pwr.holdNand then (true, jrnMirrorNow r.2) else (false, s)
/-- WRITE: data goes into the buffer once it has room; with FUA the command waits until it is durable. -/
def execWrite (slot : Fin 8192) (s : State) : Out_ :=
  let k := slot.val
  .next (storageRun s k 0x02 blocksOk fun s x =>
    let a := slotLbas x
    let fua := bitOf (areaNat x 1 1) 2
    let n := BitVec.ofNat 64 (4096 * a.2)
    let finish := fun (s : State) =>
      let d := durable s fun l => decide (a.1 ≤ l ∧ l < a.1 + a.2)
      if d.1 then slotDone d.2 k stOk n 0 else d.2
    if x.phase = 1 then finish s
    else if s.media.state = 3 then slotDone s k stMediaFull 0 0
    else if s.media.userLbas < a.1 + a.2 then slotDone s k stLbaRange 0 0
    else if storageWaits s x || decide (wbufRoom s < a.2) then s
    else
      let r := dataRead s x (4096 * a.2)
      if r.1 ≠ stOk then slotDone r.2.2 k r.1 0 0
      else
        let s1 := ftlPump ((List.range a.2).foldl (fun s i => wbufPut s (a.1 + i) (memSlice r.2.1 (4096 * i) 4096)) r.2.2)
        if fua then finish (slotSet s1 k { x with phase := 1 }) else slotDone s1 k stOk n 0)
/-- FLUSH: every WRITE and TRIM of lower JSN is durable. -/
def execFlush (slot : Fin 8192) (s : State) : Out_ :=
  let k := slot.val
  .next (storageRun s k 0x03 (fun _ => true) fun s x =>
    let open_ := s.host.slots.any fun e =>
      e.2.state = 1 && e.2.phase ≠ 1 && decide (e.2.jsn.toNat < x.jsn.toNat) && (areaNat e.2 0 1 = 2 || areaNat e.2 0 1 = 4)
    if open_ then s
    else
      let d := durable s fun _ => true
      if d.1 then slotDone d.2 k stOk 0 0 else d.2)
/-- TRIM (R407). -/
def execTrim (slot : Fin 8192) (s : State) : Out_ :=
  let k := slot.val
  .next (storageRun s k 0x04 (fun x => decide (1 ≤ areaNat x 0x10 8 ∧ areaNat x 0x10 8 ≤ 2 ^ 32)) fun s x =>
    let a := slotLbas x
    if s.media.state = 3 then slotDone s k stMediaFull 0 0
    else if s.media.userLbas < a.1 + a.2 then slotDone s k stLbaRange 0 0
    else if storageWaits s x then s
    else
      let r := (trimSet s.media a.1 a.2).foldl (fun (acc : Nat × State) u =>
        let t := trimOne acc.2 u
        (acc.1 + t.1, t.2)) (0, s)
      slotDone r.2 k stOk (BitVec.ofNat 64 r.1) 0)
/-- The identify data (R436). -/
def identifyData (s : State) : Bytes :=
  sub (ascii "SX-9600") 0 16 ++ sub s.glob.serial 0 16 ++ leBytes 8 s.sec.fwVersion.toNat ++ leBytes 8 (hiCap s).toNat ++ leBytes 8 isaver.toNat ++
  leBytes 8 (mediaCap s.media).toNat ++ leBytes 8 (mediaMeta s.media).toNat ++ leBytes 8 (mediaSpares s.media).toNat ++
  leBytes 8 (mediaStatus s.media).toNat ++ leBytes 8 4096
/-- IDENTIFY. -/
def execIdentify (slot : Fin 8192) (s : State) : Out_ :=
  let k := slot.val
  .next (storageRun s k 0x05 (fun x => decide (4096 ≤ areaNat x 0x20 8)) fun s x =>
    let w := dataWrite s x 4096 (memOfBytes 0 (identifyData s))
    slotDone w.2 k w.1 0 0)

/-! ## Logs (R437) -/

/-- A program ID (R438). -/
def programId (i : Nat) (p : Program) : Nat := i + p.gen.toNat * 2 ^ 16
/-- Items of a log from item `first`, at most `n`, or the status that refuses them. -/
def logItems (s : State) (log first n : Nat) : Status × List Bytes :=
  match log with
  | 1 => (stOk, ([(List.range 512).flatMap (fun k => leBytes 8 (ucbRead s 0 (8 * k)).toNat) ++ leBytes 8 (mediaStatus s.media).toNat ++
      leBytes 8 (mediaSpares s.media).toNat].drop first).take n)
  | 2 => (stOk, (s.host.testLog.drop first).take n)
  | 3 =>
    let next := s.host.jnext.toNat
    if first = 0 then (stFieldInvalid, [])
    else if first + 2 ^ 20 < next then (stJournalRange, [])
    else (stOk, (rangeFrom first (min n (next - first))).map fun j => (kvGet s.host.journal (jrnPos j)).getD (zeros 64))
  | 4 =>
    let item := fun (e : Nat × Program) =>
      let id := programId e.1 e.2
      leBytes 4 id ++ zeros 4 ++ leBytes 8 e.2.size ++ sub e.2.hash 0 32 ++ leBytes 4 (s.jobs.filter fun j => j.programs.contains id).length ++ zeros 12
    (stOk, ((((s.host.programs.filter fun e => e.2.loaded).map item).drop first).take n))
  | _ => (stFieldInvalid, [])
/-- GET_LOG: whole items that fit DATA_LEN are written. -/
def execGetLog (slot : Fin 8192) (s : State) : Out_ :=
  let k := slot.val
  .next (storageRun s k 0x07 (fun x => decide (1 ≤ areaNat x 0x28 8 ∧ areaNat x 0x28 8 ≤ 65536)) fun s x =>
    let l := logItems s (areaNat x 8 8) (areaNat x 0x10 8) (areaNat x 0x28 8)
    if l.1 ≠ stOk then slotDone s k l.1 0 0
    else
      let size := max 1 (l.2.headD []).length
      let b := (l.2.take (areaNat x 0x20 8 / size)).flatten
      let w := if b.isEmpty then (stOk, s) else dataWrite s x b.length (memOfBytes 0 b)
      slotDone w.2 k w.1 (if w.1 = stOk then BitVec.ofNat 64 b.length else 0) 0)

/-! ## Self-tests (R443, R444) -/

/-- A command other than SELF_TEST and JOB_WAIT is outstanding, or Gather reads. -/
def testBusy (s : State) : Bool :=
  (s.host.slots.any fun e => e.2.state = 1 && areaNat e.2 0 1 ≠ 6 && areaNat e.2 0 1 ≠ 0x24) || s.media.reads.any fun r => r.gather && r.result.isNone
/-- Phases that skip units because a job has them: tile tests, and in the extended test the margins. -/
def testSkips (s : State) (kind : Nat) : BitVec 8 := if s.jobs.any fun j => !j.units.isEmpty then (if kind = 1 then 0x0C else 0x04) else 0
/-- End the running test: its slot completes and the log keeps it; the 8 bytes of kind and status in the log item have no layout in the manual (log 33). -/
def testEnd (s : State) (t : SelfTest) (st : Status) (r0 r1 : Word) : State :=
  let j := (slotGet s t.slot).jsn
  let mid := (List.range 8).map fun i => Config.freeByte (s.freeCtr + i)
  let item := leBytes 8 j.toNat ++ mid ++ leBytes 8 r0.toNat ++ leBytes 8 r1.toNat
  slotDone { s with freeCtr := s.freeCtr + 8, host := { s.host with test := none, testLog := (item :: s.host.testLog).take 16 } } t.slot st r0 r1
/-- SELF_TEST: a test starts, is refused, or is aborted; for the slot whose test runs, the row is the test's end with the phase that failed, if any. -/
def execSelfTest (slot : Fin 8192) (failed : Option (BitVec 8)) (s : State) : Out_ :=
  let k := slot.val
  .next (storageRun s k 0x06 (fun x => decide (areaNat x 8 8 ≤ 2)) fun s x =>
    let kind := areaNat x 8 8
    match s.host.test with
    | some t =>
      if t.slot = k then
        if t.yielded then s
        else
          match failed with
          | none => testEnd s t stOk (put t.skipped 8) 0
          | some p =>
            if 1 ≤ p.toNat ∧ p.toNat ≤ 6 ∧ (t.kind = 1 ∨ p.toNat ≠ 4) then
              testEnd { s with freeCtr := s.freeCtr + 1 } t stSelfTestFailed (put p 0 ||| put t.skipped 8) (Config.freeWord s.freeCtr)
            else s
      else if kind = 2 then slotDone (testEnd s t stCommandAborted (put t.skipped 8) 0) k stOk 0 0
      else slotDone s k stSelfTestBusy 0 0
    | none =>
      if kind = 2 then slotDone s k stOk 0 0
      else { s with host := { s.host with test := some { slot := k, kind := kind, skipped := testSkips s kind } } })
/-- SELF_TEST_YIELD. -/
def execSelfTestYield (s : State) : Out_ :=
  match s.host.test with
  | some t => .next (if testBusy s then { s with host := { s.host with test := some { t with yielded := true } } } else s)
  | none => .next s
/-- SELF_TEST_RESUME. -/
def execSelfTestResume (s : State) : Out_ :=
  match s.host.test with
  | some t => .next (if testBusy s then s else { s with host := { s.host with test := some { t with yielded := false } } })
  | none => .next s

/-! ## The HDM window and the link (R425-R429, R505, R546) -/

/-- HDM_ACCESS: offset `a` in the window; a read that does not read gives poison and an event, a failed merge gives an error response (R429, R460). -/
def execHdmAccess (a : Word) (w : Option Bytes) (len : Nat) (s : State) : Out_ :=
  let n := match w with
    | some b => b.length
    | none => len
  let pa := hdmBase s * 2 ^ 30 + a.toNat
  if !s.host.trained || !s.host.linkCxl || !s.host.hdmLocked || decide (s.host.hdmSize.toNat * 2 ^ 30 < a.toNat + n) then .next s
  else
    match w with
    | some b =>
      let r := physPut s pa b
      .next (send r.2 (.host (r.1 = stOk) []))
    | none =>
      let r := physRead s pa n
      if r.1 = stOk then .next (send r.2.2 (.host true (memBytes r.2.1 0 n)))
      else .next (send (deviceError r.2.2 r.1 0 (leBytes 8 pa)) (.host false []))
/-- HDM_DECODER_COMMIT. -/
def execHdmDecoderCommit (commit : Bool) (s : State) : Out_ :=
  .next (if s.host.trained && s.host.linkCxl then { s with host := { s.host with hdmLocked := commit } } else s)
/-- Widths and rates the link trains to (R425, R426): in CXL mode x16, x8 or x4 at 128, 64 or 32 GT/s; in PCIe mode any PCIe rate. -/
def linkOk (cxl : Bool) (lanes : BitVec 5) (gtps : BitVec 8) : Bool :=
  (lanes = 16 || lanes = 8 || lanes = 4 || (!cxl && (lanes = 1 || lanes = 2))) &&
  (gtps = 128 || gtps = 64 || gtps = 32 || (!cxl && (gtps = 2 || gtps = 5 || gtps = 8 || gtps = 16)))
/-- CXL_LINK_TRAINING: the link trains while PERST_N is high, or goes down. -/
def execCxlLinkTraining (up cxl : Bool) (lanes : BitVec 5) (gtps : BitVec 8) (s : State) : Out_ :=
  if up then
    .next (if s.host.perst && linkOk cxl lanes gtps then { s with host := { s.host with trained := true, linkCxl := cxl, lanes := lanes, gtps := gtps, idle_ := false } } else s)
  else .next { s with host := { s.host with trained := false, lanes := 0, gtps := 0 } }
/-- PERST_N: low holds the link in reset, high lets it train; nothing else is reset. -/
def execPerstN (level : Bool) (s : State) : Out_ :=
  .next (if level then { s with host := { s.host with perst := true } }
    else { s with host := { s.host with perst := false, trained := false, idle_ := true, lanes := 0, gtps := 0 } })

/-! ## Media recovery (R400, R420) -/

/-- MEDIA_RECOVERY: targets are identified, the newest anchor and a checkpoint are loaded and the log is replayed, once the Gaffer firmware runs and the NAND pads are released (R505); GOs that waited for the journal are accepted. -/
def execMediaRecovery (r : MediaFound) (s : State) : Out_ :=
  .next (if (s.media.state = 1 ∨ s.media.state = 5) ∧ !s.pwr.holdNand ∧ 7 ≤ s.pwr.stage.toNat ∧ !s.pwr.asserted then
    let s1 := r.odd.foldl (fun s t => deviceError s stGeometry 0 (locWord (t / 16 % 64 + t % 16 * 64))) s
    latchedTake (mediaRecover r { s1 with media := mediaIdentified r s1.media }) else s)

end Sys2Proof.Machine
end

