-- ==== Sys2Proof/Machine/Jobs.lean ====
section
/-! DEFINITION. The job commands (R438, R439, R440): programs, the job descriptor, starting, agreeing on fingerprints, launching, stopping and waiting for a job, and groups. -/

namespace Sys2Proof.Machine

/-! ## Programs (R112-R114, R438) -/

/-- The header of a binary passes R114. -/
def binaryOk (b : Bytes) : Bool :=
  sub b 0 4 = ascii "VOXB" && subNat b 4 1 = 2 && decide (subNat b 5 1 ≤ 1) && subNat b 6 2 = 64 && decide (subNat b 8 8 < 2 ^ 12)
/-- A loaded program by its ID. -/
def programGet (s : State) (id : Nat) : Option Program :=
  match kvGet s.host.programs (id % 2 ^ 16) with
  | some p => if p.loaded ∧ programId (id % 2 ^ 16) p = id then some p else none
  | none => none
/-- PROGRAM_LOAD: `place` is where in HBM the Gaffer holds the binary (log 38). -/
def execProgramLoad (slot : Fin 8192) (place : BitVec 48) (s : State) : Out_ :=
  let k := slot.val
  .next (slotRun s k 0x20 fun s x =>
    let n := areaNat x 0x20 8
    if !decide (64 ≤ n ∧ n ≤ 2 ^ 28) then slotDone s k stFieldInvalid 0 0
    else if !inHbm s place.toNat n then s
    else
      let r := dataRead s x n
      let b := memBytes r.2.1 0 n
      if r.1 ≠ stOk then slotDone r.2.2 k r.1 0 0
      else if !binaryOk b then slotDone r.2.2 k stBinaryUnsupported 0 0
      else match (List.range 256).find? fun i => !((kvGet s.host.programs i).any (·.loaded)) with
        | none => slotDone r.2.2 k stProgramLimit 0 0
        | some i =>
          let gen := ((kvGet s.host.programs i).map (·.gen)).getD 0 + 1
          let h := shake b
          let p : Program := {
            gen := gen, loaded := true, size := n, place := place.toNat, hash := h, profile := BitVec.ofNat 64 (subNat b 8 8)
            entry := BitVec.ofNat 64 (subNat b 0x10 8), flags := BitVec.ofNat 32 (subNat b 0x1C 4) }
          let w := physWrite r.2.2 place.toNat n r.2.1
          if w.1 ≠ stOk then slotDone w.2 k w.1 0 0
          else slotDone { w.2 with host := { w.2.host with programs := kvSet w.2.host.programs i p } } k stOk (BitVec.ofNat 64 (programId i p)) (BitVec.ofNat 64 (subNat h 0 8)))
/-- Jobs that run, and those that are starting. -/
def jobsAll (s : State) : List Job := s.jobs ++ s.starting.map (·.job)
/-- PROGRAM_UNLOAD. -/
def execProgramUnload (slot : Fin 8192) (s : State) : Out_ :=
  let k := slot.val
  .next (slotRun s k 0x21 fun s x =>
    let id := areaNat x 8 8
    match programGet s id with
    | none => slotDone s k stFieldInvalid 0 0
    | some p =>
      if (jobsAll s).any fun j => j.programs.contains id then slotDone s k stProgramInUse 0 0
      else slotDone { s with host := { s.host with programs := kvSet s.host.programs (id % 2 ^ 16) { p with loaded := false } } } k stOk 0 0)

/-! ## The job descriptor (R439) -/

/-- Purpose codes that are not reserved (R182). -/
def purposeOk (p : Nat) : Bool := [1, 2, 0x10, 0x11, 0x12, 0x20, 0x21, 0x30].contains p || decide (0x8000 ≤ p)
/-- A key table entry passes R178. -/
def keyOk (seeds : Nat) (e : Bytes) : Bool :=
  let mode := subNat e 3 1
  if mode = 0 then e.all (· = 0)
  else purposeOk (subNat e 0 2) && decide (subNat e 2 1 < seeds) && decide (mode ≤ 2) && subNat e 4 4 = 0 && (mode = 1 || subNat e 8 8 = 0)
/-- Entries of `w` bytes of a section. -/
def sectEntries (b : Bytes) (off n w : Nat) : List Bytes := (List.range n).map fun i => sub b (off + w * i) w
/-- Offset of section i of a job descriptor. -/
def sectOff (b : Bytes) (i : Nat) : Nat := subNat b (0x60 + 8 * i) 8
/-- Size of section i of a job descriptor. -/
def sectSize (b : Bytes) (i : Nat) : Nat :=
  let d := subNat b 0x28 2
  [4 * subNat b 0x38 4, subNat b 0x54 4, 64 * subNat b 0x3C 4, 32 * subNat b 0x23 1, 4096, 128, 4 * d + d * d, 8 * subNat b 0x48 4, 8 * subNat b 0x4C 4,
    32 * subNat b 0x50 4].getD i 0
/-- Header fields of a job descriptor of `len` bytes are in range (R439, R43, R547). -/
def jobHeaderOk (b : Bytes) (len : Nat) : Bool :=
  let paced := subNat b 0x0D 1 = 1
  let d := subNat b 0x28 2
  let self := subNat b 0x2A 2
  sub b 0 4 = ascii "SJOB" && subNat b 4 2 = 1 && decide (subNat b 6 2 ≤ 0xFFFE) && subNat b 8 4 = len && len % 64 = 0 && decide (256 ≤ len ∧ len ≤ 2 ^ 26) &&
  (subNat b 0x0C 1 = 1 || (subNat b 0x0C 1 = 2 && !paced)) && decide (subNat b 0x0D 1 ≤ 1) &&
  (if paced then decide (8 ≤ subNat b 0x0E 1 ∧ subNat b 0x0E 1 ≤ 24) else subNat b 0x0E 1 = 0) && decide (10 ≤ subNat b 0x0F 1 ∧ subNat b 0x0F 1 ≤ 30) &&
  decide (1 ≤ subNat b 0x10 4 ∧ subNat b 0x10 4 ≤ 65536) && decide (550 ≤ subNat b 0x14 4 ∧ subNat b 0x14 4 ≤ 850) && decide (subNat b 0x22 1 ≤ 1) &&
  decide (1 ≤ subNat b 0x23 1 ∧ subNat b 0x23 1 ≤ 16) && subNat b 0x24 4 = Config.refclkKhz && decide (1 ≤ d ∧ d ≤ 4096) && decide (self < d) &&
  (if self = 0 then subNat b 0x2C 4 = 0 else decide (subNat b 0x2C 4 < 2 ^ 20)) && (if d = 1 then subNat b 0x30 4 = 0 else subNat b 0x30 4 ≠ 0) &&
  decide (1 ≤ subNat b 0x34 4 ∧ subNat b 0x34 4 ≤ 60000) && decide (1 ≤ subNat b 0x38 4 ∧ subNat b 0x38 4 ≤ 256) && decide (1 ≤ subNat b 0x3C 4 ∧ subNat b 0x3C 4 ≤ 4096) &&
  subNat b 0x46 2 = 0 && decide (1 ≤ subNat b 0x50 4 ∧ subNat b 0x50 4 ≤ 65536) && decide (subNat b 0x54 4 ≤ 2 ^ 24) && zeroIn b 0xB0 0x100
/-- Every section lies behind the header, aligned and inside the descriptor. -/
def jobSectsOk (b : Bytes) (len : Nat) : Bool :=
  (List.range 10).all fun i => sectOff b i % 64 = 0 && decide (256 ≤ sectOff b i ∧ sectOff b i + sectSize b i ≤ len)
/-- Entries of the sections are in range; resources are free of other jobs (R178, R362, R377, R98). -/
def jobEntriesOk (s : State) (b : Bytes) : Bool :=
  let seeds := subNat b 0x23 1
  let others := jobsAll s
  let quotas := [subNat b 0x40 2, subNat b 0x42 2, subNat b 0x44 2]
  ((sectEntries b (sectOff b 2) (subNat b 0x3C 4) 64).all fun e =>
    decide (subNat e 40 1 ≤ 2) && zeroIn e 41 48 && zeroIn e (48 + 8 * subNat e 40 1) 64) &&
  ((sectEntries b (sectOff b 4) 256 16).all (keyOk seeds)) &&
  (subNat b 0x0D 1 = 1 || zeroIn b (sectOff b 5) (sectOff b 5 + 128)) &&
  ((sectEntries b (sectOff b 7) (subNat b 0x48 4) 8).all fun e =>
    (handleUcb s (BitVec.ofNat 64 (leNat e))).any fun u => (ucbKind s u).any fun k => decide (k < 4)) &&
  ((sectEntries b (sectOff b 8) (subNat b 0x4C 4) 8).all fun e =>
    let f := subNat e 0 4
    let n := subNat e 4 4
    decide (f + n ≤ 131072) && others.all fun j => j.ctrs.all fun r => !decide (f < r.1 + r.2 ∧ r.1 < f + n)) &&
  (quotas.all fun q => decide (q < 4096) && others.all fun j => !([j.quotaCtx, j.quotaQp, j.quotaEng].contains q)) &&
  (sectEntries b (sectOff b 9) (subNat b 0x50 4) 32).all fun e => decide (subNat e 0 2 < 768) && decide (subNat e 2 2 < subNat b 0x38 4) && subNat e 4 4 = 0
/-- Region of an agreement key, where it has the binding and length of R440. -/
def agreeRegion (s : State) (key d : Nat) : Option Region :=
  let r := regionGet s (key / 256)
  if r.registered ∧ r.gen.toNat = key % 256 ∧ r.rights.getLsbD 4 ∧ r.rights.getLsbD 0 ∧ r.rights.getLsbD 1 ∧ r.job = 0xFFFF ∧ 80 * (d + 1) ≤ r.length then some r else none
/-- Step 1 of JOB_START. -/
def jobDescOk (s : State) (b : Bytes) (len : Nat) : Bool :=
  jobHeaderOk b len && jobSectsOk b len && jobEntriesOk s b && !((jobsAll s).any fun j => j.num.toNat = subNat b 6 2) &&
  (subNat b 0x28 2 = 1 || subNat b 0x2A 2 ≠ 0 || (agreeRegion s (subNat b 0x30 4) (subNat b 0x28 2)).isSome)
/-- Launch list of a descriptor: L, program index, ARG, SEQTAG. -/
def jobLaunches (b : Bytes) : List (Nat × Nat × Word × Tag) :=
  (sectEntries b (sectOff b 9) (subNat b 0x50 4) 32).map fun e => (subNat e 0 2, subNat e 2 2, BitVec.ofNat 64 (subNat e 8 8), BitVec.ofNat 128 (subNat e 16 16))
/-- The job of a descriptor, before steps 3 to 7. -/
def jobOfDesc (s : State) (b : Bytes) : Job :=
  let u := (sectEntries b (sectOff b 7) (subNat b 0x48 4) 8).filterMap fun e => handleUcb s (BitVec.ofNat 64 (leNat e))
  let first := (jobLaunches b).foldl (fun (m : Option Nat) e => some (min (m.getD (tagBatch e.2.2.2).toNat) (tagBatch e.2.2.2).toNat)) none
  { num := BitVec.ofNat 16 (subNat b 6 2), strict := subNat b 0x0C 1 = 1, paced := subNat b 0x0D 1 = 1, mult := subNat b 0x0E 1, sliceLog2 := subNat b 0x0F 1
    consumers := subNat b 0x10 4, vcore := subNat b 0x14 4, period := BitVec.ofNat 64 (subNat b 0x18 8), thermal := subNat b 0x20 2, crcPolicy := subNat b 0x22 1
    seeds := sectEntries b (sectOff b 3) (subNat b 0x23 1) 32, devices := subNat b 0x28 2, self := subNat b 0x2A 2, agreeQpn := subNat b 0x2C 4
    agreeKey := BitVec.ofNat 32 (subNat b 0x30 4), agreeMs := subNat b 0x34 4
    programs := (sectEntries b (sectOff b 0) (subNat b 0x38 4) 4).map leNat
    inputs := (sectEntries b (sectOff b 2) (subNat b 0x3C 4) 64).map fun e =>
      { obj := BitVec.ofNat 64 (subNat e 0 8), root := sub e 8 32
        copies := (subNat e 0 8 :: (List.range (subNat e 40 1)).map fun r => subNat e (48 + 8 * r) 8).map fun i => { obj := BitVec.ofNat 64 i } }
    keys := (sectEntries b (sectOff b 4) 256 16).map fun e =>
      { purpose := BitVec.ofNat 16 (subNat e 0 2), seed := BitVec.ofNat 8 (subNat e 2 1), mode := BitVec.ofNat 8 (subNat e 3 1), epoch := BitVec.ofNat 64 (subNat e 8 8) }
    budgets := (sectEntries b (sectOff b 5) 16 8).map leNat
    placement := sub b (sectOff b 6) (sectSize b 6), units := u
    ctrs := (sectEntries b (sectOff b 8) (subNat b 0x4C 4) 8).map fun e => (subNat e 0 4, subNat e 4 4)
    quotaCtx := subNat b 0x40 2, quotaQp := subNat b 0x42 2, quotaEng := subNat b 0x44 2, paramVa := BitVec.ofNat 64 (subNat b 0x58 8)
    fpB := [], fpT := zeros 32, t0 := 0, firstBatch := BitVec.ofNat 64 (first.getD 0) }

/-! ## Step 3: inputs (R193, R408) -/

/-- The outcome of an input check: its status, and the file where it passes. -/
abbrev FileOut := Status × Option CaneFile
/-- Check a file's header against the root and its object entry (R190, R193). -/
def headerCheck (f : CaneFile) (root b : Bytes) : FileOut :=
  let n := subNat b 8 8
  let iu := subNat b 0x18 8
  if sub b 0 4 ≠ ascii "CANE" ∨ subNat b 4 2 ≠ 1 ∨ subNat b 6 2 ≠ 1 ∨ crc32c (b.take 0x54) ≠ subNat b 0x54 4 ∨ !decide (1 ≤ n ∧ n ≤ 2 ^ 40) ∨ iu ≠ ceilDiv n 256 ∨
      !zeroIn b 0x40 0x54 ∨ !zeroIn b 0x58 0x1000 ∨ sub b 0x20 32 ≠ root then (stRootMismatch, none)
  else if f.metaUnits < 1 + iu ∨ 262144 * f.dataStrands < subNat b 0x10 8 then (stObjectInvalid, none)
  else (stOk, some { f with records := n, dataBytes := subNat b 0x10 8, root := root })
/-- Check one file: pending, or its outcome, with the LBAs read. Reads stay with the device until the whole step has ended. -/
def fileCheck (s : State) (id : Nat) (root : Bytes) : Option FileOut × List Nat × State :=
  if !mediaUp s then (some (stMediaNotReady, none), [], s)
  else if 64 * s.media.objUnits ≤ id % 2 ^ 32 then (some (stObjectInvalid, none), [], s)
  else
    let lba := id % 2 ^ 32 / 64
    let r := lbasFetch s [lba]
    match r.1 with
    | none => (none, [lba], r.2)
    | some (st, m) =>
      if st ≠ stOk then (some (st, none), [lba], r.2)
      else match objParse s.media id (memBytes m (64 * (id % 64)) 64) with
        | none => (some (stObjectInvalid, none), [lba], r.2)
        | some f =>
          let h := lbasFetch r.2 [f.metaFirst]
          match h.1 with
          | none => (none, [lba, f.metaFirst], h.2)
          | some (st, m) =>
            if st ≠ stOk then (some (st, none), [lba, f.metaFirst], h.2)
            else (some (headerCheck f root (memBytes m 0 4096)), [lba, f.metaFirst], h.2)
/-- Check every file of the inputs in order: pending, the first failure, or the inputs as read. -/
def inputsCheck (s0 : State) (ins : List JobInput) : Option (Status × List JobInput) × State :=
  let r := ins.foldl (fun (acc : Option (Status × List JobInput) × List Nat × State) i =>
    match acc.1 with
    | none => acc
    | some (st, done) =>
      if st ≠ stOk then acc
      else
        let c := i.copies.foldl (fun (a : Option (Status × List CaneFile) × List Nat × State) f =>
          match a.1 with
          | none => a
          | some (st, fs) =>
            if st ≠ stOk then a
            else
              let x := fileCheck a.2.2 f.obj.toNat i.root
              (match x.1 with
                | none => none
                | some (st, some g) => some (st, fs ++ [g])
                | some (st, none) => some (st, fs), a.2.1 ++ x.2.1, x.2.2)) (some (stOk, []), acc.2.1, acc.2.2)
        (c.1.map fun y => (y.1, done ++ [{ i with copies := y.2 }]), c.2.1, c.2.2)) (some (stOk, []), [], s0)
  if r.1.isNone then (none, r.2.2) else (r.1, lbasDone r.2.2 r.2.1)

/-! ## Step 5: fingerprints (R74-R76) -/

/-- Hash of the parameter block, then those of the binaries (R75). -/
def jobHashes (s : State) (j : Job) (param : Bytes) : List Bytes := shake param :: j.programs.map fun id => sub (((programGet s id).map (·.hash)).getD []) 0 32
/-- The input of FP_B. -/
def fpBInput (s : State) (j : Job) (param : Bytes) : Bytes :=
  let hashes := jobHashes s j param
  ascii "SALAEL-JOBFP-B-1" ++ [if j.strict then 1 else 2, 0, 0, 0] ++ leBytes 4 j.consumers ++
  seedCommit j ++ leBytes 4 hashes.length ++ leBytes 4 j.inputs.length ++
  hashes.flatten ++ j.inputs.flatMap (·.root)
/-- The resolved budget table (R62). -/
def budgetTable (j : Job) : List Nat :=
  (List.range 16).map fun c =>
    let e := j.budgets.getD c 0
    if 12 ≤ c then 0 else if e ≠ 0 then e else if c = 9 then 0 else ceilDiv (budgetFixed c * j.mult) 16
/-- Spare map digests of the job's devices in placement order; those of other devices are not this device's to know (log 34). -/
def spareDigests (s : State) (j : Job) : Bytes × State :=
  ((List.range j.devices).flatMap fun i => if i = j.self then sub (spareDigest s) 0 32 else (List.range 32).map fun k => Config.freeByte (s.freeCtr + 32 * i + k),
    if j.devices = 1 then s else { s with freeCtr := s.freeCtr + 32 * j.devices })
/-- The input of FP_T. -/
def fpTInput (j : Job) (fpB spares : Bytes) : Bytes :=
  ascii "SALAEL-JOBFP-T-1" ++ fpB ++ [1, BitVec.ofNat 8 j.mult, BitVec.ofNat 8 j.sliceLog2, 0] ++ leBytes 4 j.vcore ++ leBytes 2 j.thermal ++ zeros 2 ++
  leBytes 4 Config.refclkKhz ++ leBytes 8 j.period.toNat ++ shake ((budgetTable j).flatMap (leBytes 8)) ++ leBytes 2 j.devices ++ zeros 2 ++
  shake j.placement ++ shake spares
/-- The job with its fingerprints. -/
def jobPrints (s : State) (j : Job) (param : Bytes) : Job × State :=
  let b := shake (fpBInput s j param)
  let x := { j with fpB := b, hashes := jobHashes s j param }
  if j.paced then
    let d := spareDigests s j
    ({ x with fpT := shake (fpTInput j b d.1) }, d.2)
  else (x, s)

/-! ## Step 7: launch -/

/-- First state of a launched software context (R439 step 7). -/
def launchCtx (s : State) (j : Job) (e : Nat × Nat × Word × Tag) (l : Launch) : Ctx :=
  let p := (j.programs[e.2.1]?).bind (programGet s)
  let c : Ctx := {}
  let t := e.2.2.2
  setG { c with
    pc := l.va + ((p.map (·.entry)).getD 0), batch := tagBatch t, phase := (t >>> 56).setWidth 8, item := (t >>> 32).setWidth 24, step := (tagStep t).toNat
    job := j.num, ttb := l.ttb, pkr0 := l.pkr0, pkr1 := l.pkr1, tsBase := l.tsBase, tsSize := l.tsSize, xvec := l.xvec, priv := 0
    profile := (p.map (·.profile)).getD 0 } 1 e.2.2.1
/-- Launch one entry: its image is written to its save area and it joins its tile's run queue (log 39). -/
def launchOne (s : State) (j : Job) (e : Nat × Nat × Word × Tag) (l : Launch) : State :=
  let c := launchCtx s j e l
  let a := l.area.toNat
  let w := areaWrite s a (a + 65536) (ctxImage s e.1 c)
  launchAt w.2 e.1 a (a + 65536) c
/-- The runtime's own choices can be carried out: the save areas and the parameter block lie in HBM. -/
def launchesOk (s : State) (n : Nat) (l : List Launch) (param len : Nat) : Bool :=
  l.length = n && (l.all fun x => x.area.toNat % 0x20000 = 0 && inHbm s x.area.toNat 0x20000) && (len = 0 || inHbm s param len)
/-- Step 7 (R439, R362, R35, R78): the job runs. -/
def jobLaunch (s : State) (k : Nat) (j : Job) (list : List (Nat × Nat × Word × Tag)) (l : List Launch) (param : Nat) (data : Bytes) : State :=
  let t0 := s.pace.tick
  let cfg := kvGet s.host.commits j.num.toNat
  let x := { j with t0 := t0, commit := cfg }
  let s1 := j.ctrs.foldl (fun s r => (rangeFrom r.1 r.2).foldl (fun s c => ctrSet s c 0) s) s
  let s2 := (physPut s1 param data).2
  let s3 : State := { s2 with
    jobs := s2.jobs ++ [x], images := s2.images.filter fun i => i.job ≠ j.num
    host := { s2.host with commits := kvDel s2.host.commits j.num.toNat }
    pace := if j.paced then { s2.pace with t0 := t0, period := j.period } else s2.pace }
  let s4 := j.units.foldl (fun s u => unitsMove s u (fun st => st = .ready) fun _ => .running) s3
  let s5 := (list.zip l).foldl (fun s e => launchOne s x e.1 e.2) s4
  slotDone s5 k stOk (j.num.setWidth 64) (if j.paced then t0 else 0)

/-! ## JOB_START -/

/-- Step 4 (R44, R64, R78): the job is alone where it must be, and the operating point meets its pace. -/
def paceStart (s : State) (j : Job) : Status × State :=
  if (jobsAll s).any (·.paced) || (j.paced && !(jobsAll s).isEmpty) || decide (64 ≤ (jobsAll s).length) then (stDeviceBusy, s)
  else if !j.paced then (stOk, s)
  else if 4 * ucbRate s 0 < 500 * j.mult then (stPaceUnreachable, s)
  else (stOk, { s with
    pace := { s.pace with mult := BitVec.ofNat 6 j.mult, lock := true }
    glob := { s.glob with vcore := BitVec.ofNat 10 j.vcore } })
/-- A JOB_START at step 6 ends early: nothing stays bound. -/
def startFail (s : State) (x : Starting) (st : Status) : State :=
  let s1 : State := { s with starting := s.starting.filter fun y => y.slot ≠ x.slot, sinks := (x.sink.map fun k => kvDel s.sinks k).getD s.sinks }
  slotDone (if x.job.paced then { s1 with pace := { s1.pace with mult := x.oldMult, lock := false }, glob := { s1.glob with vcore := x.oldVcore } } else s1) x.slot st 0 0
/-- JOB_START (R439): steps 1 to 5, and step 7 at once for a job of one device. -/
def execJobStart (slot : Fin 8192) (l : List Launch) (param : BitVec 48) (s : State) : Out_ :=
  let k := slot.val
  .next (slotRun s k 0x22 fun s x =>
    let n := areaNat x 0x20 8
    if s.starting.any fun y => y.slot = k then s
    else if !decide (256 ≤ n ∧ n ≤ 2 ^ 26) then slotDone s k stJobDescInvalid 0 0
    else
      let r := dataRead s x n
      let b := memBytes r.2.1 0 n
      if r.1 ≠ stOk then slotDone r.2.2 k r.1 0 0
      else if !jobDescOk s b n then slotDone r.2.2 k stJobDescInvalid 0 0
      else
        let j := jobOfDesc s b
        let list := jobLaunches b
        let data := sub b (sectOff b 1) (sectSize b 1)
        if j.programs.any fun id => (programGet s id).all fun p => p.flags.getLsbD 0 then slotDone r.2.2 k stBinaryUnsupported 0 0
        else
          let c := inputsCheck r.2.2 j.inputs
          match c.1 with
          | none => c.2
          | some (st, ins) =>
            if st ≠ stOk then slotDone c.2 k st 0 0
            else if !launchesOk s list.length l param.toNat data.length then s
            else if !decide (1 ≤ jobSamples { j with inputs := ins } ∧ jobSamples { j with inputs := ins } < 2 ^ 48) then slotDone c.2 k stDomain 0 0
            else
              let p := paceStart c.2 j
              if p.1 ≠ stOk then slotDone p.2 k p.1 0 0
              else
                let f := jobPrints p.2 { j with inputs := ins } data
                if j.devices = 1 then jobLaunch f.2 k f.1 list l param.toNat data
                else
                  let y : Starting := {
                    slot := k, job := f.1, list := list, launches := l, param := param.toNat, paramData := data, oldMult := s.pace.mult, oldVcore := s.glob.vcore }
                  { f.2 with starting := f.2.starting ++ [y] })

/-! ## Access to the agreement region (R440) -/

/-- Route of a device other than 0 to the agreement region. -/
def agreeRoute (j : Job) : Word := BitVec.ofNat 64 (2 ^ 63 + j.agreeQpn * 2 ^ 32 + j.agreeKey.toNat)
/-- Device 0's Gaffer reads the region as local memory. -/
def agreeLocal (s : State) (j : Job) (off n : Nat) : Bytes × State :=
  match agreeRegion s j.agreeKey.toNat j.devices with
  | some r => let x := physRead s (r.base + off) n; (memBytes x.2.1 0 n, x.2.2)
  | none => (zeros n, s)
/-- Device 0's Gaffer writes the region. -/
def agreePut (s : State) (j : Job) (off : Nat) (b : Bytes) : State :=
  match agreeRegion s j.agreeKey.toNat j.devices with
  | some r => (physPut s (r.base + off) b).2
  | none => s
/-- Another device's Gaffer posts a WRITE to the region. -/
def agreeWrite (s : State) (j : Job) (off : Nat) (b : Bytes) : Option Nat × State :=
  sinkPost s (agreeRoute j) { opcode := 1, offset := off, length := b.length, win := some 0, data := memOfBytes 0 b }
/-- Another device's Gaffer posts a READ of the region. -/
def agreeRead (s : State) (j : Job) (off n : Nat) : Option Nat × State :=
  sinkPost s (agreeRoute j) { opcode := 3, offset := off, length := n, win := some 0 }

/-! ## JOB_AGREEMENT (R439 step 6) -/

/-- Store a JOB_START at step 6. -/
def startPut (s : State) (x : Starting) : State := { s with starting := s.starting.map fun y => if y.slot = x.slot then x else y }
/-- The verdict is known: step 7, or the end. -/
def startVerdict (s : State) (x : Starting) (st : Status) : State :=
  if st ≠ stOk then startFail s x st
  else jobLaunch { s with starting := s.starting.filter fun y => y.slot ≠ x.slot } x.slot x.job x.list x.launches x.param x.paramData
/-- Device 0: its own entry, then the verdict once all entries are there. -/
def startZero (s : State) (x : Starting) : State :=
  let j := x.job
  let s1 := if x.wrote then s else startPut (agreePut s j 64 (j.fpB ++ j.fpT)) { x with wrote := true }
  let r := (List.range j.devices).foldl (fun (acc : List Bytes × State) i => let y := agreeLocal acc.2 j (64 + 64 * i) 64; (acc.1 ++ [y.1], y.2)) ([], s1)
  if r.1.any fun e => e.all (· = 0) then r.2
  else
    let st := if r.1.all fun e => e = r.1.headD [] then stOk else stJobDescInconsistent
    startVerdict (agreePut r.2 j 0 (leBytes 2 st.toNat ++ [1] ++ zeros 61)) x st
/-- Another device: its entry, then the verdict, read until it is set. -/
def startOther (s : State) (x : Starting) : State :=
  let j := x.job
  let poll := fun (s : State) (x : Starting) => let p := agreeRead s j 0 64; startPut p.2 { x with sink := p.1 }
  match x.sink with
  | none =>
    if x.wrote then poll s x
    else
      let p := agreeWrite s j (64 + 64 * j.self) (j.fpB ++ j.fpT)
      startPut p.2 { x with sink := p.1 }
  | some k =>
    let t := sinkTake s k
    match t.1 with
    | none => s
    | some (st, m) =>
      if !x.wrote then startPut t.2 { x with sink := none, wrote := st = stOk }
      else if st = stOk ∧ memNat m 2 1 = 1 then startVerdict t.2 x (BitVec.ofNat 16 (memNat m 0 2))
      else poll t.2 { x with sink := none }
/-- JOB_AGREEMENT: the next move of step 6, or its end beyond AGREE_MS. -/
def execJobAgreement (slot : Fin 8192) (timeout : Bool) (s : State) : Out_ :=
  match s.starting.find? fun y => y.slot = slot.val with
  | none => .next s
  | some x => .next (if timeout then startFail s x stPeerUnreachable else if x.job.self = 0 then startZero s x else startOther s x)

/-! ## JOB_STOP and JOB_WAIT (R438) -/

/-- Exit record of a job number. -/
def exitOf (s : State) (n : Nat) : Option ExitRec := s.host.exits.find? fun e => e.num.toNat = n
/-- A running job by the number of an argument. -/
def jobArg (s : State) (n : Nat) : Option Job := if n < 2 ^ 16 then jobOf s (BitVec.ofNat 16 n) else none
/-- JOB_STOP: at once, or at the next commit point. -/
def execJobStop (slot : Fin 8192) (s : State) : Out_ :=
  let k := slot.val
  .next (slotRun s k 0x23 fun s x =>
    let n := areaNat x 8 8
    let fin := fun (s : State) => match exitOf s n with
      | some e => slotDone s k stOk e.firstNot 0
      | none => slotDone s k stJobNotFound 0 0
    if 1 < areaNat x 0x10 8 then slotDone s k stFieldInvalid 0 0
    else match jobArg s n with
      | none => fin s
      | some j =>
        if areaNat x 0x10 8 = 1 ∨ (commitNext j).isNone then fin (jobEnd s j.num stCommandAborted)
        else jobUpd s j.num fun y => { y with stopAt := true })
/-- JOB_WAIT. -/
def execJobWait (slot : Fin 8192) (s : State) : Out_ :=
  let k := slot.val
  .next (slotRun s k 0x24 fun s x =>
    let n := areaNat x 8 8
    if (jobArg s n).isSome then s
    else match exitOf s n with
      | some e => slotDone s k stOk (e.status.setWidth 64) e.delivered
      | none => slotDone s k stJobNotFound 0 0)

/-! ## Groups (R31, R38, R438) -/

/-- GROUP_JOIN. -/
def execGroupJoin (slot : Fin 8192) (s : State) : Out_ :=
  let k := slot.val
  .next (slotRun s k 0x28 fun s x =>
    let g := areaNat x 8 8
    let u := areaNat x 0x10 8
    let a := areaNat x 0x28 8
    let host := bitOf a 63
    if 254 < g ∨ 254 < u ∨ (if host then bitsAt a 8 55 ≠ 0 else a ≠ 0) ∨ (host ∧ areaNat x 0x20 8 < 2048) then slotDone s k stFieldInvalid 0 0
    else if !(jobsAll s).isEmpty then slotDone s k stDeviceBusy 0 0
    else if s.devGroup ≠ 0xFF then slotDone s k stGroupInvalid 0 0
    else
      let r := if host then dataRead s x 2048 else (stOk, [], s)
      if r.1 ≠ stOk then slotDone r.2.2 k r.1 0 0
      else
        let cs := ((List.range 256).map fun i => BitVec.ofNat 64 (memNat r.2.1 (8 * i) 8)).takeWhile fun w => w ≠ (0 : Word)
        let s1 : State := { r.2.2 with devGroup := BitVec.ofNat 8 g, devUnit := BitVec.ofNat 8 u }
        let s2 := if host then { s1 with groups := kvSet s1.groups (a % 256) { g := BitVec.ofNat 8 g, children := cs } } else s1
        slotDone s2 k stOk 0 0)
/-- GROUP_LEAVE. -/
def execGroupLeave (slot : Fin 8192) (s : State) : Out_ :=
  let k := slot.val
  .next (slotRun s k 0x29 fun s x =>
    let g := areaNat x 8 8
    if !(jobsAll s).isEmpty then slotDone s k stDeviceBusy 0 0
    else if s.devGroup = 0xFF ∨ s.devGroup.toNat ≠ g then slotDone s k stGroupInvalid 0 0
    else slotDone { s with devGroup := 0xFF, devUnit := 0xFF, groups := s.groups.filter fun e => e.2.g.toNat ≠ g } k stOk 0 0)

end Sys2Proof.Machine
end

