-- ==== Sys2Proof/Machine/Faults.lean ====
section
/-! DEFINITION. Spares, recovery, health and lock-step comparison (spec 17): commit points and images, the fault commands, substitution of a slot, canaries, the health tick, and pairing. -/

namespace Sys2Proof.Machine

/-! ## Commit points: what must be done first (R481 steps 1 to 3) -/

/-- A resident context is held, blocked, or still has work to do before commit batch `b`. -/
def ctxHeldAt (s : State) (c : Ctx) (own b : Nat) : Bool :=
  c.pend.isEmpty && (decide (b < c.batch.toNat) || match c.wait with
    | .swait _ _ | .rfence | .exit _ => !ctxWaitOver s c own
    | .pool _ _ _ => true
    | _ => false)
/-- A saved context is held or blocked. -/
def savedHeldAt (s : State) (v : Saved) (b : Nat) : Bool :=
  decide (b < (tagBatch v.tag).toNat) || (match v.wait with
    | .idle | .queueFull _ | .sendFull _ | .launchFull _ => false
    | _ => !savedWaitOver s v)
/-- Every batch up to `b` that is assembled here has reached every consumer. -/
def deliveredTo (s : State) (j : BitVec 16) (b : Nat) : Bool :=
  (jobStreams s j).all fun e => !e.2.opened || decide (b < firstLeft e.2 e.1 ((e.2.delivered.length + 2) * (e.2.cfg.a + 1)) e.2.cfg.first)
/-- Nothing of the job up to batch `b` is in flight (R481 steps 1 and 2). -/
def jobDrained (s : State) (j : BitVec 16) (b : Nat) : Bool :=
  let low := fun (t : Tag) => decide ((tagBatch t).toNat ≤ b)
  (s.tiles.all fun e =>
    (e.2.hws.all fun h => h.2.job ≠ j || ctxHeldAt s h.2 (ctxSrc e.1 h.1) b) &&
    ((e.2.runq ++ e.2.waiting).all fun v => v.job ≠ j || savedHeldAt s v b) && e.2.frozen.all fun v => v.2.job ≠ j) &&
  (s.ops.all fun o => o.2.job ≠ j || o.2.done || !low o.2.tag) && (s.engines.all fun e => e.2.all fun d => d.job ≠ j || !low d.tag) &&
  (s.qps.all fun q => q.2.sq.all fun w => w.job ≠ j || !low w.tag) && (s.adds.all fun a => a.job ≠ j || !low a.tag) && deliveredTo s j b
/-- Some buffer is charged to one of the quota entries. -/
def poolsHeld (s : State) (quotas : List Nat) : Bool :=
  s.cul.pools.any fun e => (List.range e.2.fresh).any fun i => !e.2.freed.contains i &&
    (let r := physNat s (stateAddr e.2 i) 8; r.1 = stOk && bitOf r.2.1 63 && quotas.contains (bitsAt r.2.1 40 12))
/-- Quota entries of a job. -/
def jobQuotas (x : Job) : List Nat := [x.quotaCtx, x.quotaQp, x.quotaEng]

/-! ## The image (R483, R484; log 36) -/

/-- Logical tiles bound to a job. -/
def jobTiles (x : Job) : List Nat := (x.units.flatMap tilesUnder).eraseDups
/-- Software contexts of a job in the order of the image: by tile, resident ones by hardware context, then queued, then waiting. Each waits anew after a restore. -/
def jobContexts (s : State) (j : BitVec 16) : List (Nat × Saved × Option Nat) :=
  s.tiles.flatMap fun e =>
    ((e.2.hws.filter fun h => h.2.job = j).map fun h => (e.1, { savedOf h.2 with wait := .idle, tag := ctxTag h.2 }, some h.1)) ++
    (((e.2.runq ++ e.2.waiting).filter fun v => v.job = j).map fun v => (e.1, { v with wait := .idle }, none))
/-- A section: kind, ID, length and bytes. -/
abbrev Section := Nat × Nat × Nat × Mem
/-- Add a section that is read from physical pieces. -/
def sectRead (acc : Status × List Section × State) (kind id : Nat) (ps : List (Nat × Nat)) : Status × List Section × State :=
  let r := piecesRead acc.2.2 ps
  (if acc.1 = stOk then r.1 else acc.1, acc.2.1 ++ [(kind, id, ps.foldl (fun n p => n + p.2) 0, r.2.1)], r.2.2)
/-- The sections of a job's image. -/
def commitSections (s : State) (x : Job) (regions : List (Nat × Nat)) : Status × List Section × State :=
  let a := (jobContexts s x.num).foldl (fun (acc : Status × List Section × State) e =>
    let id := e.1 * 256 + e.2.1.ord
    match e.2.2 with
    | some hw => match ctxGet acc.2.2 e.1 hw with
      | some c => (acc.1, acc.2.1 ++ [(1, id, 0x20000, ctxImage acc.2.2 e.1 c)], acc.2.2)
      | none => acc
    | none => sectRead acc 1 id [(e.2.1.areaLo, 65536), (e.2.1.areaHi, 65536)]) (stOk, [], s)
  let b := (jobTiles x).foldl (fun acc L => sectRead acc 2 L [(0x080000000000 + 0x400000 * L, 0x300000)]) a
  let c := (regions.zipIdx).foldl (fun acc r => sectRead acc 3 r.2 [r.1]) b
  let cs := x.ctrs.flatMap fun r => rangeFrom r.1 r.2
  let ctr : Section := (4, 0, ceilDiv (8 * cs.length) 64 * 64, memOfBytes 0 (cs.flatMap fun k => leBytes 8 (ctrGet c.2.2 k).toNat))
  (c.1, c.2.1 ++ [ctr] ++ ((jobStreams s x.num).map fun e => (5, e.1 - 192, 64, [])), c.2.2)
/-- Directory entries of sections laid one after another from offset `off`. -/
def commitDir : Nat → List Section → List (Nat × Nat × Nat × Nat)
  | _, [] => []
  | off, x :: r => (x.1, x.2.1, off, x.2.2.1) :: commitDir (off + x.2.2.1) r
/-- Bytes of a directory entry. -/
def dirBytes (d : Nat × Nat × Nat × Nat) : Bytes := leBytes 1 d.1 ++ zeros 3 ++ leBytes 4 d.2.1 ++ leBytes 8 d.2.2.1 ++ leBytes 8 d.2.2.2 ++ zeros 8
/-- The image header. -/
def commitHeader (x : Job) (b st len n crc : Nat) : Bytes :=
  ascii "SCMT" ++ [1, BitVec.ofNat 8 st] ++ leBytes 2 x.num.toNat ++ leBytes 8 b ++ sub x.fpB 0 32 ++ leBytes 8 len ++ leBytes 4 n ++ leBytes 4 crc ++ zeros 64
/-- The image of a job in one of its areas. -/
def imageGet (s : State) (j : BitVec 16) (second : Bool) : Option CommitImg := s.images.find? fun i => i.job = j && i.second = second
/-- Store an image's record. -/
def imagePut (s : State) (i : CommitImg) : State := { s with images := (s.images.filter fun y => !(y.job = i.job && y.second = i.second)) ++ [i] }
/-- The older of the two images of a job. -/
def olderArea (s : State) (j : BitVec 16) : Bool :=
  match imageGet s j false, imageGet s j true with
  | none, _ => false
  | some _, none => true
  | some a, some b => if !a.complete then false else if !b.complete then true else decide (b.batch.toNat < a.batch.toNat)
/-- Write the image of commit point `b` (R481 step 4): SUCCESS, COMMIT_IMAGE_SMALL, or the status of a section that does not read (log 40). -/
def imageWrite (s : State) (x : Job) (c : CommitCfg) (b : Nat) : Status × State :=
  let second := olderArea s x.num
  let base := if second then c.imgB else c.imgA
  let secs := commitSections s x c.regions
  let n := secs.2.1.length
  let dirLen := ceilDiv (32 * n) 64 * 64
  let dir := commitDir (0x80 + dirLen) secs.2.1
  let len := dirLen + secs.2.1.foldl (fun n x => n + x.2.2.1) 0
  if c.cap < 0x80 + len then (stCommitSmall, s)
  else
    let s0 := imagePut secs.2.2 { job := x.num, base := base, cap := c.cap, second := second, batch := BitVec.ofNat 64 b, complete := false }
    let s1 := (physPut s0 base (commitHeader x b 0 len n 0)).2
    if secs.1 ≠ stOk then (secs.1, s1)
    else
      -- the stream sections have no byte layout in the manual: their bytes are free
      let fill := (secs.2.1.zip dir).foldl (fun (acc : Mem × State) e =>
        let f := if e.1.1 = 5 then freeCells acc.2 e.1.2.2.1 else (e.1.2.2.2, acc.2)
        (acc.1 ++ memShift f.1 (e.2.2.2.1 - 0x80), f.2)) (memOfBytes 0 (dir.flatMap dirBytes), s1)
      let s2 := (physWrite fill.2 (base + 0x80) len fill.1).2
      let s3 := (physPut s2 base (commitHeader x b 1 len n (crc32c (memBytes fill.1 0 len)))).2
      let cs := (jobContexts s x.num).map fun e => (e.1, e.2.1)
      (stOk, imagePut s3 {
        job := x.num, base := base, cap := c.cap, second := second, batch := BitVec.ofNat 64 b, complete := true, length := len, dir := dir, ctxs := cs
        segs := s.flt.segs.filter fun e => cs.any fun y => y.2.sw = e.1
        streams := (jobStreams s x.num), launched := (jobTiles x).map fun L => (L, (tileGet s L).launched) })

/-! ## Taking a commit point (R481, R493) -/

/-- Complete the pairing that waits for a commit point (R493). -/
def lsPaired (s : State) (j : BitVec 16) : State :=
  if s.flt.lsState = 1 ∧ s.flt.lsJob = j ∧ s.flt.lsAgreed then slotDone { s with flt := { s.flt with lsState := 2 } } s.flt.lsSlot stOk 0 0 else s
/-- The commit point is behind: its work is released (R481 step 6), a job that stops here ends (R438). -/
def commitPass (s : State) (j : BitVec 16) (b : Nat) (taken : Bool) : State :=
  let s1 := jobUpd s j fun y => { y with lastCommit := some (BitVec.ofNat 64 b), agree := none, agWrote := false, agSink := none, slipSeen := if taken then false else y.slipSeen }
  let s2 := if taken then lsPaired (replayPassed s1 j b) j else s1
  if (jobOf s2 j).any (·.stopAt) then jobEnd s2 j stCommandAborted else s2
/-- A commit point is skipped: DEVICE_ERROR with the reason. -/
def commitSkip (s : State) (j : BitVec 16) (b : Nat) (st : Status) : State := commitPass (deviceError s st 0 []) j b false
/-- COMMIT_POINT (R481): once batch `b`, the next commit point of the job, is drained, its image is written; with one device the work is released at once, with more the agreement begins. -/
def execCommitPoint (job : BitVec 16) (b : Word) (s : State) : Out_ :=
  match jobOf s job with
  | none => .next s
  | some x =>
    match x.commit with
    | none => .next s
    | some c =>
      if x.agree.isSome ∨ commitNext x ≠ some b.toNat ∨ !jobDrained s job b.toNat then .next s
      else if poolsHeld s (jobQuotas x) then .next (commitSkip s job b.toNat stCommitHeld)
      else
        let w := imageWrite s x c b.toNat
        if w.1 ≠ stOk then .next (commitSkip w.2 job b.toNat w.1)
        else if x.devices = 1 then .next (commitPass w.2 job b.toNat true)
        else .next (jobUpd w.2 job fun y => { y with agree := some (b, 1, s.now, false), agWrote := false, agSink := none })

/-! ## Agreement on a commit point or a recovery (R440, R481 step 5, R487 step 4) -/

/-- An agreement entry. -/
def agreeEntry (x : Job) (b : Word) (kind : Nat) : Bytes := leBytes 8 b.toNat ++ leBytes 4 x.epoch ++ leBytes 4 kind
/-- Offset of a device's agreement entry. -/
def agreeOff (x : Job) (i : Nat) : Nat := 64 * (x.devices + 1) + 16 * i
/-- One move of the agreement: the release word reads this device's triple, and the state. -/
def agreeMove (s : State) (x : Job) (b : Word) (kind : Nat) : Bool × State :=
  let e := agreeEntry x b kind
  if x.self = 0 then
    let s1 := if x.agWrote then s else jobUpd (agreePut s x (agreeOff x 0) e) x.num fun y => { y with agWrote := true }
    let r := (List.range x.devices).foldl (fun (acc : Bool × State) i => let y := agreeLocal acc.2 x (agreeOff x i) 16; (acc.1 && y.1 = e, y.2)) (true, s1)
    if r.1 then (true, agreePut r.2 x (agreeOff x x.devices) e) else r
  else
    let poll := fun (s : State) => let p := agreeRead s x (agreeOff x x.devices) 16; (false, jobUpd p.2 x.num fun y => { y with agSink := p.1 })
    match x.agSink with
    | none =>
      if x.agWrote then poll s
      else
        let p := agreeWrite s x (agreeOff x x.self) e
        (false, jobUpd p.2 x.num fun y => { y with agSink := p.1 })
    | some k =>
      let t := sinkTake s k
      match t.1 with
      | none => (false, s)
      | some (st, m) =>
        if !x.agWrote then (false, jobUpd t.2 x.num fun y => { y with agSink := none, agWrote := st = stOk })
        else if st = stOk ∧ memBytes m 0 16 = e then (true, t.2)
        else poll t.2
/-- COMMIT_TIMEOUT (R481): raised once; the step goes on waiting. -/
def execCommitTimeout (job : BitVec 16) (s : State) : Out_ :=
  match (jobOf s job).bind (·.agree) with
  | some (b, kind, t, false) => .next (jobUpd (deviceError s stCommitTimeout 0 []) job fun y => { y with agree := some (b, kind, t, true) })
  | _ => .next s

/-! ## The fault commands (R447, R488, R498, R499) -/

/-- Complete the fault command in progress, and its journal entry. -/
def fltDone (s : State) (st : Status) (result : Nat) : State :=
  let s1 : State := { s with flt := { s.flt with busy := false, status := st, result := BitVec.ofNat 32 result, block := none, jsn := 0 } }
  jrnDone s1 s.flt.jsn 2 st (BitVec.ofNat 64 result)
/-- COMMIT_SET (R480, R499). -/
def commitSet (s : State) (b : Bytes) : State :=
  let j := subNat b 2 2
  let n := subNat b 0x30 4
  let cap := subNat b 0x20 8
  let areaOk := fun a => a % 4096 = 0 && inHbm s a cap
  let r := if n ≤ 4096 then (if inHbm s (subNat b 0x28 8) (16 * n) then physRead s (subNat b 0x28 8) (16 * n) else (stOutOfBounds, [], s)) else (stOk, [], s)
  let rs := (List.range n).map fun i => (memNat r.2.1 (16 * i) 8, memNat r.2.1 (16 * i + 8) 8)
  if !blkZero b 1 2 || j = 0xFFFF || ((jobsAll s).any fun x => x.num.toNat = j) || decide (65536 < subNat b 4 4) || !blkZero b 8 0x10 || !areaOk (subNat b 0x10 8) ||
      !areaOk (subNat b 0x18 8) || decide (4096 < n) || !blkZero b 0x34 0x80 || (!(kvGet s.host.commits j).isSome && decide (64 ≤ s.host.commits.length)) then
    fltDone s stFaultCommand 0
  else if r.1 ≠ stOk then fltDone r.2.2 r.1 0
  else if !(rs.all fun x => x.1 % 64 = 0 && x.2 % 64 = 0 && inHbm s x.1 x.2) then fltDone s stFaultCommand 0
  else
    let c : CommitCfg := { k := subNat b 4 4, imgA := subNat b 0x10 8, imgB := subNat b 0x18 8, cap := cap, regions := rs }
    fltDone { r.2.2 with host := { r.2.2.host with commits := kvSet r.2.2.host.commits j c } } stOk 0
/-- Accept a GO to FLT_CMD: the block is read once; the command takes a JSN and an own-account entry (R447, R558 row 9). -/
def fltAccept (s : State) : State :=
  let a := s.flt.cmdAddr.toNat * 128
  let r := if inHbm s a 128 then physRead s a 128 else (stOutOfBounds, [], s)
  if r.1 ≠ stOk then ownFail { r.2.2 with flt := { r.2.2.flt with status := r.1, result := 0 } } 9 a r.1
  else
    let b := memBytes r.2.1 0 128
    let n := jrnNext r.2.2
    let s1 := jrnPut n.2 n.1 (jrnEntry n.1 0xFFFF ((0x40 + subNat b 0 1) % 256) 1 0 0 0 (shake b) s.now.toNat 0)
    { s1 with flt := { s1.flt with busy := true, jsn := n.1, block := some b } }
/-- OP of the command block as it stands in memory. -/
def fltOp (s : State) : Nat := (physNat s (s.flt.cmdAddr.toNat * 128) 1).2.1

/-! ## RECOVER (R485-R488) -/

/-- Batches that reached some consumer, and the highest of them. -/
def jobHorizon (s : State) (j : BitVec 16) : Nat := (jobStreams s j).foldl (fun m e => e.2.delivered.foldl (fun m d => max m d.1) m) 0
/-- Step 2: freeze the tiles, close the queue pairs to SX-9600 peers, abort engine work, free the buffers. -/
def recoverStop (s : State) (x : Job) : State :=
  let s1 := (jobTiles x).foldl (fun s L => freezeTile s L stMasterFrozen 0 x.num 0) s
  let s2 := descAbort s1 (fun _ d => d.job = x.num) fun _ _ => stMasterFrozen
  let s3 := s2.qps.foldl (fun s q =>
    if q.2.job = x.num ∧ qpConnected q.2 ∧ q.2.peerKind = 1 then
      let s1 := connClosed (sendClose (qpFlush s q.1) q.1 4) q.1
      frontDrop (qpUpd s1 q.1 fun y => qpDrop y (qpRest y)) (qpSrc q.1)
    else s) s2
  poolsReclaim (poolsDropJob s3 x.num) (jobQuotas x)
/-- Restore one section from an image: SUCCESS or the failure of its read. -/
def sectRestore (s : State) (x : Job) (i : CommitImg) (regions : List (Nat × Nat)) (d : Nat × Nat × Nat × Nat) : Status × State :=
  let r := physRead s (i.base + d.2.2.1) d.2.2.2
  if r.1 ≠ stOk then (r.1, r.2.2)
  else
    let put := fun (ps : List (Nat × Nat)) => (stOk, (piecesWrite r.2.2 ps r.2.1).2)
    match d.1 with
    | 1 => match i.ctxs.find? fun c => c.1 * 256 + c.2.ord = d.2.1 with
      | some c => put [(c.2.areaLo, 65536), (c.2.areaHi, 65536)]
      | none => (stOk, r.2.2)
    | 2 => put [(0x080000000000 + 0x400000 * d.2.1, 0x300000)]
    | 3 => match regions[d.2.1]? with
      | some g => put [g]
      | none => (stOk, r.2.2)
    | 4 => (stOk, ((x.ctrs.flatMap fun c => rangeFrom c.1 c.2).zipIdx).foldl (fun s k => ctrSet s k.1 (BitVec.ofNat 64 (memNat r.2.1 (8 * k.2) 8))) r.2.2)
    | _ => (stOk, r.2.2)
/-- A stream as a recovery leaves it: the image's configuration, ledger and reports, today's horizons (R486). -/
def streamRestore (s : State) (target : Nat) (e : Nat × Stream) : State :=
  let cur := streamAt s e.1
  let again := ((cur.delivered.map (·.1)).eraseDups).filter fun b => decide (target < b) && allDelivered { e.2 with delivered := cur.delivered } b
  streamPut s e.1 { e.2 with delivered := cur.delivered, batches := [], sending := [], asked := [], fetched := [], pulls := [], credits := [], closing := none, again := again }
/-- Step 3: every section, no pending add, counters and run queues as in the image; false where a section does not read. -/
def recoverRestore (s : State) (x : Job) (i : CommitImg) (regions : List (Nat × Nat)) : Bool × State :=
  let r := i.dir.foldl (fun (acc : Bool × State) d => if acc.1 then let y := sectRestore acc.2 x i regions d; (y.1 = stOk, y.2) else acc) (true, s)
  if !r.1 then r
  else
    let s1 : State := { r.2 with
      adds := r.2.adds.filter fun a => a.job ≠ x.num
      dps := r.2.dps.map fun d => (d.1, d.2.filter fun q => q.job ≠ x.num)
      ops := r.2.ops.filter fun o => o.2.job ≠ x.num
      streams := r.2.streams.filter fun e => e.2.job ≠ x.num || i.streams.any fun y => y.1 = e.1
      flt := { r.2.flt with
        segs := (r.2.flt.segs.filter fun e => !(jobSws r.2 x.num).contains e.1 && !i.segs.any fun y => y.1 = e.1) ++ i.segs
        own := if r.2.flt.lsJob = x.num then [] else r.2.flt.own
        peer := if r.2.flt.lsJob = x.num then [] else r.2.flt.peer } }
    let s2 := i.streams.foldl (fun s e => streamRestore s i.batch.toNat e) s1
    let s3 := (jobTiles x).foldl (fun s L =>
      let s1 := (List.range 8).foldl (fun s h => frontDrop s (ctxSrc L h)) s
      tileSet s1 L { runq := (i.ctxs.filter fun c => c.1 = L).map (·.2), launched := (kvGet i.launched L).getD 0 }) s2
    (true, s3)
/-- Step 5: the tiles run again, and the job replays. -/
def recoverRelease (s : State) (j : BitVec 16) (target : Word) : State :=
  match jobOf s j with
  | none => fltDone s stRecoveryInvalid 0
  | some x =>
    let horizon := jobHorizon s j
    let s1 := (jobTiles x).foldl (fun s L => unitSet s (tileUcb L) { unitGet s (tileUcb L) with st := .running }) s
    let s2 := jobUpd s1 j fun y => { y with
      agree := none, agWrote := false, agSink := none, slipSeen := y.slipSeen
      lastCommit := some (BitVec.ofNat 64 (max target.toNat horizon)) }
    let s3 : State := if s2.flt.lsJob = j ∧ 3 ≤ s2.flt.lsState.toNat then { s2 with flt := { s2.flt with lsState := 2, lsTile := 0, lsOrd := 0, lsKind := false, lsSegment := 0, lsBatch := 0 } } else s2
    fltDone ((jobTiles x).foldl tileSettle s3) stOk target.toNat
/-- RECOVER (R487): steps 1 to 3, and step 5 at once for a job of one device. -/
def recover (s : State) (b : Bytes) : State :=
  let j := BitVec.ofNat 16 (subNat b 2 2)
  let target := subNat b 8 8
  if !blkZero b 1 2 || !blkZero b 4 8 || !blkZero b 0x10 0x80 then fltDone s stFaultCommand 0
  else match jobOf s j with
    | none => fltDone s stRecoveryInvalid 0
    | some x =>
      match x.strict, x.commit.filter fun c => c.k ≠ 0 with
      | true, some c =>
        match s.images.find? fun i => i.job = j && i.complete && i.batch.toNat = target with
        | none => fltDone s stRecoveryInvalid 0
        | some i =>
          if !((jobTiles x).all fun L => backed s L && (unitGet s (tileUcb L)).st ≠ .failed) then fltDone s stRecoveryInvalid 0
          else
            let t0 := s.pace.tick.toNat
            let s1 := recoverStop s x
            let s2 := jobUpd s1 j fun y => { y with epoch := y.epoch + 1, replay := some (BitVec.ofNat 64 target, jobHorizon s j, t0), agree := none }
            let r := recoverRestore s2 { x with epoch := x.epoch + 1 } i c.regions
            if !r.1 then fltDone r.2 stRecoveryFailed 0
            else if x.devices = 1 then recoverRelease r.2 j (BitVec.ofNat 64 target)
            else jobUpd r.2 j fun y => { y with agree := some (BitVec.ofNat 64 target, 2, s.now, false), agWrote := false, agSink := none }
      | _, _ => fltDone s stRecoveryUnsupported 0
/-- COMMIT_AGREEMENT_RELEASE (R481, R487): the next move of the agreement; once the release word reads this device's triple, the commit's work or the recovery's tiles are released. -/
def execCommitAgreementRelease (job : BitVec 16) (s : State) : Out_ :=
  match jobOf s job with
  | none => .next s
  | some x =>
    match x.agree with
    | none => .next s
    | some (b, kind, _, _) =>
      let m := agreeMove s x b kind
      .next (if !m.1 then m.2 else if kind = 1 then commitPass m.2 job b.toNat true else recoverRelease m.2 job b)

/-! ## MARGIN (R492) -/

/-- The slot of a MARGIN may be tested: a field spare, field retired, or backing a READY tile that no running job binds. -/
def marginSlot (s : State) (i : Nat) : Bool :=
  match slotStateOf s i with
  | .fieldSpare | .fieldRetired => true
  | _ => (tileOfSlot s i).any fun L => (unitGet s (tileUcb L)).st = .ready && !unitRuns s (tileUcb L)
/-- MARGIN: `failed` are the patterns that fail on this slot. -/
def marginRun (s : State) (b : Bytes) (failed : BitVec 4) : State :=
  let i := subNat b 4 4
  let v := subNat b 8 8
  let f := failed &&& BitVec.ofNat 4 (v / 2 ^ 8)
  if !blkZero b 1 4 || decide (864 ≤ i) || v % 16 = 0 || bitsAt v 4 4 ≠ 0 || decide (2 ^ 12 ≤ v) || !blkZero b 0x10 0x80 || !marginSlot s i then fltDone s stFaultCommand 0
  else
    let n := ((List.range 4).filter fun k => f.getLsbD k).length
    let s1 := addTroubleN (tsFill s i) (slotUcb i) 10 n
    fltDone s1 (if n = 0 then stOk else stMarginFailed) f.toNat
/-- Run the accepted fault command, once no SPARE_REMAP runs (R488). MARGIN's outcome comes with its own row. -/
def fltRun (s : State) (failed : Option (BitVec 4)) : State :=
  if !s.flt.busy ∨ s.host.remap.isSome then s
  else match s.flt.block with
    | none => s
    | some b =>
      match subNat b 0 1, failed with
      | 1, _ => commitSet s b
      | 2, _ => recover { s with flt := { s.flt with block := none } } b
      | 3, some f => marginRun s b f
      | 3, none => s
      | _, _ => fltDone s stFaultCommand 0
/-- A write of FLT_CMD with GO: ignored while BUSY. -/
def fltGo (s : State) : State := if s.flt.busy then s else fltRun (fltAccept s) none
/-- A fault command's row: GO with this OP in the block, or the accepted command of this OP goes on. -/
def fltRow (s : State) (op : Nat) (failed : Option (BitVec 4)) : State :=
  if s.flt.busy then (if s.flt.block.any fun b => subNat b 0 1 = op then fltRun s failed else s)
  else if fltOp s = op then fltRun (fltAccept s) failed else s
/-- COMMIT_SET. -/
def execCommitSet (s : State) : Out_ := .next (fltRow s 1 none)
/-- RECOVER. A recovery whose job has ended meanwhile completes with RECOVERY_INVALID (log 42). -/
def execRecover (s : State) : Out_ :=
  .next (if s.flt.busy ∧ s.flt.block.isNone ∧ !(s.jobs.any fun j => j.agree.any fun a => a.2.1 = 2) then fltDone s stRecoveryInvalid 0 else fltRow s 2 none)
/-- MARGIN. -/
def execMargin (failed : BitVec 4) (s : State) : Out_ := .next (fltRow s 3 (some failed))

/-! ## CHECKPOINT (R438, R484) -/

/-- CHECKPOINT: the newest complete image goes to the buffer; the manual names no status for a job without one (log 41). -/
def execCheckpoint (slot : Fin 8192) (s : State) : Out_ :=
  let k := slot.val
  .next (slotRun s k 0x25 fun s x =>
    let n := areaNat x 8 8
    if (jobArg s n).isNone ∧ (exitOf s n).isNone then slotDone s k stJobNotFound 0 0
    else
      let best := (s.images.filter fun i => i.job.toNat = n && i.complete).foldl (fun (b : Option CommitImg) i => match b with
        | some y => if y.batch.toNat < i.batch.toNat then some i else b
        | none => some i) none
      match best with
      | none => let f := freeStatus s; slotDone f.2 k f.1 0 0
      | some i =>
        let len := 0x80 + i.length
        if areaNat x 0x20 8 < len then slotDone s k stCheckpointSmall (BitVec.ofNat 64 len) 0
        else
          let r := physRead s i.base len
          if r.1 ≠ stOk then slotDone r.2.2 k r.1 0 0
          else
            let w := dataWrite r.2.2 x len r.2.1
            if w.1 ≠ stOk then slotDone w.2 k w.1 0 0 else slotDone w.2 k stOk (BitVec.ofNat 64 len) i.batch)

/-! ## SPARE_REMAP (R489, R490) -/

/-- The substitution is complete: the map, the old slot, the record, the tile (steps 2 to 4). -/
def remapDone (s : State) (k L p : Nat) (old : UState) : State :=
  let i := 18 * (L / 16) + p
  let s1 := tsFill s i
  let was := slotIdx s1 L
  let had := backed s1 L
  let s2 : State := { s1 with
    mapTile := kvSet s1.mapTile L p, unbacked := s1.unbacked.filter fun x => x ≠ L
    slotStates := kvSet (if had then kvSet s1.slotStates was .fieldRetired else s1.slotStates) i .mapped
    remaps := kvSet s1.remaps L p
    jobs := s1.jobs.map fun j => if (jobTiles j).contains L then { j with substitutions := j.substitutions + 1 } else j
    host := { s1.host with remap := none } }
  slotDone (unitSet s2 (tileUcb L) { unitGet s2 (tileUcb L) with st := if old = .failed then .ready else old }) k stOk (BitVec.ofNat 64 p) 0
/-- The spare under test fails its known-answer tests: it is counted and retired, and the next is tried under 0xFF. -/
def remapFail (s : State) (k L p arg : Nat) (old : UState) : State :=
  let i := 18 * (L / 16) + p
  let s1 := addTrouble { s with slotStates := kvSet s.slotStates i .fieldRetired } (slotUcb i) 11
  if arg = 0xFF ∧ !(sparesOf s1 (L / 16)).isEmpty then s1
  else slotDone { unitSet s1 (tileUcb L) { unitGet s1 (tileUcb L) with st := old } with host := { s1.host with remap := none } } k stSpareTest 0 0
/-- SPARE_REMAP: the checks of R489, then one spare's tests, which `ok` decides, and the rest of R490. -/
def execSpareRemap (slot : Fin 8192) (ok : Bool) (s : State) : Out_ :=
  let k := slot.val
  .next (slotRun s k 0x26 fun s x =>
    let L := areaNat x 8 8
    let arg := areaNat x 0x10 8
    let spares := sparesOf s (L / 16)
    let pick := if arg = 0xFF then spares.head? else if spares.contains arg then some arg else none
    let test := fun (s : State) (old : UState) => match pick with
      | some p => if ok then remapDone s k L p old else remapFail s k L p arg old
      | none => s
    match s.host.remap with
    | some r => if r.1 = k then test s r.2.2 else s
    | none =>
      if 768 ≤ L ∨ (arg ≠ 0xFF ∧ 18 ≤ arg) then slotDone s k stFieldInvalid 0 0
      else if s.flt.busy then s
      else
        let u := unitGet s (tileUcb L)
        if u.st = .running ∨ u.st = .resetting ∨ u.st = .quiescing ∨ u.busy then slotDone s k stRemapState 0 0
        else if pick.isNone then slotDone s k (if arg = 0xFF then stNoFieldSpare else stSlotNotSpare) 0 0
        else
          let s1 : State := unitSet { s with host := { s.host with remap := some (k, L, u.st) } } (tileUcb L) { u with st := .resetting }
          test s1 u.st)

/-! ## Canaries and health (R478, R491) -/

/-- CANARY_TRIP (R491): `path` 0 tensor, 1 vector, 2 exact-dot, 3 tile store. -/
def execCanaryTrip (tile : Fin 768) (path : Fin 4) (s : State) : Out_ :=
  let L := tile.val
  if !backed s L then .next s
  else
    let i := slotIdx s L
    let s1 := addTrouble s (slotUcb i) (5 + path.val)
    let x := siliconGet s1 (slotUcb i)
    let sec := nowSec s
    let y := if x.trSec = sec then { x with trips := x.trips + 1 } else { x with trips := 1, trSec := sec, trDone := false }
    let hit := s.flt.canaryLimit ≠ 0 && !y.trDone && decide (s.flt.canaryLimit.toNat ≤ y.trips)
    let s2 := siliconSet s1 (slotUcb i) { y with trDone := y.trDone || hit }
    .next (if hit then deviceError (addTrouble (setSuspect s2 i) (slotUcb i) 12) stCanary (tileUcb L) [] else s2)
/-- The decay of one record (R478). -/
def silDecay (shift hyst : Nat) (x : Silicon) : Silicon :=
  let m := x.mass - x.mass / 2 ^ shift
  { x with mass := m, score := nextScore m x.score hyst }
/-- HEALTH_DECAY (R478): a health tick of TICK_H hours. -/
def execHealthDecay (s : State) : Out_ :=
  .next { s with
    silicon := s.silicon.map fun e => (e.1, silDecay s.flt.decayShift.toNat s.flt.hyst.toNat e.2)
    flt := { s.flt with hours := s.flt.hours + s.flt.tickH.toNat } }

/-! ## Lock-step (R493-R495) -/

/-- Key of the partner's FP_B among its records. -/
def lsKeyFpB : Nat := 2 ^ 61
/-- LOCKSTEP_PAIR: pairing waits for the partner's FP_B and for the next commit point; the row run again completes it when the pairing has failed. -/
def execLockstepPair (slot : Fin 8192) (s : State) : Out_ :=
  let k := slot.val
  .next (slotRun s k 0x27 fun s x =>
    let n := areaNat x 8 8
    let q := areaNat x 0x10 8
    let mode := areaNat x 0x28 8
    if 1 < mode ∨ (mode = 1 ∧ 2 ^ 20 ≤ q) then slotDone s k stFieldInvalid 0 0
    else if x.phase = 1 then (if s.flt.lsState = 0 ∨ s.flt.lsSlot ≠ k then slotDone s k stLockstepInvalid 0 0 else s)
    else match jobArg s n with
      | none => slotDone s k (if mode = 1 ∧ (exitOf s n).isSome then stLockstepInvalid else if (exitOf s n).isSome then stOk else stJobNotFound) 0 0
      | some j =>
        if mode = 0 then
          slotDone (if s.flt.lsState ≠ 0 ∧ s.flt.lsJob = j.num then { s with flt := { s.flt with lsState := 0, lsAgreed := false, own := [], peer := [] } } else s) k stOk 0 0
        else if !j.strict ∨ (commitNext j).isNone ∨ s.flt.lsState ≠ 0 ∨ (qpGet s q).state = .free ∨ 2 ≤ (qpGet s q).transport.toNat then slotDone s k stLockstepInvalid 0 0
        else
          let s1 := slotSet s k { x with phase := 1 }
          let s2 : State := { s1 with flt := { s1.flt with lsState := 1, lsJob := j.num, lsQpn := q, lsSlot := k, lsAgreed := false, own := [], peer := [], lsTile := 0, lsOrd := 0, lsKind := false, lsSegment := 0, lsBatch := 0 } }
          send s2 (.digest q lsKeyFpB 0 j.fpB))
/-- LOCKSTEP_DIGEST (R493, R495): a record of the partner arrives. -/
def execLockstepDigest (key : Nat) (batch : Word) (dg : Bytes) (s : State) : Out_ :=
  if key = lsKeyFpB then
    if s.flt.lsState = 1 then
      if (jobOf s s.flt.lsJob).any fun j => j.fpB = dg then .next { s with flt := { s.flt with lsAgreed := true } }
      else .next (slotDone { s with flt := { s.flt with lsState := 0, lsAgreed := false } } s.flt.lsSlot stLockstepInvalid 0 0)
    else .next s
  else if 2 ≤ s.flt.lsState.toNat then
    .next (lsCheck (lsCompare { s with flt := { s.flt with peer := s.flt.peer ++ [(key, batch, dg)] } }))
  else .next s
/-- LOCKSTEP_TIMEOUT (R495): the digest with the least BATCH has no partner's. -/
def execLockstepTimeout (s : State) : Out_ :=
  if s.flt.lsState ≠ 2 then .next (lsCheck s)
  else match s.flt.own.foldl (fun (b : Option (Nat × Word × Bytes)) o => match b with
      | some y => if o.2.1.toNat < y.2.1.toNat then some o else b
      | none => some o) none with
    | some o => .next (lsCheck (lsReport s o.1 o.2.1 4))
    | none => .next s

end Sys2Proof.Machine
end

