-- ==== Sys2Proof/Machine/Slh.lean ====
section
/-! DEFINITION. SLH-DSA-SHAKE-256s and -256f (FIPS 205, as R519 fixes them): key generation, signing, verification; and the check of a firmware or runtime image (R520, R521). -/

namespace Sys2Proof.Machine

/-- A parameter set: total height, layers, height of one layer, FORS trees and their height, message digest bytes. Hashes have 32 bytes and w is 16. -/
structure SlhP where
  h : Nat
  d : Nat
  hp : Nat
  a : Nat
  k : Nat
  m : Nat
  deriving DecidableEq, Repr

/-- SLH-DSA-SHAKE-256s. -/
def slhS : SlhP := { h := 64, d := 8, hp := 8, a := 14, k := 22, m := 47 }
/-- SLH-DSA-SHAKE-256f. -/
def slhF : SlhP := { h := 68, d := 17, hp := 4, a := 9, k := 35, m := 49 }
/-- Signature bytes. -/
def slhSigLen (p : SlhP) : Nat := 32 * (1 + p.k * (1 + p.a) + p.h + p.d * 67)

/-- A 32-byte address: layer, tree, type and three words. -/
def slhAdrs (layer tree type a b c : Nat) : Bytes := beBytes 4 layer ++ beBytes 12 tree ++ beBytes 4 type ++ beBytes 4 a ++ beBytes 4 b ++ beBytes 4 c
/-- F, H, T and PRF: SHAKE256 of the public seed, an address and a message. -/
def slhHash (seed adrs m : Bytes) : Bytes := shake (seed ++ adrs ++ m)
/-- The `n` groups of `w` bits of a byte string, most significant first. -/
def slhBase (b : Bytes) (w n : Nat) : List Nat :=
  let x := beNat b
  (List.range n).map fun i => bitsAt x (8 * b.length - w * (i + 1)) w
/-- Node i of consecutive 32-byte values. -/
def slhAt (b : Bytes) (i : Nat) : Bytes := sub b (32 * i) 32

/-! ## WOTS+ -/

/-- `n` steps of a chain from position `i`. -/
def slhChain (seed : Bytes) (layer tree kp ch : Nat) : Nat → Nat → Bytes → Bytes
  | 0, _, x => x
  | n + 1, i, x => slhChain seed layer tree kp ch n (i + 1) (slhHash seed (slhAdrs layer tree 0 kp ch i) x)
/-- The 67 digits of a message: 64 of it and three of its checksum. -/
def slhDigits (m : Bytes) : List Nat :=
  let x := slhBase m 4 64
  let c := x.foldl (fun t d => t + (15 - d)) 0
  x ++ slhBase (beBytes 2 (c * 16)) 4 3
/-- Secret start of a chain. -/
def slhSk (sk seed : Bytes) (layer tree kp ch : Nat) : Bytes := slhHash seed (slhAdrs layer tree 5 kp ch 0) sk
/-- Compress the ends of the chains into a public key. -/
def slhWotsPk (seed : Bytes) (layer tree kp : Nat) (ends : List Bytes) : Bytes := slhHash seed (slhAdrs layer tree 1 kp 0 0) ends.flatten
/-- WOTS+ public key. -/
def slhWotsGen (sk seed : Bytes) (layer tree kp : Nat) : Bytes :=
  slhWotsPk seed layer tree kp ((List.range 67).map fun c => slhChain seed layer tree kp c 15 0 (slhSk sk seed layer tree kp c))
/-- WOTS+ signature. -/
def slhWotsSign (sk seed : Bytes) (layer tree kp : Nat) (m : Bytes) : Bytes :=
  ((slhDigits m).zipIdx.flatMap fun d => slhChain seed layer tree kp d.2 d.1 0 (slhSk sk seed layer tree kp d.2))
/-- Public key from a WOTS+ signature. -/
def slhWotsFrom (seed : Bytes) (layer tree kp : Nat) (sig m : Bytes) : Bytes :=
  slhWotsPk seed layer tree kp ((slhDigits m).zipIdx.map fun d => slhChain seed layer tree kp d.2 (15 - d.1) d.1 (slhAt sig d.2))

/-! ## XMSS and the hypertree -/

/-- Node i at height z of an XMSS tree. -/
def slhNode (sk seed : Bytes) (layer tree : Nat) : Nat → Nat → Bytes
  | 0, i => slhWotsGen sk seed layer tree i
  | z + 1, i => slhHash seed (slhAdrs layer tree 2 0 (z + 1) i) (slhNode sk seed layer tree z (2 * i) ++ slhNode sk seed layer tree z (2 * i + 1))
/-- XMSS signature: WOTS+ signature and authentication path. -/
def slhXmssSign (p : SlhP) (sk seed : Bytes) (layer tree idx : Nat) (m : Bytes) : Bytes :=
  slhWotsSign sk seed layer tree idx m ++ (List.range p.hp).flatMap fun j => slhNode sk seed layer tree j ((idx / 2 ^ j).xor 1)
/-- Climb an authentication path of `n` nodes with addresses of a type, from height `z` and index `i`. -/
def slhClimb (seed : Bytes) (layer tree type kp : Nat) (auth : Bytes) : Nat → Nat → Nat → Bytes → Bytes
  | 0, _, _, x => x
  | n + 1, z, i, x =>
    let s := slhAt auth z
    slhClimb seed layer tree type kp auth n (z + 1) (i / 2) (slhHash seed (slhAdrs layer tree type kp (z + 1) (i / 2)) (if i % 2 = 0 then x ++ s else s ++ x))
/-- Root from an XMSS signature. -/
def slhXmssFrom (p : SlhP) (seed : Bytes) (layer tree idx : Nat) (sig m : Bytes) : Bytes :=
  slhClimb seed layer tree 2 0 (sig.drop (32 * 67)) p.hp 0 idx (slhWotsFrom seed layer tree idx sig m)
/-- Hypertree signature from a layer up, for `n` layers. -/
def slhHtSign (p : SlhP) (sk seed : Bytes) : Nat → Nat → Nat → Nat → Bytes → Bytes
  | 0, _, _, _, _ => []
  | n + 1, layer, tree, leaf, m =>
    let s := slhXmssSign p sk seed layer tree leaf m
    s ++ slhHtSign p sk seed n (layer + 1) (tree / 2 ^ p.hp) (tree % 2 ^ p.hp) (slhXmssFrom p seed layer tree leaf s m)
/-- Root that a hypertree signature leads to. -/
def slhHtFrom (p : SlhP) (seed sig : Bytes) : Nat → Nat → Nat → Nat → Bytes → Bytes
  | 0, _, _, _, m => m
  | n + 1, layer, tree, leaf, m =>
    let w := 32 * (67 + p.hp)
    slhHtFrom p seed sig n (layer + 1) (tree / 2 ^ p.hp) (tree % 2 ^ p.hp) (slhXmssFrom p seed layer tree leaf (sub sig (w * layer) w) m)

/-! ## FORS -/

/-- Secret value i of the FORS trees. -/
def slhForsSk (sk seed : Bytes) (tree kp i : Nat) : Bytes := slhHash seed (slhAdrs 0 tree 6 kp 0 i) sk
/-- Node i at height z of the FORS trees. -/
def slhForsNode (sk seed : Bytes) (tree kp : Nat) : Nat → Nat → Bytes
  | 0, i => slhHash seed (slhAdrs 0 tree 3 kp 0 i) (slhForsSk sk seed tree kp i)
  | z + 1, i => slhHash seed (slhAdrs 0 tree 3 kp (z + 1) i) (slhForsNode sk seed tree kp z (2 * i) ++ slhForsNode sk seed tree kp z (2 * i + 1))
/-- FORS signature of a digest. -/
def slhForsSign (p : SlhP) (sk seed : Bytes) (tree kp : Nat) (md : Bytes) : Bytes :=
  (slhBase md p.a p.k).zipIdx.flatMap fun e =>
    slhForsSk sk seed tree kp (e.2 * 2 ^ p.a + e.1) ++
    (List.range p.a).flatMap fun j => slhForsNode sk seed tree kp j (e.2 * 2 ^ (p.a - j) + (e.1 / 2 ^ j).xor 1)
/-- FORS public key from a signature. -/
def slhForsFrom (p : SlhP) (seed sig : Bytes) (tree kp : Nat) (md : Bytes) : Bytes :=
  let w := 32 * (p.a + 1)
  let roots := (slhBase md p.a p.k).zipIdx.map fun e =>
    let s := sub sig (w * e.2) w
    let i := e.2 * 2 ^ p.a + e.1
    slhClimb seed 0 tree 3 kp (s.drop 32) p.a 0 i (slhHash seed (slhAdrs 0 tree 3 kp 0 i) (slhAt s 0))
  slhHash seed (slhAdrs 0 tree 4 kp 0 0) roots.flatten

/-! ## Signing and verifying -/

/-- FORS digest, tree and leaf of a message digest. -/
def slhSplit (p : SlhP) (g : Bytes) : Bytes × Nat × Nat :=
  let n0 := ceilDiv (p.k * p.a) 8
  let n1 := ceilDiv (p.h - p.hp) 8
  (sub g 0 n0, beNat (sub g n0 n1) % 2 ^ (p.h - p.hp), beNat (sub g (n0 + n1) (ceilDiv p.hp 8)) % 2 ^ p.hp)
/-- The message with its context string, in pure mode. -/
def slhMsg (ctx m : Bytes) : Bytes := [0, BitVec.ofNat 8 ctx.length] ++ ctx ++ m
/-- Root of the top tree: the second half of the public key. -/
def slhRoot (p : SlhP) (sk seed : Bytes) : Bytes := slhNode sk seed (p.d - 1) 0 p.hp 0
/-- Hedged signature with randomizer `rnd`. -/
def slhSign (p : SlhP) (skSeed skPrf pkSeed root rnd ctx m : Bytes) : Bytes :=
  let x := slhMsg ctx m
  let r := shake (skPrf ++ rnd ++ x)
  let t := slhSplit p (shake256 p.m (r ++ pkSeed ++ root ++ x))
  let f := slhForsSign p skSeed pkSeed t.2.1 t.2.2 t.1
  r ++ f ++ slhHtSign p skSeed pkSeed p.d 0 t.2.1 t.2.2 (slhForsFrom p pkSeed f t.2.1 t.2.2 t.1)
/-- A signature verifies under a 64-byte public key. -/
def slhVerify (p : SlhP) (pk ctx m sig : Bytes) : Bool :=
  let seed := sub pk 0 32
  let root := sub pk 32 32
  let r := sub sig 0 32
  let t := slhSplit p (shake256 p.m (r ++ seed ++ root ++ slhMsg ctx m))
  let f := sub sig 32 (32 * p.k * (1 + p.a))
  let pkf := slhForsFrom p seed f t.2.1 t.2.2 t.1
  sig.length = slhSigLen p && slhHtFrom p seed (sig.drop (32 * (1 + p.k * (1 + p.a)))) p.d 0 t.2.1 t.2.2 pkf = root

/-! ## Images (R520, R521) -/

/-- Bytes of an image behind its body: key and signature. -/
def imgTail : Nat := 64 + slhSigLen slhS
/-- Body length of an image. -/
def imgBody (b : Bytes) : Nat := subNat b 0x0C 4
/-- The header and the lengths meet R520. -/
def imgFormat (type : Nat) (b : Bytes) : Bool :=
  sub b 0 4 = ascii "GFWI" && subNat b 4 1 = type && decide (subNat b 5 1 ≤ 3) && subNat b 6 2 = 0 && decide (subNat b 8 4 ≤ 64) && imgBody b % 64 = 0 &&
  decide (imgBody b + 30112 ≤ (if type = 1 then 8 else 16) * 2 ^ 20) && (sub b 0x18 232).all (· = 0) && b.length = 256 + imgBody b + imgTail
/-- Signing public key of an image. -/
def imgKey (b : Bytes) : Bytes := sub b (256 + imgBody b) 64
/-- Check an image of a type (R521): reason code 0 where it is valid. -/
def imgCheck (s : State) (type : Nat) (b : Bytes) : Nat :=
  let k := subNat b 5 1
  let n := 256 + imgBody b + 64
  if !imgFormat type b then 1
  else if s.sec.keyd[k]? ≠ some (shake (imgKey b)) ∨ s.sec.revoked.getLsbD k then 2
  else if subNat b 8 4 < (if type = 1 then s.sec.fwMin else s.sec.rtMin).toNat then 3
  else if !slhVerify slhS (imgKey b) (ascii "SALAEL-FW") (b.take n) (b.drop n) then 4
  else 0
/-- Image of a bank: type 1 firmware, 2 runtime. -/
def bankImage (s : State) (bank : Bool) (type : Nat) : Bytes := (kvGet s.sec.images (2 * b2n bank + (type - 1))).getD []

end Sys2Proof.Machine
end

