-- ==== Sys2Proof/Machine/Power.lean ====
section
/-! DEFINITION. Reset sources, bring-up, fuses and the boot chain (R501-R509, R522-R524), power states and wake (R513-R518), the operating point, thermal trip and reference clock (R534-R536, R548), and the I3C writes (R554). -/

namespace Sys2Proof.Machine

/-! ## What a reset leaves (R503, R506) -/

/-- GOs latched during a reset that fails complete with HOST_NOT_ENABLED; none is granted any more (R509). -/
def hostBar (s : State) : State :=
  let s1 : State := { s with host := { s.host with accepted := false, latchedGo := [] } }
  s.host.latchedGo.foldl (fun s k => slotSet s k { slotGet s k with state := 2, status := stHostNotEnabled, jsn := 0 }) s1
/-- Bring-up stops at a step (R509). -/
def bringUpFail (s : State) (step : Nat) (st : Status) : State :=
  hostBar { s with pwr := { s.pwr with failed := true, stage := BitVec.ofNat 4 step, status := st } }
/-- Every accepted command is ABORTED in the journal and ends in its slot with COMMAND_ABORTED (R434, R448). -/
def slotsAbort (s : State) : State :=
  let s1 := s.host.lateJournal.foldl (fun s e => jrnPut s e.1 e.2) s
  let s2 := s.host.slots.foldl (fun s e => slotFinish s e.1 stCommandAborted 0 0 3) s1
  if s2.flt.busy && s2.flt.jsn ≠ 0 then jrnDone s2 s2.flt.jsn 3 stCommandAborted 0 else s2
/-- A queue pair after a warm reset (R322). -/
def qpWarm (q : Qp) : Qp :=
  let lost := fun (st : QpState) => { qpDrop q st with sq := [], resident := false, holdSince := none, links := none }
  match q.state with
  | .connecting | .ready | .stalled => lost .error
  | .draining => {}
  | .error => lost .error
  | _ => { q with resident := false, holdSince := none, heldPkts := [], heldRoce := [] }
/-- A memory region after a warm reset: a deregistration that was draining has nothing left to wait for. -/
def regionWarm (now : Word) (r : Region) : Region := if r.draining then { r with registered := false, draining := false, dereg := some now } else r
/-- A port at reset (R387). -/
def portReset (x : Port) : Port :=
  { x with state := 0, refused := false, degraded := false, pausing := 0, paused := [], txq := [], lastSym := 0, lastUnc := 0 }
/-- A Cullet pool after a warm reset (R381). -/
def poolWarm (p : Pool) : Pool :=
  { p with en := false, ready := false, refused := false, level := 0, freed := [], fresh := 0, dead := 0, waiters := [] }
/-- A unit control block after a warm reset. -/
def ucbWarm (x : Ucb) : Ucb := { timeout := x.timeout, rate := x.rate }
/-- The power registers after a reset is asserted. -/
def pwrReset (p : Power) (cold : Bool) (source : BitVec 2) : Power :=
  let base : Power := {
    source := source, warm := !cold
    warmCount := if cold then 0 else if p.warmCount = 0xFFFF then 0xFFFF else p.warmCount + 1
    pwrGood := p.pwrGood && source ≠ 0, coreVrPg := p.coreVrPg && !cold, refclk := p.refclk }
  if cold then base
  else { base with
    ret := p.ret, autoNand := p.autoNand, autoEth := p.autoEth, wakeEn := p.wakeEn, wakeTimer := p.wakeTimer, brTimeout := p.brTimeout
    coreVrEn := true, fuseOk := p.fuseOk, nandSafe := p.nandSafe }
/-- The device after a warm reset is asserted: registers at their Warm columns, contexts, engines, streams, slots and jobs lost (R506). -/
def warmState (s0 : State) (source : BitVec 2) : State :=
  let s := slotsAbort s0
  { s with
    units := s.units.map fun e => (e.1, ucbWarm e.2), groups := s.groups.map fun e => (e.1, { e.2 with st := .ready, tdc := 0, next := 0, firstFail := 0 })
    tiles := [], ops := [], engines := [], engHold := [], engQuiesce := [], dps := [], fronts := [], adds := [], ptpSlew := 0, ptpJump := none
    pace := { s.pace with lock := false, tick := 0, running := false, t0 := 0, period := 0, stalled := false }
    mem := { s.mem with fillDone := false }, lehr := {}
    flt := { s.flt with busy := false, status := 0, result := 0, jsn := 0, block := none, lsState := 0, lsJob := 0, lsQpn := 0, lsSlot := 0, lsTile := 0, lsOrd := 0
                        lsKind := false, lsSegment := 0, lsBatch := 0, segs := [], own := [], peer := [], lsAgreed := false }
    pwr := pwrReset s.pwr false source, glob := { s.glob with tripped := false, faultAssert := false, limit := 0, capUnmet := false }
    xp := { s.xp with busy := false, status := 0, result := 0, cur := 0, curArg := 0 }
    qps := s.qps.map fun e => (e.1, qpWarm e.2), regions := s.regions.map fun e => (e.1, regionWarm s.now e.2)
    cul := { s.cul with pools := s.cul.pools.map fun e => (e.1, poolWarm e.2) }
    host := { s.host with
      mirrorOk := false, crings := s.host.crings.map fun e => (e.1, { e.2 with full := false })
      lateJournal := [], commits := [], test := none, remap := none }
    ports := s.ports.map fun e => (e.1, portReset e.2)
    mgmt := { s.mgmt with txPort := 0, txLen := 0, busy := false, cur := (0, 0, 0), txTs := 0 }
    media := { s.media with state := 1 }
    sec := { s.sec with busy := false, reason := 0, result := 0, booted := s.sec.booted, meas := [], gaffer := false, runtime := false
                        spdm := { signs := s.sec.spdm.signs, replies := s.sec.spdm.replies } }
    brl := s.brl.map fun e => (e.1, { gen := e.2.gen }), slots := s.slots.map fun e => (e.1, { gen := e.2.gen })
    streams := [], recordings := [], jobs := [], starting := [], sinks := [], evq := [] }
/-- The device after a cold reset is asserted: what non-volatile memory, the flash, the Gaffer's records and the outside world hold stays (R506, R20, R478, R448, R449). -/
def coldState (s : State) (source : BitVec 2) : State :=
  { ({} : State) with
    pending := s.pending, freeCtr := s.freeCtr, nextSw := s.nextSw, nextOp := s.nextOp, nextDesc := s.nextDesc
    units := s.units.map fun e => (e.1, { rate := e.2.rate }), silicon := s.silicon, unbacked := s.unbacked, remaps := s.remaps
    slotStates := s.slotStates.filter fun e => e.2 = .fieldRetired
    arrayErr := s.arrayErr, hbm := [], ts := [], hostMem := s.hostMem, out := s.out
    flt := { suspect := s.flt.suspect, hours := s.flt.hours }
    pwr := pwrReset s.pwr true source
    glob := { powerW := s.glob.powerW, tjMax := s.glob.tjMax, dieTemp := s.glob.dieTemp }
    host := { mirror := s.host.mirror, ceiling := s.host.ceiling, ceilLog := s.host.ceilLog, perst := s.host.perst, testLog := s.host.testLog }
    media := { ({} : Media) with
      formatted := s.media.formatted, nand := s.media.nand, seq := s.media.seq, good := s.media.good, userLbas := s.media.userLbas, metaLbas := s.media.metaLbas
      objUnits := s.media.objUnits, spareInit := s.media.spareInit, spareLeft := s.media.spareLeft, spareMin := s.media.spareMin, mapUnits := s.media.mapUnits
      mapStrands := s.media.mapStrands, table := s.media.table, log := s.media.log, ckpt := s.media.ckpt, prevCkpt := s.media.prevCkpt, anchorSeq := s.media.anchorSeq
      formatId := s.media.formatId, bad := s.media.bad }
    sec := { active := s.sec.active, fwMin := s.sec.fwMin, rtMin := s.sec.rtMin, revoked := s.sec.revoked, images := s.sec.images, chain := s.sec.chain
             spdm := { signs := s.sec.spdm.signs, replies := s.sec.spdm.replies } } }
/-- A reset or its bring-up is in progress (R503). -/
def resetting (s : State) : Bool := s.pwr.asserted || decide (s.pwr.stage.toNat < 8) || s.pwr.failed
/-- Assert a reset (R503): cold when it is, or when one in progress is. -/
def resetAssert (s : State) (cold : Bool) (source : BitVec 2) : State :=
  if cold || (resetting s && !s.pwr.warm) then coldState s source else warmState s source
/-- POWER_ON_RESET (R501): `cause` 0 PWR_GOOD low, 1 a supply detector. -/
def execPowerOnReset (cause : BitVec 2) (s : State) : Out_ := .next (if cause.toNat < 2 then resetAssert s true cause else s)
/-- RESET_IN_N_PULSE (R501): an accepted pulse; `kind` is RESET_KIND at the falling edge, high for warm. -/
def execResetInNPulse (kind : Bool) (s : State) : Out_ := .next (resetAssert s (!kind) 2)

/-! ## Bring-up (R504, R507-R509) -/

/-- Bring-up stands after step `n`. -/
def stageIs (s : State) (n : Nat) : Bool := !s.pwr.asserted && !s.pwr.failed && !s.pwr.fuseFail && s.pwr.stage.toNat = n
/-- The reset's source is released; every enabled port trains again (R387). -/
def execBringUp (s : State) : Out_ :=
  .next (if s.pwr.asserted then
    { s with pwr := { s.pwr with asserted := false, pwrGood := true, stage := 1 }
             ports := s.ports.map fun e => (e.1, if e.2.en then { e.2 with state := 1, reason := 7 } else e.2) } else s)
/-- CLK_READY: the pace tick starts from 0 (R506). -/
def execClkReady (s : State) : Out_ :=
  .next (if stageIs s 1 ∧ s.pwr.refclk then
    { s with pwr := { s.pwr with stage := 2, clkReady := true }, pace := { s.pace with tick := 0, running := true } } else s)
/-- The factory map gives each cluster 16 different slots and retires at most one (R18, R19). -/
def fuseMapOk (f : Fuses) : Bool :=
  let slot := fun L => (kvGet f.map L).getD (L % 16)
  (List.range 48).all fun n =>
    let l := (rangeFrom (16 * n) 16).map slot
    l.all (fun p => decide (p < 18) && !f.bad.contains (18 * n + p)) && l.eraseDups.length = 16 && decide (((List.range 18).filter fun p => f.bad.contains (18 * n + p)).length ≤ 1)
/-- A load passes: every block's CRC matches, and the map is one that a factory blows. -/
def fusesGood (f : Fuses) : Bool := (List.range 5).all (fun i => f.good.contains i) && fuseMapOk f
/-- States of the slots under a factory map and the field retirements on record. -/
def fuseSlots (f : Fuses) (field : List (Nat × SlotState)) : List (Nat × SlotState) :=
  ((List.range 864).filterMap fun i =>
    let mapped := (rangeFrom (16 * (i / 18)) 16).any fun L => (kvGet f.map L).getD (L % 16) = i % 18
    let st : SlotState := if field.any fun e => e.1 = i then .fieldRetired else if f.bad.contains i then .factoryRetired else if mapped then .mapped else .fieldSpare
    if st = (if i % 18 < 16 then .mapped else .fieldSpare) then none else some (i, st))
/-- FUSE_LOAD (R504): blown bits only grow, so counters and revocations never fall. -/
def execFuseLoad (f : Fuses) (s : State) : Out_ :=
  if !stageIs s 2 || s.pwr.warm then .next s
  else if !fusesGood f then
    let n := s.pwr.fuseTries + 1
    .next { s with pwr := { s.pwr with fuseTries := n, fuseFail := n = 3 } }
  else
    .next { s with
      pwr := { s.pwr with stage := 3, fuseOk := true, fuseTries := 0, coreVrEn := true }
      glob := { s.glob with serial := f.serial, stepping := f.stepping, macBase := f.mac, speedBin := f.speedBin, vcore := 750 }
      mapTile := f.map.filter fun e => decide (e.1 < 768), slotStates := fuseSlots f s.slotStates
      sec := { s.sec with
        keyd := f.keyd, fuses := f.blocks, revoked := s.sec.revoked ||| f.revoked
        fwMin := BitVec.ofNat 8 (max s.sec.fwMin.toNat (min 64 f.fwMin.toNat)), rtMin := BitVec.ofNat 8 (max s.sec.rtMin.toNat (min 64 f.rtMin.toNat)) } }
/-- CORE_VR_PG: the level of the pin; its rise ends step 4. -/
def execCoreVrPg (v : Bool) (s : State) : Out_ :=
  let s1 : State := { s with pwr := { s.pwr with coreVrPg := v } }
  .next (if v ∧ stageIs s 3 then { s1 with pwr := { s1.pwr with stage := 4 } } else s1)
/-- The Gaffer firmware of a bank runs (R522). -/
def gafferRun (s : State) (bank : Bool) (fallback : Bool) (reason : Nat) : State :=
  let b := bankImage s bank 1
  let rom := (List.range 32).map Config.bootRomDigest
  { s with
    pwr := { s.pwr with stage := 5 }
    sec := { s.sec with
      booted := bank, fallback := fallback, bootReason := BitVec.ofNat 8 reason, meas := [rom, shake b, zeros 32, shake (s.sec.fuses.flatten)], gaffer := true
      fwSvn := BitVec.ofNat 32 (subNat b 8 4), fwKey := BitVec.ofNat 8 (subNat b 5 1), fwVersion := BitVec.ofNat 64 (subNat b 0x10 8) } }
/-- GAFFER_BOOT: step 5. After a warm reset it follows step 2. -/
def execGafferBoot (s : State) : Out_ :=
  if !(if s.pwr.warm then stageIs s 2 else stageIs s 4) then .next s
  else
    let a := s.sec.active
    let r := imgCheck s 1 (bankImage s a 1)
    if r = 0 then .next (gafferRun s a false 0)
    else
      let r2 := imgCheck s 1 (bankImage s (!a) 1)
      if r2 = 0 then .next (gafferRun s (!a) true r)
      else .next (bringUpFail { s with sec := { s.sec with fallback := true, bootReason := BitVec.ofNat 8 r2 } } 5 0)
/-- Lock the interleave table (R455). -/
def ilvLock (s : State) : State :=
  let ok := s.mem.ilv.length = 24 && (List.range 24).all fun v => s.mem.ilv.any fun x => x.toNat = v
  if ok then { s with mem := { s.mem with locked := true } }
  else deviceError { s with mem := { s.mem with ilv := ({} : MemRegs).ilv, locked := true } } stInterleave 0 []
/-- Fill the stores of every mapped and field spare slot; retired slots are not written (R463). -/
def storesFill (s : State) : State :=
  let keep := fun (i : Nat) => slotStateOf s i = .factoryRetired || slotStateOf s i = .fieldRetired
  { s with ts := s.ts.filter fun c => keep (c.1 / 0x400000), tsErr := s.tsErr.filter fun e => keep (e.1 * 8 / 0x400000) }
/-- Apply the recorded field remaps to the fuse map (R20). -/
def remapsApply (s : State) : State :=
  s.remaps.foldl (fun s e => { s with mapTile := kvSet s.mapTile e.1 e.2, slotStates := kvSet s.slotStates (18 * (e.1 / 16) + e.2) .mapped }) s
/-- Release the pad groups whose AUTO bit is 1 (R505, R516). -/
def padsAuto (s : State) : State :=
  let p := s.pwr
  { s with pwr := { p with holdNand := p.holdNand && !p.autoNand, nandSafe := p.nandSafe && !p.autoNand, holdEth := p.holdEth && !p.autoEth } }
/-- FILL_DONE: steps 6 and 7. `ok` are the stacks that trained, at a cold reset. -/
def execFillDone (ok : BitVec 24) (s : State) : Out_ :=
  if !stageIs s 5 then .next s
  else if !s.pwr.warm && ok ≠ BitVec.allOnes 24 then .next (bringUpFail { s with mem := { s.mem with stackOk := ok } } 6 stHbmTraining)
  else
    let s1 := if s.pwr.warm then s else ilvLock { remapsApply s with mem := { s.mem with stackOk := ok }, hbm := [], hbmErr := [] }
    let s2 := storesFill s1
    let s3 := padsAuto { s2 with mem := { s2.mem with fillDone := true }, pwr := { s2.pwr with stage := 7 } }
    .next (latchedTake s3)
/-- The first context of the runtime (R84): runtime level, at ENTRY of its image. -/
def runtimeCtx (b : Bytes) (l : Launch) : Ctx :=
  let body := sub b 256 (imgBody b)
  { pc := l.va + BitVec.ofNat 64 (subNat body 0x10 8), job := 0xFFFF, ttb := l.ttb, pkr0 := l.pkr0, pkr1 := l.pkr1, tsBase := l.tsBase, tsSize := l.tsSize
    xvec := l.xvec, priv := 1, profile := BitVec.ofNat 64 (subNat body 8 8) }
/-- RUNTIME_LAUNCH: step 8. -/
def execRuntimeLaunch (l : Launch) (s : State) : Out_ :=
  if !stageIs s 7 then .next s
  else
    let b := bankImage s s.sec.booted 2
    let r := imgCheck s 2 b
    if r ≠ 0 then .next (bringUpFail { s with sec := { s.sec with bootReason := BitVec.ofNat 8 r } } 8 0)
    else if !(l.area.toNat % 0x20000 = 0 && inHbm s l.area.toNat 0x20000) then .next s
    else
      let s1 : State := { s with
        pwr := { s.pwr with stage := 8 }
        sec := { s.sec with
          meas := s.sec.meas.set 2 (shake b), runtime := true, rtSvn := BitVec.ofNat 32 (subNat b 8 4), rtKey := BitVec.ofNat 8 (subNat b 5 1)
          rtVersion := BitVec.ofNat 64 (subNat b 0x10 8) } }
      let s2 := unitsMove s1 0 (fun st => st = .resetting) fun v => if 64 ≤ v ∧ !backed s (v - 64) then .failed else .ready
      let s3 := (List.range 864).foldl (fun s i => if slotStateOf s i = .fieldSpare then unitSet s (slotUcb i) { unitGet s (slotUcb i) with st := .ready } else s) s2
      match (List.range 768).find? fun L => (unitGet s3 (tileUcb L)).st = .ready with
      | none => .next s3
      | some L =>
        let c := runtimeCtx b l
        let a := l.area.toNat
        .next (launchAt (areaWrite s3 a (a + 65536) (ctxImage s3 L c)).2 L a (a + 65536) c)
/-- BRING_UP_FAILED: the step in progress fails with a status. -/
def execBringUpFailed (st : Status) (s : State) : Out_ :=
  if s.pwr.asserted || s.pwr.failed || s.pwr.fuseFail || decide (8 ≤ s.pwr.stage.toNat) then .next s
  else .next (bringUpFail s (if s.pwr.warm && s.pwr.stage = 2 then 5 else s.pwr.stage.toNat + 1) st)

/-! ## Power states (R445, R513-R518) -/

/-- Device physical address at which a PS3 entry keeps the store of tile L (log 43). -/
def retAddr (s : State) (L : Nat) : Nat := s.pwr.ret.toNat * 2 ^ 30 + L * 0x400000
/-- Save the contexts of a tile for PS3: SUCCESS or the failure. -/
def ps3SaveTile (acc : Status × State) (L : Nat) : Status × State :=
  if acc.1 ≠ stOk then acc
  else
    let c := (tileGet acc.2 L).hws.foldl (fun (a : Status × State) e =>
      if a.1 ≠ stOk then a
      else
        let r := areaWrite a.2 e.2.areaLo e.2.areaHi (ctxImage a.2 L e.2)
        (r.1, r.2)) acc
    if c.1 ≠ stOk ∨ !backed c.2 L then c
    else
      let m := tsRead c.2 (slotIdx c.2 L) 0 0x300000
      if m.1 ≠ stOk then (m.1, m.2.2) else physWrite m.2.2 (retAddr m.2.2 L) 0x300000 m.2.1
/-- The compute dies lose their supply: contexts and stores are gone from them. -/
def ps3Drop (s : State) : State :=
  { s with
    tiles := s.tiles.map fun e => (e.1, { e.2 with hws := [], frozen := e.2.frozen ++ e.2.hws.map fun h => (h.1, savedOf h.2) })
    ts := [], tsErr := [] }
/-- Nothing is in flight (R514 step 1). -/
def psQuiet (s : State) : Bool := unitDrained s 0 && s.lehr.busy = false
/-- The write buffer and the map log are durable and no target is busy (R514 step 2). -/
def psDurable (s : State) : Bool × State :=
  let m := s.media
  if s.pwr.holdNand then (m.wbuf.isEmpty && m.progs.isEmpty && m.erases.isEmpty && m.logOpen.isEmpty, s)
  else
    let d := durable s fun _ => true
    (d.1 && d.2.media.progs.isEmpty && d.2.media.erases.isEmpty, d.2)
/-- Pads are latched and the ports go down without PORT_DOWN (R514 step 3, R517). -/
def psLatch (s : State) : State :=
  { s with
    pwr := { s.pwr with holdNand := true, holdEth := true, nandSafe := true }
    ports := s.ports.map fun e => (e.1, if e.2.en then { e.2 with state := 1, txq := [], paused := [], pausing := 0, degraded := false } else e.2) }
/-- The state is reached (R514 step 5): the command completes, and a wake that came meanwhile begins (R518). -/
def psReach (s : State) (k : Nat) : State :=
  let t := s.pwr.target
  let deep := decide (2 ≤ t.toNat)
  let s1 : State := { s with
    pwr := { s.pwr with
      state := t, entering := false, psSlot := none, entered := s.now, wakeStep := b2n s.pwr.wakePending, wakePending := false
      clkReady := s.pwr.clkReady && !deep, coreVrEn := s.pwr.coreVrEn && t ≠ 3, ps3Saved := t = 3 }
    pace := { s.pace with running := s.pace.running && !deep } }
  slotDone s1 k stOk 0 0
/-- Restore a tile's store and contexts after PS3 (R516 step 3); what does not read freezes the tile (R558 row 8). -/
def ps3RestoreTile (s : State) (L : Nat) : State :=
  if !backed s L then s
  else
    let m := physRead s (retAddr s L) 0x300000
    let s1 := (tsWrite m.2.2 (slotIdx m.2.2 L) 0 0x300000 (memSlice m.2.1 0 0x300000)).2
    if m.1 ≠ stOk then freezeTile s1 L m.1 0 0xFFFF (retAddr s L)
    else if (unitGet s1 (tileUcb L)).st = .ready ∨ (unitGet s1 (tileUcb L)).st = .running then (tileGet s1 L).frozen.foldl (fun s e => frozenLoad s L e) s1
    else s1
/-- The journal entries of GOs accepted meanwhile are written in JSN order; reserved opcodes complete (R446). -/
def lateWrite (s : State) : State :=
  let s1 := s.host.lateJournal.foldl (fun s e => jrnPut s e.1 e.2) s
  let s2 : State := { s1 with host := { s1.host with lateJournal := [] } }
  s2.host.slots.foldl (fun s e => if e.2.state = 1 ∧ !hostOp (areaNat e.2 0 1) then slotDone s e.1 stOpcodeInvalid 0 0 else s) s2
/-- The wake sequence of R516. -/
def wakeUp (s : State) : State :=
  let s1 : State := { s with
    pwr := { s.pwr with
      coreVrEn := true, clkReady := s.pwr.refclk, state := 0, target := 0, entering := false, wakePending := false, wakeStep := 0, psSlot := none, ps3Saved := false }
    pace := { s.pace with running := true } }
  let s2 := if s.pwr.ps3Saved then (List.range 768).foldl ps3RestoreTile s1 else s1
  padsAuto (lateWrite s2)
/-- One move of an entry under way (R514). -/
def psEnter (s : State) (k : Nat) : State :=
  if !psQuiet s then s
  else if s.pwr.target.toNat < 2 then psReach s k
  else
    let d := psDurable s
    if !d.1 then d.2
    else
      let s1 := psLatch d.2
      if s.pwr.target ≠ 3 then psReach s1 k
      else
        let r := (List.range 768).foldl ps3SaveTile (stOk, s1)
        if r.1 = stOk then psReach (ps3Drop r.2) k
        else wakeUp (slotDone r.2 k r.1 0 0)
/-- A command of lower JSN has not completed. -/
def lowerJsn (s : State) (k : Nat) : Bool :=
  s.host.slots.any fun e => e.1 ≠ k && e.2.state = 1 && decide (e.2.jsn.toNat < (slotGet s k).jsn.toNat)
/-- POWER_STATE: the checks and the start of an entry; the row again moves an entry on. -/
def execPowerState (slot : Fin 8192) (s : State) : Out_ :=
  let k := slot.val
  if s.pwr.entering && s.pwr.psSlot = some k then .next (psEnter s k)
  else
    .next (storageRun s k 0x08 (fun x => decide (areaNat x 8 8 ≤ 3)) fun s x =>
      let t := areaNat x 8 8
      if t = 0 then slotDone s k stOk (BitVec.ofNat 64 (x.phase - 16)) 0
      else if t = 3 ∧ s.pwr.ret = 0 then slotDone s k stFieldInvalid 0 0
      else if !(jobsAll s).isEmpty then slotDone s k stDeviceBusy 0 0
      else if lowerJsn s k then s
      else psEnter { s with pwr := { s.pwr with target := BitVec.ofNat 2 t, entering := true, psSlot := some k } } k)
/-- WAKE_EVENT (R515): bits 4:1 of `src` are the sources of WAKE_EN; a GO wakes through its own row, and a frame only in PS1. -/
def execWakeEvent (src : BitVec 5) (s : State) : Out_ :=
  let in1 := decide ((if s.pwr.entering then s.pwr.target else s.pwr.state).toNat = 1)
  .next ((rangeFrom 1 4).foldl (fun s b => if src.getLsbD b && s.pwr.wakeEn.getLsbD (b - 1) && (b ≠ 3 || in1) then wakeEvent s b else s) s)
/-- WAKE_TIMER: the timer expires. -/
def execWakeTimer (s : State) : Out_ := .next (if s.pwr.wakeTimer ≠ 0 && s.pwr.state ≠ 0 && s.pwr.wakeEn.getLsbD 3 then wakeEvent s 4 else s)
/-- WAKE: a wake that has begun runs through. -/
def execWake (s : State) : Out_ := .next (if s.pwr.state ≠ 0 ∧ s.pwr.wakeStep ≠ 0 then wakeUp s else s)
/-- A pad group may be released: the runtime runs. -/
def relOk (s : State) : Bool := inPs0 s && stageIs s 8
/-- REL_NAND. -/
def execRelNand (s : State) : Out_ := .next (if relOk s then { s with pwr := { s.pwr with holdNand := false, nandSafe := false } } else s)
/-- REL_ETH. -/
def execRelEth (s : State) : Out_ := .next (if relOk s then { s with pwr := { s.pwr with holdEth := false } } else s)

/-! ## Operating point (R533-R536) -/

/-- Set point and thermal target in force (R534). -/
def opPoint (s : State) : Nat × Int :=
  match s.jobs.find? fun j => j.paced with
  | some j => (j.vcore, j.thermal)
  | none => (s.glob.vset.toNat, s.glob.target.toNat)
/-- OP_POINT_EVAL: `tj` and `power` are what the sensors give. -/
def execOpPointEval (tj : BitVec 16) (power : BitVec 12) (s : State) : Out_ :=
  if s.pwr.asserted || !s.pwr.coreVrEn then .next s
  else
    let g := { s.glob with tjMax := tj, powerW := power }
    let cap := capInForce g
    let o := opPoint s
    let overCap := cap.any fun c => decide (c < power.toNat)
    let overT := decide (o.2 < tj.toInt)
    let v := min g.vcore.toNat o.1
    let down := (overCap || overT) && decide (550 < v)
    let up := (cap.all fun c => decide (100 * power.toNat ≤ 98 * c)) && decide (tj.toInt + 20 ≤ o.2) && decide (v < o.1) && !overT
    let v1 := if down then max 550 (v - 5) else if up && !overCap then min o.1 (v + 5) else v
    let s1 : State := { s with glob := { g with
      vcore := BitVec.ofNat 10 v1, limit := BitVec.ofNat 2 (b2n overCap + 2 * b2n overT), capUnmet := overCap && decide (v1 ≤ 550) } }
    .next (if down then addTrouble s1 0 34 else s1)
/-- A write of PWR_VSET (R533, R534): each field keeps its value where the written one is out of range. -/
def pwrVset (s : State) (v : Word) : State :=
  { s with glob := { s.glob with vset := rwIn s.glob.vset (fld v 0 10) 550 850, target := rwIn s.glob.target (fld v 16 11) 250 1050 } }
/-- PWR_VSET_WRITE. -/
def execPwrVsetWrite (v : Word) (s : State) : Out_ := .next (pwrVset s v)
/-- THERMAL_TRIP: TJ_MAX reaches TRIP. -/
def execThermalTrip (tj : BitVec 16) (s : State) : Out_ :=
  if s.pwr.asserted || s.glob.tripped || decide (tj.toInt < s.glob.trip.toInt) then .next s
  else .next (deviceError { s with glob := { s.glob with tjMax := tj, tripped := true } } stOk 0 [1])
/-- THERMAL_TRIP_RELEASE: TJ_MAX is 10 degC below TRIP. -/
def execThermalTripRelease (tj : BitVec 16) (s : State) : Out_ :=
  if s.pwr.asserted || !s.glob.tripped || decide (s.glob.trip.toInt - 100 < tj.toInt) then .next s
  else .next (deviceError { s with glob := { s.glob with tjMax := tj, tripped := false } } stOk 0 [2])
/-- REFCLK_LOSS. -/
def execRefclkLoss (s : State) : Out_ := .next { s with pwr := { s.pwr with refclk := false, clkReady := false } }
/-- REFCLK_RETURN: the Gaffer, where it runs, raises DEVICE_ERROR. -/
def execRefclkReturn (s : State) : Out_ :=
  if s.pwr.refclk then .next s
  else
    let s1 : State := { s with pwr := { s.pwr with refclk := true, clkReady := decide (2 ≤ s.pwr.stage.toNat) && decide (s.pwr.state.toNat < 2) && !s.pwr.asserted } }
    .next (if s.sec.gaffer then deviceError s1 stOk 0 [3] else s1)

/-! ## I3C (R554) -/

/-- I3C_CAP_WRITE: not served in FUSE_FAIL; above 3,000 ignored. -/
def execI3cCapWrite (v : BitVec 16) (s : State) : Out_ :=
  .next (if s.pwr.fuseFail ∨ 3000 < v.toNat then s else { s with glob := { s.glob with bmcCapW := v.setWidth 12 } })
/-- I3C_WAKE. -/
def execI3cWake (s : State) : Out_ := .next (if s.pwr.fuseFail || !s.pwr.wakeEn.getLsbD 0 then s else wakeEvent s 1)

end Sys2Proof.Machine
end

