-- ==== Sys2Proof/Machine/Security.lean ====
section
/-! DEFINITION. The security commands (R527, R528, R530), the attestation report, and SPDM with secure sessions and IDE_KM on the DOE mailbox (R425, R529). Layouts of SPDM messages are those of DSP0274 where it has one (PRESUMED, log 6); what it leaves to the responder is free. -/

namespace Sys2Proof.Machine

/-! ## Identity (R519, R525) -/

/-- SK.seed, SK.prf and PK.seed of the identity key. -/
def idKey : Bytes := shake256 96 ((List.range 32).map Config.deviceSecret ++ ascii "SALAEL-IDK-1")
/-- Sign with the identity key; signature number n is hedged with randomizer n. -/
def idSign (s : State) (m : Bytes) : Bytes × State :=
  let n := s.sec.spdm.signs
  let k := idKey
  let rnd := (List.range 32).map (Config.signRandom n)
  (slhSign slhF (sub k 0 32) (sub k 32 32) (sub k 64 32) (slhRoot slhF (sub k 0 32) (sub k 64 32)) rnd (ascii "SALAEL-ATT") m,
    { s with sec := { s.sec with spdm := { s.sec.spdm with signs := n + 1 } } })

/-! ## The attestation report (R528) -/

/-- What a report says of a job. -/
structure AttJob where
  ended : Bool
  strict : Bool
  paced : Bool
  fpB : Bytes
  fpT : Bytes
  seedCommit : Bytes
  consumers : Nat
  substitutions : Nat
  spare : Bytes
  status : Status
  delivered : Word
  hashes : List Bytes
  roots : List Bytes
  deriving DecidableEq, Repr
/-- A running job, or one of the last 64 that ended. -/
def attJob (s : State) (j : BitVec 16) : Option AttJob :=
  match jobOf s j with
  | some x => some {
      ended := false, strict := x.strict, paced := x.paced, fpB := x.fpB, fpT := x.fpT, seedCommit := seedCommit x, consumers := x.consumers
      substitutions := x.substitutions, spare := spareDigest s, status := 0, delivered := x.delivered, hashes := x.hashes, roots := x.inputs.map (·.root) }
  | none => (s.host.exits.find? fun e => e.num = j).map fun e => {
      ended := true, strict := e.strict, paced := e.paced, fpB := e.fpB, fpT := e.fpT, seedCommit := e.seedCommit, consumers := e.consumers
      substitutions := e.substitutions, spare := e.spare, status := e.status, delivered := e.delivered, hashes := e.hashes, roots := e.roots }
/-- LENGTH of a report, signature included. -/
def attLen (a : AttJob) : Nat := 0x180 + 32 * a.hashes.length + 32 * a.roots.length + slhSigLen slhF
/-- The signed part of a report. -/
def attBody (s : State) (j : BitVec 16) (nonce : Bytes) (a : AttJob) : Bytes :=
  ascii "SATT" ++ leBytes 2 1 ++ leBytes 2 j.toNat ++ leBytes 4 (attLen a) ++ [BitVec.ofNat 8 (b2n a.ended), if a.strict then 1 else 2, BitVec.ofNat 8 (b2n a.paced), 0] ++
  sub nonce 0 32 ++ sub s.glob.serial 0 16 ++ leBytes 8 s.now.toNat ++ leBytes 4 s.sec.fwSvn.toNat ++ leBytes 4 s.sec.rtSvn.toNat ++ sub s.sec.meas.flatten 0 128 ++
  sub a.fpB 0 32 ++ sub a.fpT 0 32 ++ sub a.seedCommit 0 32 ++ leBytes 4 a.consumers ++ leBytes 4 a.substitutions ++ sub a.spare 0 32 ++ leBytes 2 a.status.toNat ++ zeros 6 ++
  leBytes 8 a.delivered.toNat ++ leBytes 4 (a.hashes.length - 1) ++ leBytes 4 a.roots.length ++ zeros 16 ++
  a.hashes.flatMap (fun h => sub h 0 32) ++ a.roots.flatMap fun h => sub h 0 32
/-- The whole report. -/
def attReport (s : State) (j : BitVec 16) (nonce : Bytes) (a : AttJob) : Bytes × State :=
  let b := attBody s j nonce a
  let g := idSign s b
  (b ++ g.1, g.2)

/-! ## Security commands (R527, R530) -/

/-- Complete a security command. -/
def secDone (s : State) (reason : Nat) (result : Nat) : State :=
  { s with sec := { s.sec with busy := false, reason := BitVec.ofNat 8 reason, result := BitVec.ofNat 48 result } }
/-- Bank that is not BOOTED. -/
def bankOther (s : State) : Bool := !s.sec.booted
/-- Store an image in the other bank; a write cut short leaves that part without a valid header. -/
def secStage (s : State) (b : Bytes) (ok : Bool) : State :=
  let a := subNat b 8 8
  let n := subNat b 0x10 8
  if !inHbm s a n then secDone s 6 0
  else if 16 * 2 ^ 20 < n then secDone s 1 0
  else
    let r := physRead s a n
    if r.1 ≠ stOk then secDone r.2.2 6 0
    else
      let img := memBytes r.2.1 0 n
      let type := subNat img 4 1
      let c := if type = 1 ∨ type = 2 then imgCheck r.2.2 type img else 1
      if c ≠ 0 then secDone r.2.2 c 0
      else
        let k := 2 * b2n (bankOther s) + (type - 1)
        let s1 := r.2.2
        if ok then secDone { s1 with sec := { s1.sec with images := kvSet s1.sec.images k img } } 0 0
        else secDone { s1 with sec := { s1.sec with images := kvDel s1.sec.images k } } 5 0
/-- Select the other bank for the next reset. -/
def secActivate (s : State) (ok : Bool) : State :=
  let o := bankOther s
  if !ok then secDone s 5 0
  else if imgCheck s 1 (bankImage s o 1) ≠ 0 ∨ imgCheck s 2 (bankImage s o 2) ≠ 0 then secDone s 6 0
  else secDone { s with sec := { s.sec with active := o } } 0 0
/-- Blow the rollback counters up to the booted SVNs. -/
def secCommit (s : State) : State :=
  if s.sec.booted ≠ s.sec.active ∨ s.sec.fallback then secDone s 6 0
  else secDone { s with sec := { s.sec with
    fwMin := BitVec.ofNat 8 (max s.sec.fwMin.toNat s.sec.fwSvn.toNat), rtMin := BitVec.ofNat 8 (max s.sec.rtMin.toNat s.sec.rtSvn.toNat) } } 0 0
/-- Blow the revocation bit of a key slot. -/
def secRevoke (s : State) (b : Bytes) : State :=
  let k := subNat b 4 4
  if 3 < k ∨ s.sec.fwKey.toNat = k ∨ s.sec.rtKey.toNat = k then secDone s 6 0
  else secDone { s with sec := { s.sec with revoked := s.sec.revoked ||| (1#4 <<< k) } } 0 0
/-- Build, sign and store a report. -/
def secAttest (s : State) (b : Bytes) : State :=
  let j := BitVec.ofNat 16 (subNat b 2 2)
  match attJob s j with
  | none => secDone s 8 0
  | some a =>
    let n := attLen a
    if subNat b 0x10 8 < n then secDone s 7 n
    else if !inHbm s (subNat b 8 8) n then secDone s 6 0
    else
      let r := attReport s j (sub b 0x20 32) a
      let w := physPut r.2 (subNat b 8 8) r.1
      if w.1 = stOk then secDone w.2 0 n else secDone w.2 6 0
/-- A write of SEC_CMD with GO: the block at SEC_CMD_ADDR is read and its command runs, while the Gaffer firmware runs. `op` restricts it to one OP. -/
def secGo (s : State) (op : Option Nat) (ok : Bool) : State :=
  if s.sec.busy || !s.sec.gaffer || !stageIs s 8 then s
  else
    let a := s.sec.cmdAddr.toNat * 128
    let r := physRead s a 128
    let b := memBytes r.2.1 0 128
    let o := subNat b 0 1
    if !inHbm s a 128 ∨ r.1 ≠ stOk then (if op.isSome then s else secDone r.2.2 6 0)
    else if op.any fun x => x ≠ o then s
    else match o with
      | 1 => secStage r.2.2 b ok
      | 2 => secActivate r.2.2 ok
      | 3 => secCommit r.2.2
      | 4 => secAttest r.2.2 b
      | 5 => secRevoke r.2.2 b
      | _ => secDone r.2.2 6 0
/-- STAGE. -/
def execStage (ok : Bool) (s : State) : Out_ := .next (secGo s (some 1) ok)
/-- ACTIVATE. -/
def execActivate (ok : Bool) (s : State) : Out_ := .next (secGo s (some 2) ok)
/-- COMMIT_SVN. -/
def execCommitSvn (s : State) : Out_ := .next (secGo s (some 3) true)
/-- REVOKE_KEY. -/
def execRevokeKey (s : State) : Out_ := .next (secGo s (some 5) true)
/-- ATTEST. -/
def execAttest (s : State) : Out_ := .next (secGo s (some 4) true)

/-! ## SPDM (R529) -/

/-- Change the SPDM connection. -/
def spdmUpd (s : State) (f : Spdm → Spdm) : State := { s with sec := { s.sec with spdm := f s.sec.spdm } }
/-- `n` bytes of a reply that the responder is free to choose (log 6), from position `k`. -/
def replyFree (s : State) (k n : Nat) : Bytes := (List.range n).map fun i => Config.replyByte s.sec.spdm.replies (k + i)
/-- Send a reply. -/
def spdmReply (s : State) (b : Bytes) : State := send (spdmUpd s fun x => { x with replies := x.replies + 1 }) (.doe b)
/-- An ERROR reply. -/
def spdmError (s : State) (code : Byte) : State := spdmReply s [0x13, 0x7F, code, 0]
/-- Take a request with this code: the link is up, the Gaffer firmware runs, and the connection has come to `phase`. -/
def spdmTake (s : State) (m : Bytes) (code : Byte) (phase : Nat) (f : State → State) : State :=
  if !s.host.trained || !s.sec.gaffer || m.getD 1 0 ≠ code || decide (m.length < 4) then s
  else if s.sec.spdm.phase < phase then spdmError s 0x04
  else f s
/-- GET_VERSION: version 1.3; the connection starts anew. -/
def execGetVersion (m : Bytes) (s : State) : Out_ :=
  let r : Bytes := [0x10, 0x04, 0, 0, 0, 1, 0x00, 0x13]
  .next (spdmTake s m 0x84 0 fun s =>
    spdmReply (spdmUpd s fun x => { x with phase := 1, vca := m ++ r, mb := [], meas := [], kex := false, session := false }) r)
/-- GET_CAPABILITIES. -/
def execGetCapabilities (m : Bytes) (s : State) : Out_ :=
  .next (spdmTake s m 0xE1 1 fun s =>
    let r := [0x13, 0x61, 0, 0] ++ replyFree s 4 16
    spdmReply (spdmUpd s fun x => { x with phase := 2, vca := x.vca ++ m ++ r }) r)
/-- NEGOTIATE_ALGORITHMS: SLH-DSA-SHAKE-256f and SHAKE256 are all there is to select; DSP0274 1.3 gives them no code. -/
def execNegotiateAlgorithms (m : Bytes) (s : State) : Out_ :=
  .next (spdmTake s m 0xE3 2 fun s =>
    let r := [0x13, 0x63] ++ replyFree s 2 34
    spdmReply (spdmUpd s fun x => { x with phase := 3, vca := x.vca ++ m ++ r }) r)
/-- GET_DIGESTS: slot 0 alone. -/
def execGetDigests (m : Bytes) (s : State) : Out_ :=
  .next (spdmTake s m 0x81 3 fun s =>
    let r := [0x13, 0x01, 0, 1] ++ shake s.sec.chain
    spdmReply (spdmUpd s fun x => { x with mb := x.mb ++ m ++ r }) r)
/-- GET_CERTIFICATE: a portion of the chain of slot 0. -/
def execGetCertificate (m : Bytes) (s : State) : Out_ :=
  .next (spdmTake s m 0x82 3 fun s =>
    let off := subNat m 4 2
    if m.getD 2 0 ≠ 0 ∨ m.length < 8 ∨ s.sec.chain.length < off then spdmError s 0x01
    else
      let n := min (subNat m 6 2) (s.sec.chain.length - off)
      let r := [0x13, 0x02, 0, 0] ++ leBytes 2 n ++ leBytes 2 (min 0xFFFF (s.sec.chain.length - off - n)) ++ sub s.sec.chain off n
      spdmReply (spdmUpd s fun x => { x with mb := x.mb ++ m ++ r }) r)
/-- What an SPDM signature covers: the prefix of its context and the digest of the transcript. -/
def spdmSigned (ctx : String) (t : Bytes) : Bytes :=
  let p := ((List.range 4).flatMap fun _ => ascii "dmtf-spdm-v1.3.*") ++ zeros (36 - ctx.length) ++ ascii ctx
  p ++ shake t
/-- CHALLENGE: signed over the messages so far. -/
def execChallenge (m : Bytes) (s : State) : Out_ :=
  .next (spdmTake s m 0x83 3 fun s =>
    if m.getD 2 0 ≠ 0 ∨ m.length < 44 then spdmError s 0x01
    else
      let sum := if m.getD 3 0 = 0 then [] else shake s.sec.meas.flatten
      let r := [0x13, 0x03, 0, 1] ++ shake s.sec.chain ++ replyFree s 36 32 ++ sum ++ leBytes 2 0 ++ sub m 36 8
      let x := s.sec.spdm
      let g := idSign s (spdmSigned "responder-challenge_auth signing" (x.vca ++ x.mb ++ m ++ r))
      spdmReply (spdmUpd g.2 fun x => { x with mb := [] }) (r ++ g.1))
/-- A measurement block: its number, and a value of a type. -/
def measBlock (n : Nat) (type : Byte) (v : Bytes) : Bytes := [BitVec.ofNat 8 n, 1] ++ leBytes 2 (v.length + 3) ++ [type] ++ leBytes 2 v.length ++ v
/-- The blocks a request names (R529): 0 to 3 for M0 to M3, 0xFF for all of them, 0x80 + j for the report of job j; none where there is no such block. -/
def measBlocks (s : State) (k : Nat) (nonce : Bytes) : Option (List Bytes) × State :=
  let one := fun i => measBlock i (BitVec.ofNat 8 (min i 1)) (s.sec.meas.getD i (zeros 32))
  if k < 4 then (some [one k], s)
  else if k = 0xFF then (some ((List.range 4).map one), s)
  else if 0x80 ≤ k then
    match attJob s (BitVec.ofNat 16 (k - 0x80)) with
    | some a => let r := attReport s (BitVec.ofNat 16 (k - 0x80)) nonce a; (some [measBlock k 0x85 r.1], r.2)
    | none => (none, s)
  else (none, s)
/-- GET_MEASUREMENTS. -/
def execGetMeasurements (m : Bytes) (s : State) : Out_ :=
  .next (spdmTake s m 0xE0 3 fun s =>
    let sign := bitOf (m.getD 2 0).toNat 0
    let nonce := if sign then sub m 4 32 else zeros 32
    let b := measBlocks s (m.getD 3 0).toNat nonce
    match b.1 with
    | none => spdmError b.2 0x01
    | some bs =>
      let rec_ := bs.flatten
      let ctx := if sign then sub m 37 8 else sub m 4 8
      let r := [0x13, 0x60, 0, 0, BitVec.ofNat 8 bs.length] ++ leBytes 3 rec_.length ++ rec_ ++ replyFree b.2 8 32 ++ leBytes 2 0 ++ ctx
      let t := b.2.sec.spdm.meas ++ m ++ r
      if sign then
        let g := idSign b.2 (spdmSigned "responder-measurements signing" (b.2.sec.spdm.vca ++ t))
        spdmReply (spdmUpd g.2 fun x => { x with meas := [] }) (r ++ g.1)
      else spdmReply (spdmUpd b.2 fun x => { x with meas := t }) r)
/-- SECURE_SESSION: KEY_EXCHANGE, FINISH and END_SESSION. The keys stay in the Gaffer; the replies' fields are free. -/
def execSecureSession (m : Bytes) (s : State) : Out_ :=
  .next (match (m.getD 1 0).toNat with
    | 0xE4 => spdmTake s m 0xE4 3 fun s => spdmReply (spdmUpd s fun x => { x with kex := true }) ([0x13, 0x64] ++ replyFree s 2 38)
    | 0xE5 => spdmTake s m 0xE5 3 fun s =>
        if s.sec.spdm.kex then spdmReply (spdmUpd s fun x => { x with kex := false, session := true }) [0x13, 0x65, 0, 0] else spdmError s 0x04
    | 0xEC => spdmTake s m 0xEC 3 fun s =>
        if s.sec.spdm.session then spdmReply (spdmUpd s fun x => { x with session := false }) [0x13, 0x6C, 0, 0] else spdmError s 0x04
    | _ => s)
/-- IDE_KM: inside a secure session a request installs or changes link keys; the acknowledgement's fields are free. -/
def execIdeKm (m : Bytes) (s : State) : Out_ :=
  .next (if s.host.trained && s.sec.gaffer && s.sec.spdm.session then
    spdmReply (spdmUpd s fun x => { x with ide := x.ide ++ [m] }) (replyFree s 0 8) else s)

end Sys2Proof.Machine
end

