-- ==== Sys2Proof/Machine/RegWrite.lean ====
section
/-! DEFINITION. Writes of registers: access codes and ranges (R6, R559), by block (R531, R532), of unit control blocks (R33), and through BAR0 (R427). -/

namespace Sys2Proof.Machine

/-! ## The blocks -/

/-- Global block (R533). -/
def globWrite (s : State) (off : Nat) (v : Word) : State :=
  match off with
  | 0x010 => { s with glob := { s.glob with faultAssert := v.getLsbD 0 } }
  | 0x040 => { s with glob := { s.glob with capW := rwIn s.glob.capW (fld v 0 12) 0 3000 } }
  | 0x048 => pwrVset s v
  | 0x080 => { s with glob := { s.glob with evtSeen := w1c s.glob.evtSeen (fld v 1 11) 0 } }
  | _ => s
/-- Registers of completion ring r: base, control and tail; HEAD is read only. -/
def cringWrite (s : State) (r off : Nat) (v : Word) : State :=
  match off with
  | 0x00 => cringUpd s r fun c => { c with addr := fld v 6 58 }
  | 0x08 => cringCtrl s r v
  | 0x18 => cringUpd s r fun c => if c.head.toNat < v.toNat then c else { c with tail := v, sent := false }
  | _ => s
/-- Host interface block (15). -/
def hostWrite (s : State) (off : Nat) (v : Word) : State :=
  if off = 0x008 then hiDrv s v
  else if off = 0x028 then
    { s with host := { s.host with hdmSize := if s.host.hdmLocked then s.host.hdmSize else rwIn s.host.hdmSize (fld v 0 9) 0 476 } }
  else if 0x100 ≤ off ∧ off < 0x900 then cringWrite s ((off - 0x100) / 0x20) (off % 0x20) v
  else s
/-- Pace block (02). -/
def paceWrite (s : State) (off : Nat) (v : Word) : State :=
  let p := s.pace
  match off with
  | 0x000 => { s with pace := { p with mult := if p.lock then p.mult else rwIn p.mult (fld v 0 6) 8 24 } }
  | 0x028 => { s with pace := { p with ringBase := fld v 12 36 } }
  | 0x030 => slipRingEn { s with pace := { p with ringSize := rwIn p.ringSize (fld v 0 5) 8 20 } } (v.getLsbD 8)
  | 0x040 => { s with pace := { p with ringTail := if p.ringHead.toNat < v.toNat then p.ringTail else v } }
  | 0x050 => { s with pace := { p with stallLimit := fld v 0 32 } }
  | 0x058 => { s with pace := { p with tdcStrict := w1cB p.tdcStrict (v.getLsbD 1), collided := w1cB p.collided (v.getLsbD 2) } }
  | _ => s
/-- Transport block (11). -/
def xpWrite (s : State) (off : Nat) (v : Word) : State :=
  let x := s.xp
  match off with
  | 0x000 => { s with xp := { x with qpt := fld v 12 36 } }
  | 0x008 => { s with xp := { x with mrtLog2 := rwIn x.mrtLog2 (fld v 0 5) 10 24, mrt := fld v 12 36 } }
  | 0x010 => { s with xp := { x with ringt := fld v 12 36 } }
  | 0x018 => { s with xp := { x with cmdAddr := fld v 7 41 } }
  | 0x020 => if v.getLsbD 0 then xpGo s none else s
  | 0x028 => { s with xp := { x with mpl := rwIn x.mpl (fld v 0 16) 1 65535, respWait := fld v 16 16, idle := fld v 32 16, rtoMin := fld v 48 16 } }
  | 0x030 => { s with xp := { x with targetDelay := fld v 0 16, ai := fld v 16 16, beta := fld v 32 8, retryMax := rwIn x.retryMax (fld v 40 8) 1 255 } }
  | 0x038 => { s with xp := { x with dport := fld v 0 16, sportBase := rwIn x.sportBase (fld v 16 16) 0 65471, waitLimit := fld v 32 32 } }
  | _ => s
/-- Registers of Cullet pool n: a write of what EN holds is refused while it is 1 (R372). -/
def poolWrite (s : State) (n off : Nat) (v : Word) : State :=
  let p := poolGet s n
  let held := fun (x : Pool) => poolSet s n (if p.en then { p with refused := true } else x)
  match off with
  | 0x00 => held { p with addr := fld v 8 40 }
  | 0x08 => held { p with bufLog2 := rwIn p.bufLog2 (fld v 0 5) 8 26, loc := v.getLsbD 5, count := rwIn p.count (fld v 8 34) 1 (2 ^ 34 - 1), job := fld v 48 16 }
  | 0x10 => held { p with sbase := fld v 12 36 }
  | 0x18 => held { p with wm1 := fld v 0 16, wm2 := fld v 16 16, wm3 := fld v 32 16, hyst := fld v 48 16 }
  | 0x20 =>
    let s1 := poolSet s n { p with genSeed := rwIn p.genSeed (fld v 16 24) 1 (2 ^ 24 - 1), refused := w1cB p.refused (v.getLsbD 2) }
    if v.getLsbD 0 then poolEnable s1 n else poolDisable s1 n
  | _ => s
/-- Cullet block (12). -/
def culWrite (s : State) (off : Nat) (v : Word) : State :=
  if off < 0x1000 then poolWrite s (off / 0x40) (off % 0x40) v
  else match off with
    | 0x1000 => { s with cul := { s.cul with quotaBase := fld v 12 36 } }
    | 0x1008 => { s with cul := { s.cul with delay := fld v 0 32 } }
    | _ => s
/-- Port block (13). XON's range is below the XOFF that the same write leaves. -/
def portWrite (s : State) (off : Nat) (v : Word) : State :=
  let p := off / 0x100
  match off % 0x100 with
  | 0x00 => portCfg s p v
  | 0x08 => portUpd s p fun x => { x with refused := w1cB x.refused (v.getLsbD 2) }
  | 0x10 => if v.getLsbD 0 then portRetrain s p else s
  | 0x18 => portUpd s p fun x => { x with symThresh := fld v 0 32, uncThresh := fld v 32 16 }
  | 0x20 => portUpd s p fun x => { x with xoff := fld v 0 16, xon := if (fld v 16 16).toNat < (fld v 0 16).toNat then fld v 16 16 else x.xon, quanta := fld v 32 16 }
  | _ => s
/-- Media block (14). GC_HIGH's range is above the GC_LOW that the same write leaves. -/
def mediaWrite (s : State) (off : Nat) (v : Word) : State :=
  let m := s.media
  match off with
  | 0x028 => mediaFormat s v
  | 0x038 => { s with media := { m with wValid := fld v 0 16, wAge := fld v 16 16, wWear := fld v 32 16, ageShift := rwIn m.ageShift (fld v 48 5) 0 24 } }
  | 0x040 =>
    let low := rwIn m.gcLow (fld v 0 8) 3 255
    spareMinPut { s with media := { m with gcLow := low, gcHigh := rwIn m.gcHigh (fld v 8 8) (low.toNat + 1) 255, wlDelta := rwIn m.wlDelta (fld v 16 16) 1 65535 } } (fld v 32 32)
  | 0x048 => { s with media := { m with refreshBits := fld v 0 10, readLimit := fld v 16 32 } }
  | _ => s
/-- Memory block (16): the interleave table until it is locked, and the Lehr registers (R455, R467). -/
def memBlkWrite (s : State) (off : Nat) (v : Word) : State :=
  let m := s.mem
  let l := s.lehr
  let words := (List.range 12).map fun i => (fld v (5 * i) 5 : BitVec 5)
  match off with
  | 0x000 => if m.locked then s else { s with mem := { m with ilv := words ++ m.ilv.drop 12 } }
  | 0x008 => if m.locked then s else { s with mem := { m with ilv := m.ilv.take 12 ++ words } }
  | 0x1000 => { s with lehr := { l with start := fld v 6 42 } }
  | 0x1008 => { s with lehr := { l with len := fld v 0 42 } }
  | 0x1010 => lehrCtrl s v
  | _ => s
/-- Weights of causes 4j to 4j + 3 (FLT_HW); a reserved cause's stays 0. -/
def weightsWrite (s : State) (j : Nat) (v : Word) : State :=
  { s with flt := { s.flt with
      weights := (List.range 4).foldl (fun t m => if troubleCause (4 * j + m) then kvSet t (4 * j + m) (fld v (16 * m) 16) else t) s.flt.weights } }
/-- Fault block (R498). -/
def fltWrite (s : State) (off : Nat) (v : Word) : State :=
  let f := s.flt
  if off = 0x000 then { s with flt := { f with cmdAddr := fld v 7 41 } }
  else if off = 0x008 then (if v.getLsbD 0 then fltGo s else s)
  else if 0x040 ≤ off ∧ off < 0x0B0 then
    { s with flt := { f with suspect := w1c f.suspect ((v.setWidth 864) <<< (64 * ((off - 0x040) / 8))) 0 } }
  else if off = 0x100 then
    { s with flt := { f with
        decayShift := rwIn f.decayShift (fld v 0 5) 1 16, tickH := rwIn f.tickH (fld v 8 8) 1 255
        hyst := rwIn f.hyst (fld v 16 10) 0 1000, confH := rwIn f.confH (fld v 32 16) 1 65535 } }
  else if 0x140 ≤ off ∧ off < 0x1C0 then weightsWrite s ((off - 0x140) / 8) v
  else if off = 0x1C0 then { s with flt := { f with canaryLimit := fld v 0 16 } }
  else if off = 0x1C8 then { s with flt := { f with trcBase := fld v 12 36 } }
  else if off = 0x218 then { s with flt := { f with lsTimeout := rwIn f.lsTimeout (fld v 0 32) 1 (2 ^ 32 - 1) } }
  else s
/-- Power block (18). -/
def pwrWrite (s : State) (off : Nat) (v : Word) : State :=
  let p := s.pwr
  match off with
  | 0x010 => { s with pwr := { p with ret := fld v 30 18 } }
  | 0x018 =>
    let nand := v.getLsbD 8 && relOk s
    let eth := v.getLsbD 9 && relOk s
    { s with pwr := { p with
        autoNand := v.getLsbD 16, autoEth := v.getLsbD 17, holdNand := p.holdNand && !nand, nandSafe := p.nandSafe && !nand, holdEth := p.holdEth && !eth } }
  | 0x020 => { s with pwr := { p with wakeEn := fld v 1 4 } }
  | 0x028 => { s with pwr := { p with wakeSeen := w1c p.wakeSeen (fld v 0 5) 0 } }
  | 0x030 => { s with pwr := { p with wakeTimer := fld v 0 32 } }
  | 0x040 => blkReset s v
  | _ => s
/-- Security block (19): the command address and the command alone. -/
def secWrite (s : State) (off : Nat) (v : Word) : State :=
  match off with
  | 0x100 => { s with sec := { s.sec with cmdAddr := fld v 7 41 } }
  | 0x108 => if v.getLsbD 0 then secGo s none true else s
  | _ => s
/-- The trim is within 100 ppm (R396). -/
def ptpRateOk (r : BitVec 32) : Bool := decide (r.toInt.natAbs ≤ 109951163)
/-- Management block (R539). -/
def mgmtWrite (s : State) (off : Nat) (v : Word) : State :=
  let m := s.mgmt
  match off with
  | 0x000 => if ptpRateOk (fld v 0 32) then { s with ptpRate := fld v 0 32 } else s
  | 0x008 => ptpStep s v
  | 0x020 => { s with mgmt := { m with ringBase := fld v 14 34 } }
  | 0x028 => mgmtRingEn { s with mgmt := { m with ringSize := rwIn m.ringSize (fld v 0 4) 4 12 } } (v.getLsbD 8)
  | 0x038 => { s with mgmt := { m with tail := if m.head.toNat < v.toNat then m.tail else v } }
  | 0x040 => { s with mgmt := { m with txAddr := fld v 6 42 } }
  | 0x048 => mgmtTx s v
  | 0x058 => { s with mgmt := { m with neigh := fld v 17 31 } }
  | _ => s
/-- A write of a register of block `blk`; an offset that names none, and the engine counters, take none (R8, R531). -/
def regWrite (s : State) (blk off : Nat) (v : Word) : State :=
  if off % 8 ≠ 0 then s
  else match blk with
    | 0 => globWrite s off v
    | 1 => hostWrite s off v
    | 2 => paceWrite s off v
    | 3 => xpWrite s off v
    | 4 => culWrite s off v
    | 5 => portWrite s off v
    | 6 => mediaWrite s off v
    | 7 => memBlkWrite s off v
    | 8 => fltWrite s off v
    | 9 => pwrWrite s off v
    | 10 => secWrite s off v
    | 11 => mgmtWrite s off v
    | _ => s

/-! ## Unit control blocks and the bus -/

/-- A write of a UCB register (R33, R37). -/
def ucbWrite (s : State) (u off : Nat) (v : Word) : State :=
  let h := ucbHome s u
  let key := siliconKey s u
  match off with
  | 0x020 => ucbCmd s u (fld v 0 8).toNat (fld v 16 16)
  | 0x028 => if ucbKind s u = some 5 then s else unitSet s h { unitGet s h with collide := w1cB (unitGet s h).collide (v.getLsbD 1) }
  | 0x180 => if 2048 ≤ u then s else siliconSet s key { siliconGet s key with sat := w1c (siliconGet s key).sat v 0 }
  | 0x188 => if 2048 ≤ u then s else troubleClear s key v 0
  | _ => s
/-- A word that an access to registers, counters or UCBs writes at a device physical address; HBM, tile stores and holes take none here. -/
def busPut (s : State) (pa : Nat) (v : Word) : State :=
  match resolve s pa with
  | .reg blk off => regWrite s blk off v
  | .ucb u off => ucbWrite s u off v
  | _ => s

/-! ## BAR0 (R427, R431, R532) -/

/-- A host write of 4 or 8 bytes at offset `o` of BAR0 acts on a register: an 8-byte value with the other half as it reads, and no W1C or W1S bit in that half. -/
def halfMerge (old v : Word) (four : Bool) (high : Bool) (ones : Word) : Word :=
  let mask : Word := if high then 0xFFFFFFFF00000000 else 0xFFFFFFFF
  if four then ((old &&& ~~~ones) &&& ~~~mask) ||| ((if high then v <<< 32 else v) &&& mask) else v
/-- W1C and W1S bits of the host interface block's registers: HI_CRING_CTRL.FULL. -/
def hostOnes (off : Nat) : Word := if 0x100 ≤ off ∧ off % 0x20 = 8 then 0x4000 else 0
/-- A host write to the command area or a register of slot k. -/
def slotWrite (s : State) (k off n : Nat) (v : Word) : State :=
  let x := slotGet s k
  if off < 0x40 then
    if x.state = 1 then slotSet s k { x with wrIgnored := true }
    else slotSet s k { x with area := memWrite x.area off (leBytes n v.toNat) }
  else if off = 0x40 then slotSet s k { x with wrIgnored := w1cB x.wrIgnored (v.getLsbD 2), goIgnored := w1cB x.goIgnored (v.getLsbD 3) }
  else if off = 0x78 ∧ v.getLsbD 0 then slotGo s k
  else s
/-- A host write to the MSI-X table: an entry that is unmasked sends the message it owes (log 32). -/
def msixWrite (s : State) (o n : Nat) (v : Word) : State :=
  let i := o / 8
  let m : Word := if i % 2 = 1 then 0x100000000 else 0
  let w := halfMerge (tabGet 0 s.host.msixTab i ^^^ m) v (n = 4) (o % 8 = 4) 0 ^^^ m
  let e := i / 2
  let s1 : State := { s with host := { s.host with msixTab := tabSet 0 s.host.msixTab i w } }
  if s1.host.pba.getLsbD e && !bitOf (msixDword s1 (4 * e + 3)) 0 then msixSend { s1 with host := { s1.host with pba := s1.host.pba &&& ~~~(1#64 <<< e) } } e else s1
/-- A host write of `n` = 4 or 8 bytes, aligned, at offset `o` of BAR0; outside the named ranges it is ignored. -/
def barWrite (s : State) (o n : Nat) (v : Word) : State :=
  if !s.host.trained || o % n ≠ 0 then s
  else if o < 0x1000 then
    let off := o / 8 * 8
    hostWrite s off (halfMerge (regRead s 1 off) v (n = 4) (o % 8 = 4) (hostOnes off))
  else if 0x100000 ≤ o ∧ o < 0x200000 then slotWrite s ((o - 0x100000) / 0x80) ((o - 0x100000) % 0x80) n v
  else if 0x200000 ≤ o ∧ o < 0x200400 then msixWrite s (o - 0x200000) n v
  else s

/-- REGISTER_WRITE: by a device master at a device physical address with a privilege (0 job, 1 runtime, 2 Gaffer), or, with bit 63 of `pa`, by the host at an offset of BAR0, where bit 62 makes the access 4 bytes wide (log 44). What R32, R455 and R532 bar writes nothing here: the breach is the issuing instruction's. -/
def execRegisterWrite (pa v : Word) (priv : BitVec 2) (s : State) : Out_ :=
  if pa.getLsbD 63 then .next (barWrite s (bitsAt pa.toNat 0 22) (if pa.getLsbD 62 then 4 else 8) v)
  else
    match resolve s pa.toNat with
    | .reg blk off => .next (if priv = 0 ∨ (priv = 1 ∧ regNoWrite blk off) then s else regWrite s blk off v)
    | .ucb u off => .next (if priv = 0 then s else ucbWrite s u off v)
    | _ => .next s

end Sys2Proof.Machine
end

