-- ==== Sys2Proof/Machine/Bus.lean ====
section
/-! DEFINITION. Accesses to any device physical address: memory, sync counters, registers and unit control blocks (R26, R361, R370, R532); and the effect of a remote operation at its target (R93, R363, R367). -/

namespace Sys2Proof.Machine

/-! ## Pieces of any kind -/

/-- Read one part of at most 4 KiB of any kind; `val` is what counter k reads as. -/
def busPart (s : State) (val : Nat → Word) (pa len : Nat) : Status × Mem × State :=
  match resolve s pa with
  | .reg blk off => (stOk, memSlice (memOfBytes 0 (leBytes 8 (regRead s blk off).toNat)) 0 len, regReadFx s blk off)
  | .ucb u off => (stOk, memSlice (memOfBytes 0 ((List.range (len / 8)).flatMap fun i => leBytes 8 (ucbRead s u (off + 8 * i)).toNat)) 0 len, s)
  | .ctr k _ =>
    (stOk, memSlice ((rangeFrom k (len / 64 + 2)).flatMap fun j =>
      memOfBytes (0x0F0000000000 + 64 * j) (leBytes 8 (val j).toNat)) pa len, s)
  | _ => partRead s pa len
/-- Set VALUE outside tag order: the adds not yet merged are discarded (R370). -/
def ctrPut (s : State) (k : Nat) (v : Word) : State :=
  let s1 := ctrSet s k v
  { s1 with adds := s1.adds.filter fun a => a.ctr ≠ k }
/-- Write the VALUE bytes of a range of counter slots; the rsvd bytes take nothing. -/
def ctrWrite (s : State) (k pa len : Nat) (src : Mem) : State :=
  (rangeFrom k (len / 64 + 2)).foldl (fun s j =>
    let base := 0x0F0000000000 + 64 * j
    if j < 131072 ∧ base < pa + len ∧ pa < base + 8 then
      let old := leBytes 8 (ctrGet s j).toNat
      ctrPut s j (BitVec.ofNat 64 (leNat ((List.range 8).map fun i =>
        if pa ≤ base + i ∧ base + i < pa + len then tabGet 0 src (base + i - pa) else old.getD i 0)))
    else s) s
/-- Write one part of any kind. -/
def busPartPut (s : State) (pa len : Nat) (src : Mem) : Status × State :=
  match resolve s pa with
  | .reg blk off => (stOk, regWrite s blk off (BitVec.ofNat 64 (memNat src 0 8)))
  | .ucb u off => (stOk, (List.range (len / 8)).foldl (fun s i => ucbWrite s u (off + 8 * i) (BitVec.ofNat 64 (memNat src (8 * i) 8))) s)
  | .ctr k _ => (stOk, ctrWrite s k pa len src)
  | _ => partWrite s pa len src
/-- The 4 KiB parts of a list of pieces, each with its place in the whole. -/
def busParts : Nat → List (Nat × Nat) → List (Nat × Nat × Nat)
  | _, [] => []
  | at_, p :: r => ((chunksOf p.1 p.2).map fun c => (c.1, c.2.1, at_ + c.2.2)) ++ busParts (at_ + p.2) r
/-- No piece touches a hole. -/
def busOk (s : State) (ps : List (Nat × Nat)) : Bool := ps.all fun p => populated s p.1 p.2
/-- Read a list of pieces as one string. -/
def busRead (s : State) (val : Nat → Word) (ps : List (Nat × Nat)) : Status × Mem × State :=
  if busOk s ps then
    (busParts 0 ps).foldl (fun acc c =>
      let r := busPart acc.2.2 val c.1 c.2.1
      (if acc.1 = stOk then r.1 else acc.1, acc.2.1 ++ memShift r.2.1 c.2.2, r.2.2)) (stOk, [], s)
  else (stOutOfBounds, [], s)
/-- Write a string over a list of pieces; the first failure is the status. -/
def busWrite (s : State) (ps : List (Nat × Nat)) (src : Mem) : Status × State :=
  if busOk s ps then
    (busParts 0 ps).foldl (fun acc c =>
      let r := busPartPut acc.2 c.1 c.2.1 (memSlice src c.2.2 c.2.1)
      (if acc.1 = stOk then r.1 else acc.1, r.2)) (stOk, s)
  else (stOutOfBounds, s)
/-- Counters that a list of pieces touches. -/
def busCtrs (s : State) (ps : List (Nat × Nat)) : List Nat :=
  (ps.flatMap fun p => (chunksOf p.1 p.2).flatMap fun c =>
    match resolve s c.1 with
    | .ctr k _ => (rangeFrom k (c.2.1 / 64 + 2)).filter fun j => decide (0x0F0000000000 + 64 * j < c.1 + c.2.1)
    | _ => [])
/-- What a read with a tag sees of counter k: under STRICT the adds below its tag (R367), else VALUE (R369). -/
def ctrRead (s : State) (j : BitVec 16) (t : Tag) (k : Nat) : Word := if strictJob s j then ctrSeen s k t else ctrGet s k
/-- UCB_CMD registers that a list of pieces touches (R36, R54). -/
def busCmds (s : State) (ps : List (Nat × Nat)) : List Nat :=
  ps.flatMap fun p => (chunksOf p.1 p.2).filterMap fun c =>
    match resolve s c.1 with
    | .ucb u off => if off ≤ 0x20 ∧ 0x20 < off + c.2.1 then some u else none
    | _ => none

/-! ## Effect of a remote operation at its target -/

/-- Logical source index of a software context, where it is resident. -/
def swSrc (s : State) (sw : Nat) : Nat := ((ctxFind s sw).map fun p => ctxSrc p.1 p.2).getD (2 ^ 32)
/-- Source of an operation: its context, or the queue pair it came through (R56). -/
def opSrc (s : State) (o : RemoteOp) : Nat :=
  match o.rsp with
  | some r => qpSrc r.qpn
  | none => swSrc s o.owner
/-- Read-modify-write of the 8 bytes at `pa`: old value, and the new one where `f` gives one. -/
def busRmw (s : State) (pa : Nat) (f : Word → Option Word) : Status × Word × State :=
  let r := busPart s (ctrGet s) pa 8
  let old := BitVec.ofNat 64 (memNat r.2.1 0 8)
  if r.1 ≠ stOk then (r.1, 0, r.2.2)
  else match f old with
    | some v =>
      let w := busPartPut r.2.2 pa 8 (memOfBytes 0 (leBytes 8 v.toNat))
      (w.1, if w.1 = stOk then old else 0, w.2)
    | none => (stOk, old, r.2.2)
/-- RFADD or RCAS on its location. An RFADD on VALUE is an add with its own tag, which returns what a read with that tag sees (R363, R367); RCAS on it sets VALUE (R370). -/
def atomicApply (s : State) (o : RemoteOp) (pa : Nat) : Status × Word × State :=
  match resolve s pa, o.kind with
  | .hole, _ => (stOutOfBounds, 0, s)
  | .ctr k 0, .rfadd =>
    let s1 := tdcRead s o.job (opSrc s o) o.tag
    (stOk, ctrRead s o.job o.tag k, ctrAddTagged s1 k o.val o.tag o.job)
  | _, .rfadd => busRmw (tdcRead s o.job (opSrc s o) o.tag) pa fun x => some (x + o.val)
  | _, _ => busRmw (tdcRead s o.job (opSrc s o) o.tag) pa fun x => if x = o.cmp then some o.val else none
/-- Bytes that RPUT or RPUTI sends: captured from the window at issue, or read from its source. -/
def putData (s : State) (o : RemoteOp) : Status × Mem × State :=
  if o.fail ≠ stOk then (o.fail, [], s)
  else if o.win.isSome then (stOk, o.data, s)
  else busRead s (ctrRead s o.job o.tag) o.src
/-- Place the bytes of an RGET: in the window by tile-store address, or over its destination. -/
def getPlace (s : State) (o : RemoteOp) (pos n : Nat) (m : Mem) : Status × State :=
  match o.win with
  | some a => tsWrite s ((a + pos) / 0x400000) ((a + pos) % 0x400000) n m
  | none =>
    (busParts 0 o.dst).foldl (fun acc c =>
      let lo := max c.2.2 pos
      let hi := min (c.2.2 + c.2.1) (pos + n)
      if lo < hi then
        let w := busPartPut acc.2 (c.1 + (lo - c.2.2)) (hi - lo) (memSlice m (lo - pos) (hi - lo))
        (if acc.1 = stOk then w.1 else acc.1, w.2)
      else acc) (stOk, s)
/-- What an operation does at its target: status, the old value of an atomic, and the state. -/
def opApply (s : State) (o : RemoteOp) : Status × Word × State :=
  match o.kind with
  | .rput | .rputi =>
    let d := putData s o
    if d.1 ≠ stOk then (d.1, 0, d.2.2)
    else
      let w := busWrite d.2.2 o.pieces d.2.1
      (w.1, 0, w.2)
  | .rget =>
    let s1 := if (busCtrs s o.pieces).isEmpty then s else tdcRead s o.job (opSrc s o) o.tag
    let r := busRead s1 (ctrRead s1 o.job o.tag) o.pieces
    if r.1 ≠ stOk then (r.1, 0, r.2.2)
    else
      let w := getPlace r.2.2 o 0 o.len r.2.1
      (w.1, 0, w.2)
  | .rfadd | .rcas => atomicApply s o ((o.pieces.map (·.1)).getD 0 0)
  | .sadd => (stOk, 0, ctrAddTagged s o.ctr o.val o.tag o.job)
  | .qpost => (stOk, 0, s)

end Sys2Proof.Machine
end

