-- ==== Sys2Proof/Machine/XportReq.lean ====
section
/-! DEFINITION. The requester of the Frerak transport (R321, R328-R331, R336, R345, R346, R351, R352): work requests start, become packets, and are acknowledged, retransmitted or failed. RoCE v2 shares the flights and the send queue (R354). -/

namespace Sys2Proof.Machine

/-! ## Transmission -/

/-- A RoCE v2 queue pair. -/
def qpRoce (q : Qp) : Bool := q.transport = 2
/-- PSN `k` after `psn`: modulo 2^24 on RoCE v2 (R355). -/
def psnPlus (q : Qp) (psn : BitVec 32) (k : Nat) : BitVec 32 := if qpRoce q then BitVec.ofNat 32 ((psn.toNat + k) % 2 ^ 24) else psn + BitVec.ofNat 32 k
/-- Distance from `a` on to `b` in PSN space. -/
def psnGap (q : Qp) (a b : BitVec 32) : Nat := if qpRoce q then (b.toNat + 2 ^ 24 - a.toNat % 2 ^ 24) % 2 ^ 24 else (b - a).toNat
/-- The RoCE v2 form of a packet (R354, R355): the offset goes as the virtual address; headers of a whole message stand in its first packet, the immediate in its last. -/
def roceOf (q : Qp) (p : Pkt) : RocePkt :=
  let first := p.mpos = 0
  let last := decide (p.mpos.toNat + p.payload.length = p.mlen.toNat) || decide (3 ≤ p.type.toNat)
  {
    op := match p.type.toNat with
      | 1 => .write
      | 2 => .writeImm
      | 3 => .readReq
      | 4 => .readResp
      | 5 => .fetchAdd
      | 6 => .cmpSwap
      | 7 => .atomicResp
      | _ => .ack
    first := first, last := last, dqpn := q.peerQpn.setWidth 24, psn := p.psn.setWidth 24
    va := if first then BitVec.ofNat 64 p.offset.toNat else 0, rkey := if first then p.key else 0, dmaLen := if first then p.mlen else 0
    imm := if last ∧ p.type = 2 then p.value.setWidth 32 else 0
    swapAdd := if p.type = 5 ∨ p.type = 6 ∨ p.type = 7 then p.value else 0
    compare := if p.type = 6 then BitVec.ofNat 64 (leNat p.payload) else 0
    payload := if p.type = 6 then [] else p.payload }
/-- Send a RoCE v2 packet of a queue pair. -/
def roceXmit (s : State) (n : Nat) (r : RocePkt) : State :=
  let q := qpGet s n
  match q.nextHop with
  | none => s
  | some hop => portSend s q.port.toNat q.prio.toNat (frameLen q.peerIp (bitOf (hop / 2 ^ 48) 12) (r.payload.length + 16)) (.roce n q.peerIp r)
/-- Send a packet of a queue pair in its transport's form. -/
def xmit (s : State) (n : Nat) (p : Pkt) : State := if qpRoce (qpGet s n) then roceXmit s n (roceOf (qpGet s n) p) else qpXmit s n p

/-! ## Connecting (R346, R349) -/

/-- The header VERSION of a packet before one is negotiated: any of the three (log 4). -/
def freeVersion (s : State) : BitVec 8 × State :=
  ([0x10, 0x11, 0x20].getD ((Config.freeByte s.freeCtr).toNat % 3) 0x10, { s with freeCtr := s.freeCtr + 1 })
/-- Send CONNECT_REQ. -/
def connectSend (s : State) (n : Nat) : State :=
  let q := qpGet s n
  let b := leBytes 4 n ++ leBytes 4 q.service.toNat ++ [0x10, 0x20, BitVec.ofNat 8 q.mtuCfg, BitVec.ofNat 8 q.pathsCfg, 1, 0] ++ leBytes 2 q.cepoch.toNat ++ zeros 16
  qpXmit s n { pkt0 with type := 0x20, payload := b }
/-- Begin a connection: the neighbour entry is read, CEPOCH advances, and the first attempt is made. -/
def connectBegin (s : State) (n : Nat) : State :=
  let q := qpGet s n
  let h := neighLook s q.peerIp q.port.toNat
  let v := freeVersion h.2
  let s1 := qpUpd v.2 n fun q => {
    q with
    state := .connecting, nextHop := h.1, version := v.1, peerQpn := 0, peerCepoch := 0, cepoch := q.cepoch + 1, attempts := 1, lastTry := s.now }
  connectSend s1 n

/-! ## Packets of work requests (R328, R336, R339) -/

/-- WRITE or WRITE_IMM. -/
def wrIsWrite (w : Wreq) : Bool := w.opcode = 1 || w.opcode = 2
/-- READ, FETCH_ADD or CMP_SWAP. -/
def wrIsRead (w : Wreq) : Bool := w.opcode = 3 || w.opcode = 4 || w.opcode = 5
/-- A started work request has packets still to send. -/
def wrMore (w : Wreq) : Bool := w.started && (if wrIsWrite w then decide (w.sent < w.length) else w.sent = 0)
/-- Bytes of the local operand, or why there are none. -/
inductive WrLoad where
  | ok (b : Bytes)
  /-- A page is not present or a table entry is malformed (R336). -/
  | fault (va : Nat) (st : Status)
  /-- Rights or protection key (R329). -/
  | deny (st : Status)
  /-- The memory does not read. -/
  | fail (st : Status)
  deriving DecidableEq, Repr
/-- Physical pieces of a range of the local operand (R329). -/
inductive WrPieces where
  | ok (ps : List (Nat × Nat))
  | fault (va : Nat) (st : Status)
  | deny (st : Status)
  deriving DecidableEq, Repr
/-- Translate a range of the local operand with what the poster held at issue. -/
def wrPieces (s : State) (w : Wreq) (pos n : Nat) (a : Acc) : WrPieces :=
  match xlHeld s w.ttb w.pkr0.toNat w.pkr1.toNat w.priv.toNat (w.local_ + pos) n a with
  | .ok ps =>
    match lowest (piecesExc s { ({} : Ctx) with priv := w.priv, job := w.job } a true (w.local_ + pos) ps) with
    | some e => .deny e.st
    | none => .ok ps
  | .bad va (.fault st) => .fault va st
  | .bad _ (.deny st) => .deny st
  | .bad _ (.ok _ _) => .ok []
/-- The window data of a write: that of its operation, or its own. -/
def wrData (s : State) (w : Wreq) : Option Mem :=
  match w.op.bind (kvGet s.ops) with
  | some o => if o.win.isSome then some o.data else none
  | none => if w.win.isSome then some w.data else none
/-- Load `n` bytes of a write from position `pos`. -/
def wrLoad (s : State) (w : Wreq) (pos n : Nat) : WrLoad × State :=
  match wrData s w with
  | some d => (.ok (memBytes d pos n), s)
  | none =>
    match wrPieces s w pos n .read with
    | .fault va st => (.fault va st, s)
    | .deny st => (.deny st, s)
    | .ok ps =>
      let r := busRead s (ctrRead s w.job w.tag) ps
      (if r.1 = stOk then .ok (memBytes r.2.1 0 n) else .fail r.1, r.2.2)
/-- The next packet of a work request. -/
def wrPacket (q : Qp) (w : Wreq) (b : Bytes) (path : Nat) : Pkt :=
  let pos := if wrIsWrite w then w.sent else 0
  {
    pkt0 with
    type := if w.opcode = 4 then 5 else if w.opcode = 5 then 6 else if w.opcode = 6 then 8 else w.opcode
    flags := if qpTagged q then 1 else 0, psn := q.nextPsn, msn := w.msn, offset := BitVec.ofNat 40 (w.offset + pos), path := BitVec.ofNat 8 path
    key := w.key, mlen := BitVec.ofNat 32 w.length, mpos := BitVec.ofNat 32 pos
    value := if w.opcode = 1 ∨ w.opcode = 3 then 0 else w.value, tag := if qpTagged q then w.tag else 0, payload := b }
/-- A requester fault stalls the queue pair and is recorded (R336). -/
def localFault (s : State) (n : Nat) (w : Wreq) (va : Nat) (st : Status) (write : Bool) : State :=
  let q := qpGet s n
  let s1 := qpUpd s n fun q => { q with state := .stalled, fault := some (w.ord, st) }
  faultEntry s1 q.fring.toNat n va st (b2n write) 0 q.job w.ord (if qpTagged q then some w.tag else none)
/-- The PSNs allow one more packet: at most 1,024 outstanding on Frerak (R341), and what 24 bits can tell apart on RoCE v2. -/
def qpRoom (q : Qp) : Bool :=
  match q.flights with
  | [] => true
  | f :: _ => decide (psnGap q f.pkt.psn q.nextPsn < if qpRoce q then 2 ^ 22 else 1024)
/-- PSNs that a packet takes: on RoCE v2 a READ takes one for each packet of its response. -/
def psnTake (q : Qp) (w : Wreq) : Nat := if qpRoce q ∧ w.opcode = 3 then max 1 (ceilDiv w.length (2 ^ q.mtuLog2)) else 1
/-- Send packets of started work requests while PSNs, windows and local reads allow (R321, R341, R351, R352). -/
def qpPump : Nat → State → Nat → State
  | 0, s, _ => s
  | f + 1, s, n =>
    let q := qpGet s n
    if q.state ≠ .ready || !qpRoom q then s
    else match q.sq.find? wrMore, pathPick q none with
      | some w, some (k, room) =>
        let len := if wrIsWrite w then min (2 ^ q.mtuLog2) (w.length - w.sent) else if w.opcode = 5 then 8 else 0
        if room < (len : Int) then s
        else
          let d := if wrIsWrite w then wrLoad s w w.sent len else (.ok (if w.opcode = 5 then leBytes 8 w.compare.toNat else []), s)
          match d.1 with
          | .ok b =>
            let p := wrPacket q w b k
            let s1 := qpUpd d.2 n fun q => { q with
              nextPsn := psnPlus q q.nextPsn (psnTake q w)
              sq := q.sq.map fun x => if x.ord = w.ord then { x with sent := if wrIsWrite w then w.sent + len else 1 } else x
              flights := q.flights ++ [{ pkt := p, ord := w.ord, path := k, bytes := len, sent := s.now }] }
            qpPump f (xmit s1 n p) n
          | .fault va st => localFault d.2 n w va st false
          | .deny st => qpPump f (wrViolation d.2 n w st) n
          | .fail st => qpPump f (wrComplete d.2 n w st 0) n
      | _, _ => s
/-- Pump a queue pair. -/
def pump (s : State) (n : Nat) : State := qpPump 1100 s n

/-! ## Starting work requests (R329, R331) -/

/-- The opcode is offered by the transport and version (R350, R354); a responder queue pair sends no work requests. -/
def wrOffered (q : Qp) (w : Wreq) : Bool :=
  q.transport ≠ 1 && (w.opcode ≠ 6 || (q.transport = 0 && decide (0x20 ≤ q.version.toNat)))
/-- Waits of the head work request: fence, gate, 16 atomics and 64 messages outstanding (R331, R341, R344). -/
def wrWaits (s : State) (q : Qp) (w : Wreq) : Bool :=
  (w.flags.getLsbD 2 && q.sq.any fun x => decide (x.ord < w.ord) && wrIsRead x) ||
  (w.flags.getLsbD 1 && !waitOver s w.gateCtr w.tag w.gateThr w.job (2 ^ 32)) ||
  ((w.opcode = 4 || w.opcode = 5) && decide (16 ≤ (q.sq.filter fun x => x.started && (x.opcode = 4 || x.opcode = 5)).length)) ||
  decide (64 ≤ (q.sq.filter fun x => x.started).length)
/-- A remote-route SADD waits for every operation its context issued before it (R91 item 4). -/
def wrHeld (s : State) (w : Wreq) : Bool := w.op.any fun id => (kvGet s.ops id).any fun o => o.kind = .sadd && opsBefore s id o
/-- Status of a window source that did not read at issue (R462). -/
def wrBroken (s : State) (w : Wreq) : Status := ((w.op.bind (kvGet s.ops)).map (·.fail)).getD stOk
/-- The head of what has not started, on a queue pair that is connected. -/
def wrBegin (s : State) (n : Nat) (w : Wreq) : State :=
  let q := qpGet s n
  if w.strict && q.transport = 0 && q.peerKind = 1 && decide (q.version.toNat < 0x20) then wrComplete s n w stUntaggedQp 0
  else if !wrOffered q w then wrComplete s n w stOpUnsupported 0
  else if wrBroken s w ≠ stOk then wrComplete s n w (wrBroken s w) 0
  else if wrWaits s q w || wrHeld s w then s
  else
    let s1 := if w.flags.getLsbD 1 then tdcRead s w.job (2 ^ 32) w.tag else s
    pump (qpUpd s1 n fun q => { q with
      nextMsn := q.nextMsn + 1, lastWork := s.now
      sq := q.sq.map fun x => if x.ord = w.ord then { x with started := true, msn := q.nextMsn } else x }) n
/-- WORK_REQUEST_START: the head work request that has not started is checked and starts, or an IDLE queue pair connects for it; started ones go on sending. -/
def wrStart (s : State) (n : Nat) : State :=
  let q := qpGet s n
  match q.sq.find? fun w => !w.started with
  | none => if q.resident then pump s n else s
  | some w =>
    if batchHeld s w.job (tagBatch w.tag).toNat then s
    else if q.state = .free ∨ q.state = .error ∨ q.state = .draining then wrComplete s n w stQpStateInvalid 0
    else if q.transport = 1 then wrComplete s n w stOpUnsupported 0
    else if !q.resident then s
    else
      let s1 := qpResident s n
      match q.state with
      | .idle => connectBegin s1 n
      | .ready => wrBegin s1 n w
      | _ => s1
/-- WORK_REQUEST_START. -/
def execWorkRequestStart (qpn : BitVec 20) (s : State) : Out_ := .next (wrStart s qpn.toNat)

/-! ## Acknowledgement and retransmission (R343, R345, R351, R352) -/

/-- The flights of one direction: requests, or responses. -/
def flightsOf (q : Qp) (rsp : Bool) : List Flight := if rsp then q.rspFlights else q.flights
/-- Replace them. -/
def flightsPut (q : Qp) (rsp : Bool) (l : List Flight) : Qp := if rsp then { q with rspFlights := l } else { q with flights := l }
/-- Retransmissions a packet may have: at most 7 on RoCE v2 (R354). -/
def retryMax (s : State) (q : Qp) : Nat := if qpRoce q then min 7 s.xp.retryMax.toNat else s.xp.retryMax.toNat
/-- Send a flight again, on another live path when there is one (R345). -/
def flightResend (s : State) (n : Nat) (rsp : Bool) (f : Flight) (count : Bool) : State :=
  let q := qpGet s n
  if count && decide (retryMax s q ≤ f.retries) then qpFail s n (fun _ => true) stPeerUnreachable f.pkt.psn
  else
    let k := match pathPick q (some f.path) with
      | some p => p.1
      | none => f.path
    let p := { f.pkt with flags := f.pkt.flags ||| 2, path := BitVec.ofNat 8 k }
    let g := { f with pkt := p, path := k, sent := s.now, retries := if count then f.retries + 1 else f.retries, waitUntil := none }
    xmit (qpUpd s n fun q => flightsPut q rsp ((flightsOf q rsp).map fun x => if x.pkt.psn = f.pkt.psn then g else x)) n p
/-- The queue pair still has a connection. -/
def qpAlive (s : State) (n : Nat) : Bool := let st := (qpGet s n).state; st = .ready || st = .stalled
/-- Resend a list of flights in order while the queue pair lives. -/
def flightsResend (s : State) (n : Nat) (rsp : Bool) (l : List Flight) (count : Bool) : State :=
  l.foldl (fun s f => if qpAlive s n then flightResend s n rsp f count else s) s
/-- A PSN is acknowledged by a cumulative PSN and a bitmap. -/
def psnAcked (cum : BitVec 32) (bits : Nat) (psn : BitVec 32) : Bool :=
  let d := (psn - cum).toNat
  decide (2 ^ 31 ≤ d) || (decide (1 ≤ d ∧ d ≤ 256) && bitOf bits (d - 1))
/-- PSNs above `psn` that the bitmap shows as received. -/
def psnAbove (cum : BitVec 32) (bits : Nat) (psn : BitVec 32) : Nat :=
  ((List.range 256).filter fun i => bitOf bits i && (let d := (cum + 1 + BitVec.ofNat 32 i - psn).toNat; decide (1 ≤ d ∧ d < 2 ^ 31))).length
/-- Complete the writes and counter adds whose packets are all acknowledged (R330). -/
def wrsAcked (s : State) (n : Nat) : State :=
  let q := qpGet s n
  (q.sq.filter fun w => w.started && !wrIsRead w && !wrMore w && q.flights.all fun f => f.ord ≠ w.ord).foldl (fun s w => wrComplete s n w stOk 0) s
/-- W_p after an ACK of `a` bytes with queueing delay `qd` (R351), within 4,096 bytes to 4 MiB. -/
def windowNext (s : State) (r : PathRec) (a qd : Nat) : PathRec :=
  let t := s.xp.targetDelay.toNat
  let clamp := fun w => max 4096 (min (4 * 2 ^ 20) w)
  if qd ≤ t then { r with window := clamp (r.window + s.xp.ai.toNat * 64 * a / r.window) }
  else if r.srtt ≤ (s.now - r.lastCut).toNat then
    { r with window := clamp (max (r.window / 2) (r.window * (256 * qd - s.xp.beta.toNat * (qd - t)) / (256 * qd))), lastCut := s.now }
  else r
/-- An RTT sample of a path from an ACK (R345, R351); none within 1 ms of a correction of 1 s or more (R396). -/
def pathSample (s : State) (r : PathRec) (echo : Word) (hold a : Nat) : PathRec :=
  let x := (s.now - echo - BitVec.ofNat 64 hold).toNat
  let r1 := { r with expiries := 0 }
  if s.ptpJump.any fun t => decide ((s.now - t).toNat < 1000000) then r1
  else
    let l := (r.samples.filter fun e => decide ((s.now - e.1).toNat ≤ 10000000000)) ++ [(s.now, x)]
    let b := minOf (l.map (·.2))
    windowNext s { r1 with samples := l, srtt := (7 * r.srtt + x) / 8 } a (x - b)
/-- Take an ACK of one direction: flights leave, work completes, and packets with three or more received above them go again, once in an SRTT. -/
def ackTake (s : State) (n : Nat) (rsp : Bool) (p : Pkt) : State :=
  let q := qpGet s n
  let bits := subNat p.payload 0 32
  let gone := (flightsOf q rsp).filter fun f => psnAcked p.psn bits f.pkt.psn
  let k := p.path.toNat
  let a := (gone.filter fun f => f.path = k).foldl (fun n f => n + f.bytes) 0
  let s1 := qpUpd s n fun q => flightsPut q rsp ((flightsOf q rsp).filter fun f => !psnAcked p.psn bits f.pkt.psn)
  let s2 := if rsp ∨ q.paths ≤ k then s1 else
    qpUpd s1 n fun q => { q with pathTab := listSet q.pathTab k (pathSample s (pathGet q k) (BitVec.ofNat 64 (subNat p.payload 32 8)) (subNat p.payload 40 4) a) }
  let s3 := if rsp then s2 else wrsAcked s2 n
  let lost := (flightsOf (qpGet s3 n) rsp).filter fun f => decide (3 ≤ psnAbove p.psn bits f.pkt.psn) && f.waitUntil.isNone && decide ((pathGet q f.path).srtt ≤ (s.now - f.sent).toNat)
  flightsResend s3 n rsp lost true
/-- RTO_EXPIRY: the oldest packet of the path goes again; three expiries in a row fail the path. -/
def rtoExpire (s : State) (n k : Nat) : State :=
  let q := qpGet s n
  let rsp := q.transport = 1
  if !qpAlive s n then s
  else match (flightsOf q rsp).find? fun f => f.path = k && f.waitUntil.isNone with
    | none => s
    | some f =>
      let r := pathGet q k
      let fails := r.live && decide (3 ≤ r.expiries + 1) && !qpRoce q
      let s1 := qpUpd s n fun q => { q with pathTab := listSet q.pathTab k { r with expiries := r.expiries + 1, live := r.live && !fails, probed := s.now } }
      let s2 := if fails then raise s1 4 0 n [BitVec.ofNat 8 k] else s1
      if qpRoce q then flightsResend s2 n rsp (flightsOf q rsp) true else flightResend s2 n rsp f true
/-- RTO_EXPIRY. -/
def execRtoExpiry (qpn : BitVec 20) (path : Nat) (s : State) : Out_ := .next (rtoExpire s qpn.toNat path)
/-- PROBE_TIMER: a PROBE on a failed path. -/
def execProbeTimer (qpn : BitVec 20) (path : Nat) (s : State) : Out_ :=
  let n := qpn.toNat
  let q := qpGet s n
  if qpAlive s n && decide (path < q.paths) && !(pathGet q path).live then
    .next (qpXmit (qpUpd s n fun q => { q with pathTab := listSet q.pathTab path { pathGet q path with probed := s.now } }) n { pkt0 with type := 0x23, path := BitVec.ofNat 8 path })
  else .next s
/-- FAULT_WAIT_RESEND: the faulted packet and every later unacknowledged one (R335). -/
def execFaultWaitResend (qpn : BitVec 20) (s : State) : Out_ :=
  let n := qpn.toNat
  if !qpAlive s n then .next s
  else .next (flightsResend s n false ((qpGet s n).flights.dropWhile fun f => f.waitUntil.isNone) false)
/-- REMOTE_WAIT_TIMEOUT: the work request whose packet has waited past WAIT_LIMIT fails, and the queue pair with it (R335). -/
def execRemoteWaitTimeout (qpn : BitVec 20) (s : State) : Out_ :=
  let n := qpn.toNat
  match (qpGet s n).flights.find? fun f => f.waitFirst.isSome with
  | some f => .next (if qpAlive s n then qpFail s n (fun w => w.ord = f.ord) stRemoteWaitTimeout f.pkt.psn else s)
  | none => .next s
/-- CONNECT_RETRY: the next attempt, or after RETRY_MAX of them ERROR with PEER_UNREACHABLE (R346). -/
def execConnectRetry (qpn : BitVec 20) (s : State) : Out_ :=
  let n := qpn.toNat
  let q := qpGet s n
  if q.state ≠ .connecting then .next s
  else if q.attempts < s.xp.retryMax.toNat then .next (connectSend (qpUpd s n fun q => { q with attempts := q.attempts + 1, lastTry := s.now }) n)
  else .next (qpFail s n (fun _ => true) stPeerUnreachable 0)
/-- Nothing of a queue pair is in flight. -/
def qpQuiet (q : Qp) : Bool := q.sq.isEmpty && q.flights.isEmpty && q.rspJobs.isEmpty && q.rspFlights.isEmpty && q.withheld.isEmpty && q.msgs.all fun m => m.quiet
/-- IDLE_TEARDOWN (R347): not RoCE v2, not a STRICT job's (R340), and not with IDLE 0. -/
def execIdleTeardown (qpn : BitVec 20) (s : State) : Out_ :=
  let n := qpn.toNat
  let q := qpGet s n
  if q.state = .ready && q.transport.toNat < 2 && qpQuiet q && !strictJob s q.job && s.xp.idle ≠ 0 then
    .next (frontDrop (qpUpd (connClosed (sendClose s n 1) n) n fun q => qpDrop q (qpRest q)) (qpSrc n))
  else .next s
/-- FRONTIER_TIMER (R340): a risen frontier that no tagged packet carried. -/
def execFrontierTimer (qpn : BitVec 20) (s : State) : Out_ :=
  let n := qpn.toNat
  let q := qpGet s n
  if q.state = .ready && q.transport = 0 && qpTagged q && decide (q.sentFrontier.toNat < (qpFront s q).toNat) then .next (qpXmit s n { pkt0 with type := 0x13, flags := 1 }) else .next s
/-- ACK_TIMER (R343). -/
def execAckTimer (qpn : BitVec 20) (s : State) : Out_ := .next (if qpAlive s qpn.toNat then sendAck s qpn.toNat else s)

end Sys2Proof.Machine
end

