-- ==== Sys2Proof/Machine/XportRsp.lean ====
section
/-! DEFINITION. Received Frerak packets (R326, R327, R330, R332-R335, R340-R349): checks, placement, notification, reads, atomics, responses, and the control packets. -/

namespace Sys2Proof.Machine

/-! ## Sequences (R341) -/

/-- Record a request PSN as received. -/
def reqMark (s : State) (n : Nat) (psn : BitVec 32) : State :=
  qpUpd s n fun q => let r := psnMark q.cum q.recvd psn; { q with cum := r.1, recvd := r.2 }
/-- Record a response PSN as received. -/
def rspMark (s : State) (n : Nat) (psn : BitVec 32) : State :=
  qpUpd s n fun q => let r := psnMark q.rspCum q.rspRecvd psn; { q with rspCum := r.1, rspRecvd := r.2 }
/-- Take the frontier of a tagged packet (R340). -/
def frontTake (s : State) (n : Nat) (p : Pkt) : State :=
  if pTagged p then
    frontRaise (qpUpd s n fun q => { q with recvFrontier := if q.recvFrontier.toNat < p.frontier.toNat then p.frontier else q.recvFrontier }) (qpSrc n) (qpGet s n).job p.frontier
  else s
/-- ACK_NOW. -/
def pNow (p : Pkt) : Bool := p.flags.getLsbD 2
/-- Acknowledge a new packet: within 2 us, or at once for ACK_NOW (R343). -/
def ackNew (s : State) (n : Nat) (p : Pkt) : State := promptAck s n p (pNow p)

/-! ## Checks of a request (R326) -/

/-- How the checks of a request end. -/
inductive ReqOut where
  | ok (i : Nat) (r : Region) (ps : List (Nat × Nat))
  | nak (st : Status)
  /-- FAULT_WAIT for a page not present (R335): fault ring, address, key. -/
  | wait (ring va : Nat)
  deriving DecidableEq, Repr
/-- Access kind of a request, for its rights: bit of RIGHTS, and whether it reads and writes. -/
structure ReqKind where
  right : Nat
  reads : Bool
  writes : Bool
  imm : Bool := false
  align : Nat := 1
  deriving DecidableEq, Repr
/-- Privilege a region's accesses have: that of its binding. -/
def regionPriv (r : Region) : Nat := if r.job = 0xFFFF then 1 else 0
/-- PHYS and ODP. -/
def regionPhys (r : Region) : Bool := r.rights.getLsbD 4
/-- ODP. -/
def regionOdp (r : Region) : Bool := r.rights.getLsbD 5
/-- Translate a range of a region for one kind of access (step 7). -/
def regionXl (s : State) (r : Region) (off len : Nat) (a : Acc) : XlRange :=
  if regionPhys r then .ok [(r.base + off, len)] else xlHeld s r.ttb r.pkr0.toNat 0 (regionPriv r) (r.base + off) len a
/-- Causes for pieces of a region: holes, registers and counters (R370, R532). -/
def regionExc (s : State) (r : Region) (ps : List (Nat × Nat)) (a : Acc) : Option Status :=
  let c := { ({} : Ctx) with priv := BitVec.ofNat 2 (regionPriv r), job := r.job }
  match lowest (piecesExc s c a (a = .write) 0 ps) with
  | some e => some e.st
  | none => if !regionPhys r && a = .read && !(busCtrs s ps).isEmpty then some stRightsDenied else none
/-- One access kind of steps 7 and 8. -/
def regionReach (s : State) (i : Nat) (r : Region) (off len : Nat) (a : Acc) : ReqOut :=
  match regionXl s r off len a with
  | .ok ps => match regionExc s r ps a with
    | some st => .nak st
    | none => .ok i r ps
  | .bad va (.fault st) => if st = stPageNotPresent ∧ regionOdp r then .wait r.fring.toNat va else .nak st
  | .bad _ (.deny st) => .nak st
  | .bad _ (.ok _ _) => .ok i r []
/-- Steps 3 to 7 of R326 for a key, an offset and a length. `odp` says whether the connection offers ODP. -/
def reqCheck (s : State) (q : Qp) (key : BitVec 32) (off len : Nat) (k : ReqKind) (odp : Bool) : ReqOut :=
  let i := key.toNat / 256
  let r := regionGet s i
  if !r.registered || r.gen.toNat ≠ key.toNat % 256 || r.job ≠ q.job || decide (2 ^ s.xp.mrtLog2.toNat ≤ i) then .nak stKeyMismatch
  else if !r.rights.getLsbD k.right || (k.imm && r.nmode = 0) || (regionOdp r && !odp) then .nak stRightsDenied
  else if r.length < off + len || (regionPhys r && !populated s (r.base + off) len) then .nak stOutOfBounds
  else if off % k.align ≠ 0 then .nak stMisaligned
  else
    let x := if k.reads then regionReach s i r off len .read else .ok i r []
    match x with
    | .ok _ _ _ => if k.writes then regionReach s i r off len .write else x
    | _ => x
/-- FAULT_WAIT and ODP exist from 1.1 on (R350). -/
def offersWait (q : Qp) : Bool := q.transport.toNat < 2 && decide (0x11 ≤ q.version.toNat)

/-! ## Messages and notification (R332-R334, R342) -/

/-- Record of a message. -/
def msgFind (q : Qp) (msn : BitVec 32) : Option MsgRec := q.msgs.find? fun m => m.msn = msn
/-- Replace or add a record. -/
def msgPut (q : Qp) (m : MsgRec) : Qp := { q with msgs := (q.msgs.filter fun x => x.msn ≠ m.msn) ++ [m] }
/-- The record of a packet's message as it stands, or a fresh one. -/
def msgOf (q : Qp) (p : Pkt) (imm : Bool) : MsgRec :=
  (msgFind q p.msn).getD {
    msn := p.msn, mlen := p.mlen.toNat, placed := 0, offset := p.offset.toNat - p.mpos.toNat, imm := if imm then some p.value else none, key := p.key
    tag := p.tag, tagged := pTagged p, quiet := decide (2 ^ 31 ≤ (p.msn - q.nextNotify).toNat) }
/-- Bytes of a notify ring entry (R333). -/
def notifyEntry (n : Nat) (m : MsgRec) : Bytes :=
  leBytes 8 (m.imm.getD 0).toNat ++ leBytes 8 m.offset ++ leBytes 4 m.mlen ++ leBytes 4 m.key.toNat ++ leBytes 4 n ++ leBytes 2 (b2n m.roce) ++ zeros 2
/-- Notify ring of a message's region, where NMODE names one. -/
def notifyRing (s : State) (m : MsgRec) : Option Nat :=
  let r := regionGet s (m.key.toNat / 256)
  if m.imm.isSome && r.nmode.getLsbD 1 then some r.nring.toNat else none
/-- Entries of ring r that complete messages will still append. -/
def ringReserved (s : State) (r : Nat) : Nat :=
  s.qps.foldl (fun k e => k + (e.2.msgs.filter fun m => m.whole && !m.quiet && !m.queued && notifyRing s m = some r).length) 0
/-- The notify ring has no room for one more entry beside those still to come; a ring that is off takes none. -/
def notifyFull (s : State) (r : Nat) : Bool × State :=
  let x := ringGet s r
  (x.1.kind = 1 && decide (2 ^ x.1.sizeLog2 ≤ x.1.head - x.1.tail + ringPending s r + ringReserved s r), x.2)
/-- The add of a notification (R332 step 3, R363). -/
def notifyAdd (s : State) (n : Nat) (m : MsgRec) : State :=
  let r := regionGet s (m.key.toNat / 256)
  if m.imm.isSome && r.nmode.getLsbD 0 then
    let amt : Word := if r.nmode.getLsbD 2 then ((m.imm.getD 0).setWidth 32).setWidth 64 else 1
    if m.tagged then ctrAddTagged s r.nctr.toNat amt m.tag (qpGet s n).job else ctrAdd s r.nctr.toNat amt
  else s
/-- The acknowledgement that a notification held back (R332 step 4): the message has nothing left to notify. -/
def notifyAck (s : State) (n : Nat) (m : MsgRec) : State :=
  let s1 := qpUpd s n fun q => {
    msgPut q { m with quiet := true } with
    withheld := q.withheld.filter fun x => x ≠ m.psn, ackDue := some (m.came, m.time, m.path) }
  if (qpGet s1 n).transport = 1 then sendAck s1 n else s1
/-- Notify a complete message at once: ring entry, add, acknowledgement. -/
def notifyNow (s : State) (n : Nat) (m : MsgRec) : State :=
  let s1 := match notifyRing s m with
    | some r => ringAppend s r 1 (notifyEntry n m)
    | none => s
  notifyAck (notifyAdd s1 n m) n m
/-- Deliver the notifications whose turn has come, in MSN order; a STRICT job's tagged ones go by their own tags. -/
def notifyRun : Nat → State → Nat → State
  | 0, s, _ => s
  | f + 1, s, n =>
    let q := qpGet s n
    match msgFind q q.nextNotify with
    | none => s
    | some m =>
      let pass := fun (s : State) => qpUpd s n fun q => { q with msgs := q.msgs.filter fun x => x.msn ≠ m.msn, nextNotify := q.nextNotify + 1 }
      if m.quiet then notifyRun f (pass s) n
      else if m.whole && !(m.tagged && strictJob s q.job) then notifyRun f (pass (notifyNow s n m)) n
      else s
/-- Deliver what can be delivered. -/
def notify (s : State) (n : Nat) : State := notifyRun 70 s n
/-- A request with nothing to notify takes its place in MSN order. -/
def msgQuiet (s : State) (n : Nat) (msn : BitVec 32) : State :=
  notify (qpUpd s n fun q => msgPut q { (msgFind q msn).getD { msn := msn, mlen := 0, placed := 0, offset := 0, imm := none, key := 0, tag := 0, tagged := false } with quiet := true }) n
/-- A message is whole: its notification comes in MSN order, or under STRICT in tag order at the ring's decision point (R54, R332). -/
def msgWhole (s : State) (n : Nat) (m : MsgRec) : State :=
  let q := qpGet s n
  if m.imm.isNone then msgQuiet s n m.msn
  else
    let m1 := { m with whole := true }
    let s1 := qpUpd s n fun q => { msgPut q m1 with withheld := q.withheld ++ [m.psn] }
    if m.tagged && strictJob s q.job then
      match notifyRing s m with
      | some r =>
        dpAdd (qpUpd s1 n fun q => msgPut q { m1 with queued := true }) (ringDp r)
          { src := qpSrc n, tag := m.tag, job := q.job, strict := true, since := s.now, ring := r, entry := notifyEntry n m, msg := some (n, m.msn) }
      | none => notify (notifyAck (notifyAdd s1 n m1) n m1) n
    else notify s1 n

/-! ## Requests (R326, R341) -/

/-- NAK a request: its PSN counts as received, and its message is never notified. -/
def reqNak (s : State) (n : Nat) (p : Pkt) (st : Status) : State := msgQuiet (reqMark (sendNak s n p st) n p.psn) n p.msn
/-- A new request to a responder queue pair: steps 1 and 2 of R326; duplicates go to `dup`. -/
def reqTake (s : State) (n : Nat) (p : Pkt) (dup : State → State) (new : State → State) : State :=
  let q := qpGet s n
  if q.transport ≠ 1 ∨ q.state ≠ .ready ∨ p.cepoch ≠ q.cepoch then s
  else
    let s1 := frontTake s n p
    match psnClass q.cum q.recvd p.psn with
    | .dup => dup s1
    | .beyond => sendNak s1 n p stSequenceError
    | .new => new (qpUpd s1 n fun q => { q with lastWork := s.now })
/-- End a request whose checks failed. -/
def reqFail (s : State) (n : Nat) (p : Pkt) (o : ReqOut) (write : Bool) : State :=
  match o with
  | .nak st => reqNak s n p st
  | .wait ring va =>
    let q := qpGet s n
    faultEntry (sendWait s n p 1) ring n va stPageNotPresent (2 + b2n write) p.key q.job p.psn.toNat (if pTagged p then some p.tag else none)
  | .ok _ _ _ => s
/-- WRITE and WRITE_IMM: place, count, and complete the message (R332, R334, R342). -/
def writeTake (s : State) (n : Nat) (p : Pkt) : State :=
  let imm := p.type = 2
  reqTake s n p (fun s => promptAck s n p true) fun s =>
    let q := qpGet s n
    let m := msgOf q p imm
    let len := p.payload.length
    if p.mlen.toNat < p.mpos.toNat + len ∨ m.mlen ≠ p.mlen.toNat then reqNak s n p stSequenceError
    else
      let o := reqCheck s q p.key p.offset.toNat len { right := 1, reads := false, writes := true, imm := imm } (offersWait q)
      match o with
      | .ok _ _ ps =>
        let whole := m.placed + len = m.mlen
        let full := match notifyRing s m with
          | some r => if whole then notifyFull s r else (false, s)
          | none => (false, s)
        if full.1 then (if offersWait q then sendWait full.2 n p 2 else full.2)
        else
          let w := busWrite full.2 ps (memOfBytes 0 p.payload)
          if w.1 ≠ stOk then reqNak w.2 n p w.1
          else
            let m1 := { m with placed := m.placed + len, psn := p.psn, time := p.txtime, came := s.now, path := p.path }
            let s1 := reqMark (qpUpd w.2 n fun q => msgPut q m1) n p.psn
            ackNew (if whole then msgWhole s1 n m1 else s1) n p
      | o => reqFail s n p o true
/-- Send the next READ_RESP packets, as far as the response sequence has room (R341). A tagged read of counters waits for the adds below its tag (R367). -/
def rspPump : Nat → State → Nat → State
  | 0, s, _ => s
  | f + 1, s, n =>
    let q := qpGet s n
    let room := match q.rspFlights with
      | [] => true
      | x :: _ => decide (psnGap q x.pkt.psn q.rspNext < 1024)
    if q.state ≠ .ready || !room then s
    else match q.rspJobs with
      | [] => s
      | j :: rest =>
        let len := min (2 ^ q.mtuLog2) (j.len - j.pos)
        let r : Region := { registered := true, base := j.base, ttb := j.ttb, pkr0 := j.pkr0, job := j.job, rights := j.rights, fring := j.fring }
        let fail := fun (s : State) (st : Status) =>
          sendNak (qpUpd s n fun q => { q with rspJobs := rest }) n { pkt0 with psn := j.psn, msn := j.msn, path := j.path } st
        match regionXl s r (j.offset + j.pos) len .read with
        | .bad _ (.fault st) | .bad _ (.deny st) => rspPump f (fail s st) n
        | .bad _ (.ok _ _) => s
        | .ok ps =>
          let tag := j.tag.getD 0
          let ordered := j.tag.isSome && strictJob s q.job && !(busCtrs s ps).isEmpty
          if ordered && !addsSettled s q.job (qpSrc n) tag then s
          else
            let d := busRead s (fun k => if ordered then ctrSeen s k tag else ctrGet s k) ps
            if d.1 ≠ stOk then rspPump f (fail d.2.2 d.1) n
            else
              let p := { pkt0 with
                type := 4, psn := q.rspNext, msn := j.msn, path := j.path, mlen := BitVec.ofNat 32 j.len, mpos := BitVec.ofNat 32 j.pos, payload := memBytes d.2.1 0 len }
              let s1 := qpUpd d.2.2 n fun q => {
                q with
                rspNext := psnPlus q q.rspNext 1
                rspJobs := if j.len ≤ j.pos + len then rest else { j with pos := j.pos + len } :: rest
                rspFlights := if qpRoce q then q.rspFlights else q.rspFlights ++ [{ pkt := p, ord := 0, path := j.path.toNat, bytes := len, sent := s.now }] }
              rspPump f (xmit s1 n p) n
/-- Go on with the responses of a queue pair. -/
def rspRun (s : State) (n : Nat) : State := rspPump 20000 s n
/-- READ_REQ: checked whole, then answered packet by packet. -/
def readTake (s : State) (n : Nat) (p : Pkt) : State :=
  reqTake s n p (fun s => promptAck s n p true) fun s =>
    let q := qpGet s n
    match reqCheck s q p.key p.offset.toNat p.mlen.toNat { right := 0, reads := true, writes := false } (offersWait q) with
    | .ok i r _ =>
      let j : RspJob := {
        region := i, base := r.base, ttb := r.ttb, pkr0 := r.pkr0, job := r.job, rights := r.rights, fring := r.fring, key := p.key, msn := p.msn, psn := p.psn
        offset := p.offset.toNat, len := p.mlen.toNat, path := p.path, tag := if pTagged p then some p.tag else none }
      let s1 := msgQuiet (reqMark s n p.psn) n p.msn
      ackNew (rspRun (qpUpd s1 n fun q => { q with rspJobs := q.rspJobs ++ [j] }) n) n p
    | o => reqFail s n p o false
/-- Send an ATOMIC_RESP and keep it among the last 16 (R344). -/
def atomicReply (s : State) (r : RspTo) (old : Word) : State :=
  let q := qpGet s r.qpn
  let p := { pkt0 with type := 7, psn := q.rspNext, msn := r.msn, path := r.path, mlen := 8, value := old }
  let s1 := qpUpd s r.qpn fun q => {
    q with
    rspNext := psnPlus q q.rspNext 1
    atomics := (q.atomics ++ [(r.psn, p)]).drop (q.atomics.length - 15)
    rspFlights := if qpRoce q then q.rspFlights else q.rspFlights ++ [{ pkt := p, ord := 0, path := r.path.toNat, bytes := 0, sent := s.now }] }
  xmit s1 r.qpn p
/-- An operation is applied: the instruction's outcome is delivered, or the packet is answered, unless its connection has ended. -/
def opFinish (s : State) (id : Nat) (st : Status) (old : Word) : State :=
  match kvGet s.ops id with
  | none => s
  | some o =>
    match o.rsp with
    | none => ctxSettle (opArrive s id st old) o.owner
    | some r =>
      let q := qpGet s r.qpn
      let s1 := { s with ops := kvDel s.ops id }
      if q.state ≠ .ready ∨ q.cepoch ≠ r.cepoch then s1
      else if st = stOk then atomicReply s1 r old
      else sendNak s1 r.qpn { pkt0 with psn := r.psn, msn := r.msn, path := r.path } st
/-- Decision point of an atomic's location: a counter's read, or the 8 bytes themselves (R54). -/
def atomicDp (s : State) (pa : Nat) : Nat :=
  match resolve s pa with
  | .ctr k 0 => k
  | _ => 2 ^ 48 + pa
/-- Apply an operation of number `id` now. -/
def opDo (s : State) (id : Nat) : State :=
  match kvGet s.ops id with
  | none => s
  | some o =>
    let r := opApply s o
    opFinish r.2.2 id r.1 r.2.1
/-- FETCH_ADD and CMP_SWAP: applied once, under STRICT in tag order (R54, R344). -/
def atomicTake (s : State) (n : Nat) (p : Pkt) : State :=
  let cas := p.type = 6
  reqTake s n p (fun s =>
    match (qpGet s n).atomics.find? fun e => e.1 = p.psn with
    | some e => xmit s n { e.2 with flags := e.2.flags ||| 2 }
    | none => promptAck s n p true) fun s =>
    let q := qpGet s n
    match reqCheck s q p.key p.offset.toNat 8 { right := 2, reads := true, writes := true, align := 8 } (offersWait q) with
    | .ok _ _ ps =>
      let id := s.nextOp
      let o : RemoteOp := {
        owner := 0, tile := 0, job := q.job, priv := 0, tag := p.tag, kind := if cas then .rcas else .rfadd, pieces := ps, len := 8, val := p.value
        cmp := BitVec.ofNat 64 (leNat (sub p.payload 0 8)), rsp := some { qpn := n, psn := p.psn, msn := p.msn, path := p.path, cepoch := q.cepoch } }
      let strict := pTagged p && strictJob s q.job
      let s1 := msgQuiet (reqMark { s with ops := kvSet s.ops id (if strict then { o with arrived := true } else { o with job := if pTagged p then q.job else 0xFFFF }), nextOp := id + 1 } n p.psn) n p.msn
      let dp := atomicDp s ((ps.map (·.1)).getD 0 0)
      let s2 := if strict then dpAdd s1 dp { src := qpSrc n, tag := p.tag, job := q.job, strict := true, since := s.now, op := some id } else opDo s1 id
      ackNew s2 n p
    | o => reqFail s n p o true
/-- COUNTER_ADD (R363). -/
def counterTake (s : State) (n : Nat) (p : Pkt) : State :=
  reqTake s n p (fun s => promptAck s n p true) fun s =>
    let q := qpGet s n
    match reqCheck s q p.key p.offset.toNat 8 { right := 3, reads := false, writes := false, align := 64 } (offersWait q) with
    | .ok _ r _ =>
      let k := (r.base + p.offset.toNat - 0x0F0000000000) / 64
      let s1 := if pTagged p then ctrAddTagged s k p.value p.tag q.job else ctrAdd s k p.value
      ackNew (msgQuiet (reqMark s1 n p.psn) n p.msn) n p
    | o => reqFail s n p o true

/-! ## Responses (R330, R336) -/

/-- A response of this connection to a requester queue pair. -/
def rspTake (s : State) (n : Nat) (p : Pkt) (new : State → State) : State :=
  let q := qpGet s n
  if q.transport ≠ 0 ∨ !qpAlive s n ∨ p.cepoch ≠ q.cepoch then s
  else match psnClass q.rspCum q.rspRecvd p.psn with
    | .dup => promptAck s n p true
    | .beyond => sendNak s n p stSequenceError
    | .new => new s
/-- Place bytes at LOCAL: none where the packet is dropped for a local fault. -/
def localPlace (s : State) (n : Nat) (w : Wreq) (pos : Nat) (b : Bytes) : Option (Status × State) :=
  let m := memOfBytes 0 b
  match w.sink, w.win with
  | some k, _ => some (stOk, { s with sinks := kvUpd s.sinks k fun x => { x with data := memBlit x.data pos b.length m } })
  | none, some a => some (tsWrite s ((a + pos) / 0x400000) ((a + pos) % 0x400000) b.length m)
  | none, none =>
    match wrPieces s w pos b.length .write with
    | .ok ps => some (busWrite s ps m)
    | .deny st => some (0xFFFF, wrViolation s n w st)
    | .fault _ _ => none
/-- The local fault of a response that cannot be placed. -/
def placeFault (s : State) (n : Nat) (w : Wreq) (pos len : Nat) : State :=
  match wrPieces s w pos len .write with
  | .fault va st => localFault s n w va st true
  | _ => s
/-- READ_RESP. -/
def readRspTake (s : State) (n : Nat) (p : Pkt) : State :=
  rspTake s n p fun s =>
    match (qpGet s n).sq.find? fun w => w.started && w.opcode = 3 && w.msn = p.msn with
    | none => ackNew (rspMark s n p.psn) n p
    | some w =>
      let len := p.payload.length
      if w.length < p.mpos.toNat + len ∨ p.mlen.toNat ≠ w.length then sendNak s n p stSequenceError
      else match localPlace s n w p.mpos.toNat p.payload with
        | none => placeFault s n w p.mpos.toNat len
        | some (st, s1) =>
          let s2 := ackNew (rspMark s1 n p.psn) n p
          if st = 0xFFFF then pump s2 n
          else if st ≠ stOk then pump (wrComplete s2 n w st 0) n
          else if w.length ≤ w.placed + len then pump (wrComplete s2 n w stOk 0) n
          else qpUpd s2 n fun q => { q with sq := q.sq.map fun x => if x.ord = w.ord then { x with placed := w.placed + len } else x }
/-- Deliver the old value of an atomic: to gd through its operation, or to LOCAL. -/
def atomicDeliver (s : State) (n : Nat) (w : Wreq) (old : Word) : Option State :=
  if w.op.isSome && !((w.op.bind (kvGet s.ops)).any fun o => o.kind = .qpost) then some (wrComplete s n w stOk old)
  else match localPlace s n w 0 (leBytes 8 old.toNat) with
    | none => none
    | some (st, s1) => some (if st = 0xFFFF then s1 else wrComplete s1 n w st old)
/-- ATOMIC_RESP. -/
def atomicRspTake (s : State) (n : Nat) (p : Pkt) : State :=
  rspTake s n p fun s =>
    match (qpGet s n).sq.find? fun w => w.started && (w.opcode = 4 || w.opcode = 5) && w.msn = p.msn with
    | none => ackNew (rspMark s n p.psn) n p
    | some w =>
      match atomicDeliver s n w p.value with
      | none => placeFault s n w 0 8
      | some s1 => pump (ackNew (rspMark s1 n p.psn) n p) n

/-! ## ACK, NAK, FAULT_WAIT (R327, R335, R341, R343) -/

/-- ACK. -/
def ackPktTake (s : State) (n : Nat) (p : Pkt) : State :=
  let q := qpGet s n
  if !qpAlive s n ∨ p.cepoch ≠ q.cepoch ∨ p.payload.length ≠ 48 ∨ 2 ≤ q.transport.toNat then s
  else if q.transport = 0 then pump (ackTake s n false p) n
  else rspRun (ackTake s n true p) n
/-- The NAK statuses that are protection violations (R327). -/
def nakViolates (st : Status) : Bool := st = stKeyMismatch || st = stRightsDenied || st = stPkeyDenied || st = stOutOfBounds
/-- NAK. -/
def nakTake (s : State) (n : Nat) (p : Pkt) : State :=
  let q := qpGet s n
  let st : Status := p.aux.setWidth 16
  if !qpAlive s n ∨ p.cepoch ≠ q.cepoch ∨ 2 ≤ q.transport.toNat then s
  else if st = stSequenceError then
    match (flightsOf q (q.transport = 1)).find? fun f => f.pkt.psn = p.psn with
    | some f => qpFail s n (fun w => w.ord = f.ord) stSequenceError p.psn
    | none => s
  else if q.transport = 1 then s
  else
    let s1 := qpUpd s n fun q => { q with flights := q.flights.filter fun f => f.pkt.psn ≠ p.psn }
    match q.sq.find? fun w => w.started && w.msn = p.msn with
    | none => pump s1 n
    | some w => pump (if nakViolates st then wrViolation s1 n w st else wrComplete s1 n w st 0) n
/-- FAULT_WAIT. -/
def faultWaitTake (s : State) (n : Nat) (p : Pkt) : State :=
  let q := qpGet s n
  let delay := p.aux.toNat / 2 ^ 16
  if !qpAlive s n || p.cepoch ≠ q.cepoch || !offersWait q then s
  else qpUpd s n fun q => { q with flights := q.flights.map fun f =>
    if f.pkt.psn = p.psn then { f with waitUntil := some (s.now + BitVec.ofNat 64 (delay * 1000)), waitFirst := some (f.waitFirst.getD s.now) } else f }

/-! ## Control packets (R340, R346-R349, R352) -/

/-- Header fields and length of a control packet (R349). -/
def ctlOk (p : Pkt) (len : Nat) : Bool :=
  p.psn = 0 && p.msn = 0 && p.offset = 0 && p.key = 0 && p.mlen = 0 && p.mpos = 0 && p.value = 0 && p.payload.length = len && (pTagged p = decide (p.type = 0x13))
/-- Bytes `[i, j)` of a payload are zero. -/
def payZero (p : Pkt) (i j : Nat) : Bool := subNat p.payload i (j - i) = 0
/-- A control packet of a standing connection. -/
def ctlHere (s : State) (n : Nat) (p : Pkt) : Bool := qpConnected (qpGet s n) && p.cepoch = (qpGet s n).cepoch
/-- FRONTIER. -/
def frontierTake (s : State) (n : Nat) (p : Pkt) : State :=
  if ctlOk p 0 && p.tag = 0 && ctlHere s n p then rspRun (frontTake s n p) n else s
/-- The highest version of a range that the device supports (R346, R350). -/
def versionPick (lo hi : BitVec 8) : Option (BitVec 8) := ([0x20, 0x11, 0x10] : List (BitVec 8)).find? fun v => decide (lo.toNat ≤ v.toNat ∧ v.toNat ≤ hi.toNat)
/-- Payload of CONNECT_RESP (R349). -/
def respBody (qpn service version mtu paths cepoch : Nat) : Bytes :=
  leBytes 4 qpn ++ leBytes 4 service ++ [BitVec.ofNat 8 version, 0x20, BitVec.ofNat 8 mtu, BitVec.ofNat 8 paths, 1, 0] ++ leBytes 2 cepoch ++ zeros 16
/-- Refuse a CONNECT_REQ: no queue pair of this device stands behind the answer. MTU_LOG2, PATHS and RSP_CEPOCH of a refusal have no value in the manual (log 45). -/
def connectRefuse (s : State) (p : Pkt) (st : Status) : State :=
  let h := neighFind s p.srcIp
  let v := freeVersion h.2
  let free := fun k => (Config.freeByte (v.2.freeCtr + k)).toNat
  let s1 := { v.2 with freeCtr := v.2.freeCtr + 4 }
  match h.1 with
  | none => portCount s1 p.port.toNat 14 1
  | some hop =>
    let b := respBody 0 (subNat p.payload 4 4) 0 (free 0) (free 1) ((free 2 + 256 * free 3) % 4096)
    let r := { pkt0 with
      version := v.1, type := 0x21, dqpn := BitVec.ofNat 20 (subNat p.payload 0 4), cepoch := BitVec.ofNat 12 (subNat p.payload 14 2), plen := 32
      aux := st.setWidth 32, txtime := s.now, payload := b, hop := 64, port := p.port }
    portSend s1 p.port.toNat 0 (frameLen p.srcIp (bitOf (hop / 2 ^ 48) 12) ((pktBody r).length + 4)) (.frerak 0 p.srcIp { r with crc := BitVec.ofNat 32 (crc32c (pktBody r)) })
/-- Send, or send again, the CONNECT_RESP of an accepted connection. -/
def connectAnswer (s : State) (n : Nat) : State :=
  let q := qpGet s n
  qpXmit s n { pkt0 with type := 0x21, payload := respBody n q.service.toNat q.version.toNat q.mtuLog2 q.paths q.cepoch.toNat }
/-- A connection ends from the peer's side: work in flight fails with REMOTE_ABORTED, else the queue pair is at rest again (R347). -/
def peerEnded (s : State) (n : Nat) : State :=
  let s1 := connClosed s n
  if (qpGet s n).sq.any fun w => w.started then qpFail s1 n (fun _ => true) stRemoteAborted 0
  else frontDrop (qpUpd s1 n fun q => qpDrop q (qpRest q)) (qpSrc n)
/-- CONNECT_REQ (R346, R349). -/
def connectReqTake (s : State) (p : Pkt) : State :=
  let srcQ := BitVec.ofNat 32 (subNat p.payload 0 4)
  let svc := BitVec.ofNat 32 (subNat p.payload 4 4)
  let ce := BitVec.ofNat 12 (subNat p.payload 14 2)
  let mtu := subNat p.payload 10 1
  let paths := subNat p.payload 11 1
  if !ctlOk p 32 || p.dqpn ≠ 0 || !payZero p 13 14 || !payZero p 16 32 || decide (2 ^ 20 ≤ srcQ.toNat) || decide (2 ^ 12 ≤ subNat p.payload 14 2) ||
    !decide (10 ≤ mtu ∧ mtu ≤ 12) || !decide (1 ≤ paths ∧ paths ≤ 64) then s
  else match s.qps.find? fun e => e.2.answered = some (p.srcIp, srcQ, ce) && qpConnected e.2 with
    | some e => connectAnswer s e.1
    | none =>
      let s1 := (s.qps.filter fun e => qpConnected e.2 && e.2.answered.any fun a => a.1 = p.srcIp && a.2.1 = srcQ).foldl (fun s e => peerEnded s e.1) s
      match s1.qps.find? fun e => e.2.state = .listen && e.2.service = svc with
      | none => connectRefuse s1 p stServiceRefused
      | some e =>
        match versionPick (p.payload.getD 8 0) (p.payload.getD 9 0) with
        | none => connectRefuse s1 p stVersionUnsupported
        | some v =>
          let n := e.1
          let h := neighLook (qpResident s1 n) p.srcIp e.2.port.toNat
          let np := if v = 0x10 then 1 else min paths e.2.pathsCfg
          let s2 := qpUpd h.2 n fun q => {
            q with
            state := .ready, version := v, peerQpn := srcQ, cepoch := q.cepoch + 1, peerCepoch := ce, peerIp := p.srcIp, peerKind := p.payload.getD 12 0
            mtuLog2 := min mtu q.mtuCfg, paths := np, pathTab := pathFresh np, nextHop := h.1, answered := some (p.srcIp, srcQ, ce), lastWork := s.now }
          let s3 := if v = 0x20 then frontSet s2 (qpSrc n) e.2.job 0 else s2
          connectAnswer (raise s3 7 0 n (beBytes 16 p.srcIp.toNat)) n
/-- CONNECT_RESP (R346, R348, R349). -/
def connectRespTake (s : State) (n : Nat) (p : Pkt) : State :=
  let q := qpGet s n
  let st : Status := p.aux.setWidth 16
  if !ctlOk p 32 || !payZero p 13 14 || !payZero p 16 32 || decide (2 ^ 12 ≤ subNat p.payload 14 2) || q.state ≠ .connecting || p.cepoch ≠ q.cepoch ||
    subNat p.payload 4 4 ≠ q.service.toNat then s
  else if st ≠ stOk then
    (if (st = stServiceRefused ∨ st = stVersionUnsupported) ∧ subNat p.payload 0 4 = 0 ∧ payZero p 8 9 then qpFail s n (fun _ => true) st 0 else s)
  else
    let v := p.payload.getD 8 0
    let mtu := subNat p.payload 10 1
    let np := subNat p.payload 11 1
    if versionPick v v ≠ some v ∨ !decide (10 ≤ mtu ∧ mtu ≤ q.mtuCfg) ∨ !decide (1 ≤ np ∧ np ≤ q.pathsCfg) ∨ 2 ^ 20 ≤ subNat p.payload 0 4 then s
    else
      let s1 := qpUpd s n fun q => {
        q with
        state := .ready, version := v, peerQpn := BitVec.ofNat 32 (subNat p.payload 0 4), peerCepoch := BitVec.ofNat 12 (subNat p.payload 14 2)
        peerKind := p.payload.getD 12 0, mtuLog2 := mtu, paths := np, pathTab := pathFresh np, links := some (q.links.getD (65 - p.hop.toNat)), attempts := 0, lastWork := s.now }
      s1
/-- CLOSE (R347, R349). -/
def closeTake (s : State) (n : Nat) (p : Pkt) : State :=
  let r := subNat p.payload 0 2
  if ctlOk p 8 && payZero p 2 8 && decide (1 ≤ r ∧ r ≤ 4) && ctlHere s n p then peerEnded s n else s
/-- PROBE. -/
def probeTake (s : State) (n : Nat) (p : Pkt) : State :=
  if ctlOk p 0 && ctlHere s n p then qpXmit s n { pkt0 with type := 0x24, path := p.path, payload := leBytes 8 p.txtime.toNat } else s
/-- PROBE_RESP: the failed path lives again (R352). -/
def probeRespTake (s : State) (n : Nat) (p : Pkt) : State :=
  let q := qpGet s n
  let k := p.path.toNat
  if ctlOk p 8 && ctlHere s n p && decide (k < q.paths) && !(pathGet q k).live then
    pump (raise (qpUpd s n fun q => { q with pathTab := listSet q.pathTab k { pathGet q k with live := true, expiries := 0 } }) 5 0 n [BitVec.ofNat 8 k]) n
  else s

/-! ## Arrival (R318, R338, R390) -/

/-- A packet for queue pair n: dropped when there is none, held while the context is fetched (R318). -/
def qpEnter (s : State) (n : Nat) (hold : Qp → Qp) (f : State → State) : State :=
  let q := qpGet s n
  if q.state = .free then s
  else if q.resident then f (qpResident s n)
  else qpUpd s n fun q => { hold q with holdSince := some (q.holdSince.getD s.now) }
/-- Handle a packet by its type. -/
def pktHandle (s : State) (p : Pkt) : State :=
  let n := p.dqpn.toNat
  if !pktGood p then s
  else if p.type = 0x20 then connectReqTake s p
  else qpEnter s n (fun q => { q with heldPkts := q.heldPkts ++ [p] }) fun s =>
    match p.type.toNat with
    | 0x01 | 0x02 => writeTake s n p
    | 0x03 => readTake s n p
    | 0x04 => readRspTake s n p
    | 0x05 | 0x06 => atomicTake s n p
    | 0x07 => atomicRspTake s n p
    | 0x08 => counterTake s n p
    | 0x10 => ackPktTake s n p
    | 0x11 => nakTake s n p
    | 0x12 => faultWaitTake s n p
    | 0x13 => frontierTake s n p
    | 0x21 => connectRespTake s n p
    | 0x22 => closeTake s n p
    | 0x23 => probeTake s n p
    | 0x24 => probeRespTake s n p
    | _ => s
/-- Count a received frame (R398); a port that is not UP receives nothing (R386). -/
def rxFrame (s : State) (port n : Nat) (f : State → State) : State :=
  if (portGet s port).state = 2 then f (portCount (portCount s port 2 1) port 3 n) else s
/-- A Frerak packet of one of the given types arrives at its port. -/
def pktArrive (s : State) (p : Pkt) (type : Nat) : State :=
  if p.type.toNat = type then rxFrame s p.port.toNat (frameLen p.srcIp false ((pktBody p).length + 4)) fun s => pktHandle s p else s
/-- WRITE. -/
def execWritePacket (p : Pkt) (s : State) : Out_ := .next (pktArrive s p 0x01)
/-- WRITE_IMM. -/
def execWriteImmPacket (p : Pkt) (s : State) : Out_ := .next (pktArrive s p 0x02)
/-- READ_REQ. -/
def execReadReqPacket (p : Pkt) (s : State) : Out_ := .next (pktArrive s p 0x03)
/-- READ_RESP. -/
def execReadRespPacket (p : Pkt) (s : State) : Out_ := .next (pktArrive s p 0x04)
/-- FETCH_ADD. -/
def execFetchAddPacket (p : Pkt) (s : State) : Out_ := .next (pktArrive s p 0x05)
/-- CMP_SWAP. -/
def execCmpSwapPacket (p : Pkt) (s : State) : Out_ := .next (pktArrive s p 0x06)
/-- ATOMIC_RESP. -/
def execAtomicRespPacket (p : Pkt) (s : State) : Out_ := .next (pktArrive s p 0x07)
/-- COUNTER_ADD. -/
def execCounterAddPacket (p : Pkt) (s : State) : Out_ := .next (pktArrive s p 0x08)
/-- ACK. -/
def execAckPacket (p : Pkt) (s : State) : Out_ := .next (pktArrive s p 0x10)
/-- NAK. -/
def execNakPacket (p : Pkt) (s : State) : Out_ := .next (pktArrive s p 0x11)
/-- FAULT_WAIT. -/
def execFaultWaitPacket (p : Pkt) (s : State) : Out_ := .next (pktArrive s p 0x12)
/-- FRONTIER. -/
def execFrontierPacket (p : Pkt) (s : State) : Out_ := .next (pktArrive s p 0x13)
/-- CONNECT_REQ. -/
def execConnectReqPacket (p : Pkt) (s : State) : Out_ := .next (pktArrive s p 0x20)
/-- CONNECT_RESP. -/
def execConnectRespPacket (p : Pkt) (s : State) : Out_ := .next (pktArrive s p 0x21)
/-- CLOSE. -/
def execClosePacket (p : Pkt) (s : State) : Out_ := .next (pktArrive s p 0x22)
/-- PROBE. -/
def execProbePacket (p : Pkt) (s : State) : Out_ := .next (pktArrive s p 0x23)
/-- PROBE_RESP. -/
def execProbeRespPacket (p : Pkt) (s : State) : Out_ := .next (pktArrive s p 0x24)

end Sys2Proof.Machine
end

