-- ==== Sys2Proof/Machine/Roce.lean ====
section
/-! DEFINITION. RoCE v2 packets of the reliable connected service (R334, R354, R355): requests in PSN order, responses, acknowledgements, RNR NAKs and congestion notification. What the manual takes from the InfiniBand specification is PRESUMED (log 46). -/

namespace Sys2Proof.Machine

/-- A 24-bit PSN as it is held. -/
def rPsn (p : RocePkt) : BitVec 32 := p.psn.setWidth 32
/-- A packet without an operation's fields. -/
def roce0 (q : Qp) (op : RoceOp) (psn : BitVec 32) : RocePkt :=
  { op := op, first := true, last := true, dqpn := q.peerQpn.setWidth 24, psn := psn.setWidth 24, va := 0, rkey := 0, dmaLen := 0, imm := 0, swapAdd := 0, compare := 0, payload := [] }
/-- Answer with a packet of an operation and a PSN. -/
def roceSay (s : State) (n : Nat) (op : RoceOp) (psn : BitVec 32) : State := roceXmit s n (roce0 (qpGet s n) op psn)

/-! ## Responder -/

/-- The request PSNs move on by `k`. -/
def roceNext (s : State) (n k : Nat) : State := qpUpd s n fun q => { q with cum := psnPlus q q.cum k, lastWork := s.now }
/-- Classify a request PSN: expected, behind, or ahead. -/
def roceClass (q : Qp) (psn : BitVec 32) : PsnClass :=
  let d := psnGap q q.cum psn
  if d = 0 then .new else if 2 ^ 23 ≤ d then .dup else .beyond
/-- Acknowledge everything before the expected PSN. -/
def roceAck (s : State) (n : Nat) : State := let q := qpGet s n; roceSay s n .ack (psnPlus q q.cum (2 ^ 24 - 1))
/-- NAK of a failed check: a remote access error. A partial message is forgotten. -/
def roceDeny (s : State) (n : Nat) (op : RoceOp) (psn : BitVec 32) : State := roceSay (qpUpd s n fun q => { q with msgs := [] }) n op psn
/-- RDMA WRITE, with or without immediate. -/
def roceWrite (s : State) (n : Nat) (p : RocePkt) : State :=
  let q := qpGet s n
  let len := p.payload.length
  let m0 : Option MsgRec :=
    if p.first then some { msn := 0, mlen := p.dmaLen.toNat, placed := 0, offset := p.va.toNat, imm := none, key := p.rkey, tag := 0, tagged := false, roce := true }
    else q.msgs.head?
  match m0 with
  | none => roceDeny s n .nakOp (rPsn p)
  | some m =>
    let imm := p.op = .writeImm && p.last
    if m.mlen < m.placed + len ∨ (p.last = true ∧ m.placed + len ≠ m.mlen) then roceDeny s n .nakOp (rPsn p)
    else match reqCheck s q m.key (m.offset + m.placed) len { right := 1, reads := false, writes := true, imm := imm } false with
      | .ok _ _ ps =>
        let m1 := { m with placed := m.placed + len, imm := if imm then some ((p.imm.setWidth 64)) else none }
        let full := match notifyRing s m1 with
          | some r => notifyFull s r
          | none => (false, s)
        if full.1 then roceSay full.2 n .rnr (rPsn p)
        else
          let w := busWrite full.2 ps (memOfBytes 0 p.payload)
          if w.1 ≠ stOk then roceDeny w.2 n .nakOp (rPsn p)
          else
            let s1 := roceNext (qpUpd w.2 n fun q => { q with msgs := if p.last then [] else [m1] }) n 1
            if !p.last then s1
            else
              let s2 := if !imm then s1
                else notifyAdd (match notifyRing s1 m1 with
                  | some r => ringAppend s1 r 1 (notifyEntry n m1)
                  | none => s1) n m1
              roceAck s2 n
      | _ => roceDeny s n .nakAccess (rPsn p)
/-- Answer an RDMA READ with its packets; a duplicate is answered anew. -/
def roceRead (s : State) (n : Nat) (p : RocePkt) (new : Bool) : State :=
  let q := qpGet s n
  let len := p.dmaLen.toNat
  let k := max 1 (ceilDiv len (2 ^ q.mtuLog2))
  match reqCheck s q p.rkey p.va.toNat len { right := 0, reads := true, writes := false } false with
  | .ok _ _ ps =>
    let d := busRead s (ctrGet s) ps
    if d.1 ≠ stOk then roceDeny d.2.2 n .nakOp (rPsn p)
    else
      let s1 := if new then roceNext d.2.2 n k else d.2.2
      (List.range k).foldl (fun s i =>
        let at_ := i * 2 ^ q.mtuLog2
        roceXmit s n { roce0 q .readResp (psnPlus q (rPsn p) i) with
          first := i = 0, last := decide (i + 1 = k), payload := memBytes (memSlice d.2.1 at_ (len - at_)) 0 (min (2 ^ q.mtuLog2) (len - at_)) }) s1
  | _ => roceDeny s n .nakAccess (rPsn p)
/-- FetchAdd and CmpSwap. -/
def roceAtomic (s : State) (n : Nat) (p : RocePkt) : State :=
  let q := qpGet s n
  match reqCheck s q p.rkey p.va.toNat 8 { right := 2, reads := true, writes := true, align := 8 } false with
  | .ok _ _ ps =>
    let o : RemoteOp := {
      owner := 0, tile := 0, job := 0xFFFF, priv := 0, tag := 0, kind := if p.op = .cmpSwap then .rcas else .rfadd, pieces := ps, len := 8, val := p.swapAdd, cmp := p.compare }
    let r := opApply s o
    if r.1 ≠ stOk then roceDeny r.2.2 n .nakOp (rPsn p)
    else
      let kept := { pkt0 with type := 7, psn := rPsn p, value := r.2.1, mlen := 8 }
      let s1 := qpUpd (roceNext r.2.2 n 1) n fun q => { q with atomics := (q.atomics ++ [(rPsn p, kept)]).drop (q.atomics.length - 15) }
      xmit s1 n kept
  | .nak st => roceDeny s n (if st = stMisaligned then .nakOp else .nakAccess) (rPsn p)
  | _ => roceDeny s n .nakAccess (rPsn p)
/-- A duplicate request. -/
def roceDup (s : State) (n : Nat) (p : RocePkt) : State :=
  match p.op with
  | .readReq => roceRead s n p false
  | .fetchAdd | .cmpSwap =>
    match (qpGet s n).atomics.find? fun e => e.1 = rPsn p with
    | some e => xmit s n e.2
    | none => s
  | _ => roceAck s n
/-- A request: in PSN order alone. -/
def roceRequest (s : State) (n : Nat) (p : RocePkt) : State :=
  let q := qpGet s n
  match roceClass q (rPsn p) with
  | .beyond => roceSay s n .nakSeq q.cum
  | .dup => roceDup s n p
  | .new =>
    match p.op with
    | .readReq => roceRead s n p true
    | .fetchAdd | .cmpSwap => roceAtomic s n p
    | _ => roceWrite s n p

/-! ## Requester -/

/-- Everything before `psn` is acknowledged; `incl` counts `psn` itself. Reads and atomics stay until their answer. -/
def roceAcked (s : State) (n : Nat) (psn : BitVec 32) (incl : Bool) : State :=
  let q := qpGet s n
  let upto := fun (f : Flight) => let d := psnGap q f.pkt.psn psn; decide (d < 2 ^ 23) && (incl || d ≠ 0)
  let answered := fun (f : Flight) => (q.sq.all fun w => w.ord ≠ f.ord || !wrIsRead w)
  wrsAcked (qpUpd s n fun q => { q with
    flights := q.flights.filter fun f => !(upto f && answered f), pathTab := listSet q.pathTab 0 { pathGet q 0 with expiries := 0 } }) n
/-- The flight whose PSNs include `psn`. -/
def roceFlight (s : State) (n : Nat) (psn : BitVec 32) : Option (Flight × Wreq) :=
  let q := qpGet s n
  q.flights.findSome? fun f => (q.sq.find? fun w => w.ord = f.ord && decide (psnGap q f.pkt.psn psn < psnTake q w)).map fun w => (f, w)
/-- A flight has its answer. -/
def roceGone (s : State) (n : Nat) (f : Flight) : State := qpUpd s n fun q => { q with flights := q.flights.filter fun x => x.pkt.psn ≠ f.pkt.psn }
/-- READ response. -/
def roceReadResp (s : State) (n : Nat) (p : RocePkt) : State :=
  let q := qpGet s n
  match roceFlight s n (rPsn p) with
  | some (f, w) =>
    let pos := psnGap q f.pkt.psn (rPsn p) * 2 ^ q.mtuLog2
    let len := p.payload.length
    if w.opcode ≠ 3 ∨ w.placed < pos ∨ w.length < pos + len then s
    else
      let s1 := roceAcked s n f.pkt.psn false
      match localPlace s1 n w pos p.payload with
      | none => placeFault s1 n w pos len
      | some (st, s2) =>
        if st = 0xFFFF then roceGone s2 n f
        else if st ≠ stOk then wrComplete (roceGone s2 n f) n w st 0
        else if w.length ≤ pos + len then wrComplete (roceGone s2 n f) n w stOk 0
        else qpUpd s2 n fun q => { q with sq := q.sq.map fun x => if x.ord = w.ord then { x with placed := max w.placed (pos + len) } else x }
  | none => s
/-- Atomic response: the old value stands where requests carry theirs. -/
def roceAtomicResp (s : State) (n : Nat) (p : RocePkt) : State :=
  match roceFlight s n (rPsn p) with
  | some (f, w) =>
    if w.opcode ≠ 4 ∧ w.opcode ≠ 5 then s
    else
      let s1 := roceAcked s n f.pkt.psn false
      match atomicDeliver s1 n w p.swapAdd with
      | some s2 => roceGone s2 n f
      | none => placeFault s1 n w 0 8
  | none => s
/-- A NAK ends its work request and the queue pair; the status a RoCE NAK stands for is free among those of its kind (log 46). -/
def roceNak (s : State) (n : Nat) (psn : BitVec 32) (access : Bool) : State :=
  let s1 := roceAcked s n psn false
  let k := (Config.freeByte s1.freeCtr).toNat % 4
  let s2 := { s1 with freeCtr := s1.freeCtr + 1 }
  let st := (if access then [stKeyMismatch, stRightsDenied, stPkeyDenied, stOutOfBounds] else [stMisaligned, stSequenceError, stUncSector, stAddrMismatch]).getD k stKeyMismatch
  match roceFlight s2 n psn with
  | some (_, w) =>
    if access then qpFail (wrViolation s2 n w st) n (fun _ => false) stQpFatal psn
    else qpFail s2 n (fun x => x.ord = w.ord) st psn
  | none => s
/-- Go back to `psn`: every packet from it on is sent again (R354). -/
def roceBack (s : State) (n : Nat) (psn : BitVec 32) : State :=
  let s1 := roceAcked s n psn false
  let q := qpGet s1 n
  flightsResend s1 n false (q.flights.filter fun f => decide (psnGap q psn f.pkt.psn < 2 ^ 23)) true
/-- RNR NAK: the packets from `psn` on wait for their resend. -/
def roceRnr (s : State) (n : Nat) (psn : BitVec 32) : State :=
  let s1 := roceAcked s n psn false
  qpUpd s1 n fun q => { q with flights := q.flights.map fun f => if psnGap q psn f.pkt.psn < 2 ^ 23 then { f with waitUntil := some s.now } else f }
/-- A congestion notification packet reduces the rate: by how much is free (log 46), within the bound of a window. -/
def roceCnp (s : State) (n : Nat) : State :=
  let w := (pathGet (qpGet s n) 0).window
  let v := max 4096 ((Config.freeWord s.freeCtr).toNat % w)
  qpUpd { s with freeCtr := s.freeCtr + 1 } n fun q => { q with pathTab := listSet q.pathTab 0 { pathGet q 0 with window := min w v } }

/-! ## Arrival -/

/-- Handle a RoCE v2 packet of a queue pair. -/
def roceHandle (s : State) (p : RocePkt) : State :=
  let n := p.dqpn.toNat
  let q := qpGet s n
  if !qpRoce q then s
  else qpEnter s n (fun q => { q with heldRoce := q.heldRoce ++ [p] }) fun s =>
    if !qpAlive s n then s
    else match p.op with
      | .readResp => pump (roceReadResp s n p) n
      | .atomicResp => pump (roceAtomicResp s n p) n
      | .ack => pump (roceAcked s n (rPsn p) true) n
      | .nakSeq => pump (roceBack s n (rPsn p)) n
      | .nakAccess => roceNak s n (rPsn p) true
      | .nakOp => roceNak s n (rPsn p) false
      | .rnr => roceRnr s n (rPsn p)
      | .cnp => roceCnp s n
      | .write | .writeImm | .readReq | .fetchAdd | .cmpSwap => roceRequest s n p
/-- ROCE_V2_PACKET. -/
def execRoceV2Packet (p : RocePkt) (s : State) : Out_ :=
  let q := qpGet s p.dqpn.toNat
  .next (rxFrame s q.port.toNat (frameLen q.peerIp false (p.payload.length + 16)) fun s => roceHandle s p)

/-! ## Held packets (R318) -/

/-- QP_CONTEXT_FETCH: the context is resident, and what waited for it is handled in order of arrival. -/
def execQpContextFetch (qpn : BitVec 20) (s : State) : Out_ :=
  let n := qpn.toNat
  let q := qpGet s n
  if q.state = .free ∨ q.resident then .next s
  else
    let s1 := qpResident (qpUpd s n fun q => { q with heldPkts := [], heldRoce := [] }) n
    .next (q.heldRoce.foldl roceHandle (q.heldPkts.foldl pktHandle s1))
/-- QP_HOLD_EXPIRY: packets held for a context are dropped unacknowledged. -/
def execQpHoldExpiry (qpn : BitVec 20) (s : State) : Out_ :=
  let n := qpn.toNat
  if (qpGet s n).holdSince.isSome then .next (qpUpd s n fun q => { q with heldPkts := [], heldRoce := [], holdSince := none }) else .next s

end Sys2Proof.Machine
end

