-- ==== Sys2Proof/Machine/RemoteDone.lean ====
section
/-! DEFINITION. Remote operations at their targets (R91-R96), rejections, and the decision points (R54-R56). -/

namespace Sys2Proof.Machine

/-- Decision point that an operation of a STRICT job goes to: an atomic's location, a counter that a read touches, a UCB's command (R54). -/
def opDp (s : State) (o : RemoteOp) : Option Nat :=
  if !strictJob s o.job then none
  else match o.kind with
    | .rfadd | .rcas => some (atomicDp s ((o.pieces.map (·.1)).getD 0 0))
    | .rget => (busCtrs s o.pieces).head?
    | .rput | .rputi => ((busCmds s o.pieces).head?).map (2 ^ 20 + ·)
    | .sadd | .qpost => none
/-- An SADD's add waits for every operation its context issued before it (R91), and under STRICT for room in the add store (R368). -/
def saddWaits (s : State) (id : Nat) (o : RemoteOp) : Bool :=
  o.kind = .sadd && (opsBefore s id o || (strictJob s o.job && decide (65536 ≤ s.adds.length)))
/-- A local-route operation reaches its target: it is applied, or waits at its decision point. -/
def opReach (s : State) (id : Nat) : State :=
  match kvGet s.ops id with
  | none => s
  | some o =>
    if o.done || o.arrived || o.result.isSome || o.qpn.isSome || o.rsp.isSome || saddWaits s id o then s
    else match opDp s o with
      | some dp => dpAdd { s with ops := kvSet s.ops id { o with arrived := true } } dp { src := opSrc s o, tag := o.tag, job := o.job, strict := true, since := s.now, op := some id }
      | none => opDo s id
/-- REMOTE_OP_COMPLETE. -/
def execRemoteOpComplete (op : Nat) (s : State) : Out_ := .next (opReach s op)
/-- REMOTE_REJECTION (R95, R96): the target's answer to a remote-route operation. -/
def execRemoteRejection (op : Nat) (st : Status) (s : State) : Out_ :=
  if st = stOk then .next s
  else match (kvGet s.ops op).bind (·.qpn) with
    | none => .next s
    | some n =>
      match (qpGet s n).sq.find? fun w => w.op = some op with
      | some w => .next (if nakViolates st then wrViolation s n w st else wrComplete s n w st 0)
      | none => .next s

/-! ## Decision points (R54-R57) -/

/-- BATCH, PHASE, ITEM and STEP of a tag, without ORIGIN. -/
def tagCore (t : Tag) : Nat := t.toNat / 16
/-- The request to serve first: least tag, then ORIGIN, then source index (R55, R56). -/
def dpLeast (q : List DpReq) : Option DpReq :=
  q.foldl (fun b r => match b with
    | none => some r
    | some x => if r.tag.toNat < x.tag.toNat ∨ (r.tag = x.tag ∧ r.src < x.src) then some r else b) none
/-- Every input without a request present has a frontier above `t` (R55). -/
def dpClear (s : State) (q : List DpReq) (j : BitVec 16) (t : Tag) : Bool :=
  frontsAbove { s with fronts := s.fronts.filter fun f => !(q.any fun r => r.src = f.1) } j t
/-- An operation of the job with a lower tag is still on its way to the same point. -/
def dpComing (s : State) (dp : Nat) (j : BitVec 16) (t : Tag) : Bool :=
  s.ops.any fun e => e.2.job = j && !e.2.done && !e.2.arrived && e.2.qpn.isNone && e.2.rsp.isNone && e.2.result.isNone && decide (e.2.tag.toNat < t.toNat) && opDp s e.2 = some dp
/-- The request can be served now: at a counter every add below its tag is settled (R367), at a ring there is room (R334), elsewhere R55 alone. -/
def dpReady (s : State) (dp : Nat) (q : List DpReq) (r : DpReq) : Bool × State :=
  if dp < 2 ^ 17 then (addsSettled s r.job r.src r.tag, s)
  else
    let ok := dpClear s q r.job r.tag && !dpComing s dp r.job r.tag
    if 2 ^ 19 ≤ dp ∧ dp < 2 ^ 20 then
      let x := ringGet s (dp - 2 ^ 19)
      (ok && !(decide (x.1.kind ≠ 0) && ringFull x.1), x.2)
    else (ok, s)
/-- Equal tags of different sources met: COLLIDED and the event for the one served second (R56). -/
def dpCollide (s : State) (dp : Nat) (q : List DpReq) (r : DpReq) : State :=
  match q.find? fun x => tagCore x.tag = tagCore r.tag && x.src ≠ r.src with
  | some x => deviceError { s with pace := { s.pace with collided := true } } stOrderCollision (dpUnit dp) (orderDetail r.tag x.src)
  | none => s
/-- A request leaves its decision point; STALLED shows whether any other still waits past the limit (R57). -/
def dpTake (s : State) (dp : Nat) (r : DpReq) : State :=
  let s1 := { s with dps := kvUpd s.dps dp fun q => q.erase r }
  let any := (s1.dps.any fun e => e.2.any fun x => x.stalled) || s1.cul.pools.any fun e => e.2.waiters.any fun w => w.stalled
  { s1 with pace := { s1.pace with stalled := any } }
/-- Serve an append: the entry, and for a notification its add and acknowledgement (R332). -/
def dpAppend (s : State) (r : DpReq) : State :=
  let s1 := ringAppend s r.ring (if r.msg.isSome then 1 else 2) r.entry
  match r.msg with
  | none => s1
  | some (n, msn) =>
    match (msgFind (qpGet s1 n) msn).filter fun m => m.queued with
    | some m => notify (notifyAck (notifyAdd s1 n m) n { m with queued := false }) n
    | none => s1
/-- Serve a request. -/
def dpRun (s : State) (r : DpReq) : State :=
  match r.op with
  | some id => opDo s id
  | none => if r.entry.isEmpty then s else dpAppend s r
/-- Go on with the remote reads that waited for a counter's adds (R367). -/
def readsGo (s : State) : State := s.qps.foldl (fun s e => if e.2.rspJobs.isEmpty then s else rspRun s e.1) s
/-- DECISION_POINT_SERVE (R55): the request with the least tag, once nothing lower can come. Waits on counters (SWAIT, gates) are no entry here: they end with their own rows. -/
def execDecisionPointServe (dp : Nat) (s : State) : Out_ :=
  let q := (kvGet s.dps dp).getD []
  match dpLeast (q.filter fun r => r.op.isSome || !r.entry.isEmpty) with
  | none => .next (if dp < 2 ^ 17 then readsGo s else s)
  | some r =>
    let k := dpReady s dp q r
    if k.1 then
      let s1 := dpRun (dpTake (dpCollide k.2 dp q r) dp r) r
      .next (if dp < 2 ^ 17 then readsGo s1 else s1)
    else .next k.2

end Sys2Proof.Machine
end

