-- ==== Sys2Proof/Machine/Frames.lean ====
section
/-! DEFINITION. Received Ethernet frames (R338, R390, R392): the address filter, PFC, and steering to the management ring, Frerak and RoCE v2. Frame and header layouts are those of IEEE 802.3, IP, UDP and the InfiniBand specification (PRESUMED, log 46). -/

namespace Sys2Proof.Machine

/-- EtherType of a frame and where what follows it begins; one 802.1Q tag is passed over. -/
def frameType (f : Bytes) : Nat × Nat :=
  let t := beNat (sub f 12 2)
  if t = 0x8100 then (beNat (sub f 16 2), 18) else (t, 14)
/-- What a frame's UDP header shows. -/
structure UdpView where
  srcIp : BitVec 128
  hop : BitVec 8
  dport : Nat
  payload : Bytes
  deriving DecidableEq, Repr
/-- UDP datagram at offset `o` of a packet. -/
def udpAt (b : Bytes) (o : Nat) (src : Nat) (hop : Byte) : UdpView :=
  { srcIp := BitVec.ofNat 128 src, hop := hop, dport := beNat (sub b (o + 2) 2), payload := (b.drop (o + 8)).take (beNat (sub b (o + 4) 2) - 8) }
/-- The UDP datagram of an IPv4 or IPv6 packet. -/
def frameUdp (f : Bytes) : Option UdpView :=
  let t := frameType f
  let b := f.drop t.2
  if t.1 = 0x0800 then
    if b.getD 9 0 = 17 ∧ (b.getD 0 0).toNat / 16 = 4 then some (udpAt b (4 * ((b.getD 0 0).toNat % 16)) (0xFFFF * 2 ^ 32 + beNat (sub b 12 4)) (b.getD 8 0)) else none
  else if t.1 = 0x86DD then
    if b.getD 6 0 = 17 then some (udpAt b 40 (beNat (sub b 8 16)) (b.getD 7 0)) else none
  else none
/-- Operation and place of a reliable-connected opcode, and the bytes of headers behind the base transport header. -/
def roceKind (op : Nat) : Option (RoceOp × Bool × Bool × Nat) :=
  match op with
  | 0x06 => some (.write, true, false, 16)
  | 0x07 => some (.write, false, false, 0)
  | 0x08 => some (.write, false, true, 0)
  | 0x09 => some (.writeImm, false, true, 4)
  | 0x0A => some (.write, true, true, 16)
  | 0x0B => some (.writeImm, true, true, 20)
  | 0x0C => some (.readReq, true, true, 16)
  | 0x0D => some (.readResp, true, false, 4)
  | 0x0E => some (.readResp, false, false, 0)
  | 0x0F => some (.readResp, false, true, 4)
  | 0x10 => some (.readResp, true, true, 4)
  | 0x11 => some (.ack, true, true, 4)
  | 0x12 => some (.atomicResp, true, true, 12)
  | 0x13 => some (.cmpSwap, true, true, 28)
  | 0x14 => some (.fetchAdd, true, true, 28)
  | 0x81 => some (.cnp, true, true, 16)
  | _ => none
/-- What an acknowledge packet's syndrome says. -/
def roceAnswer (syn : Nat) : RoceOp :=
  if syn / 32 = 1 then .rnr
  else if syn / 32 = 3 then (if syn % 32 = 0 then .nakSeq else if syn % 32 = 2 then .nakAccess else .nakOp)
  else .ack
/-- A RoCE v2 packet from a UDP payload. -/
def roceParse (b : Bytes) : Option RocePkt :=
  match roceKind (b.getD 0 0).toNat with
  | none => none
  | some (op, first, last, h) =>
    if b.length < 16 + h then none
    else
      let o := b.drop 12
      let reth := h = 16 ∨ h = 20 ∨ h = 28
      let pad := bitsAt (b.getD 1 0).toNat 4 2
      some {
        op := if op = .ack then roceAnswer (o.getD 0 0).toNat else op
        first := first, last := last, dqpn := BitVec.ofNat 24 (beNat (sub b 5 3)), psn := BitVec.ofNat 24 (beNat (sub b 9 3))
        va := if reth then BitVec.ofNat 64 (beNat (sub o 0 8)) else 0, rkey := if reth then BitVec.ofNat 32 (beNat (sub o 8 4)) else 0
        dmaLen := if h = 16 ∨ h = 20 then BitVec.ofNat 32 (beNat (sub o 12 4)) else 0
        imm := if op = .writeImm then BitVec.ofNat 32 (beNat (sub o (h - 4) 4)) else 0
        swapAdd := if h = 28 then BitVec.ofNat 64 (beNat (sub o 12 8)) else if op = .atomicResp then BitVec.ofNat 64 (beNat (sub o 4 8)) else 0
        compare := if op = .cmpSwap then BitVec.ofNat 64 (beNat (sub o 20 8)) else 0
        payload := (o.drop h).take (o.length - h - 4 - pad) }
/-- Steer a frame that the port accepts (R390). -/
def frameSteer (s : State) (p : Nat) (f : Bytes) (at_ : Word) : State :=
  match frameUdp f with
  | none => mgmtFrame s p f at_
  | some u =>
    if (frameType f).1 = 0x88F7 ∨ u.dport = 319 ∨ u.dport = 320 then mgmtFrame s p f at_
    else if u.dport = s.xp.dport.toNat then
      match pktParse u.payload u.srcIp u.hop (BitVec.ofNat 7 p) with
      | some k => pktHandle s k
      | none => s
    else if u.dport = 4791 then
      match roceParse u.payload with
      | some k => roceHandle s k
      | none => s
    else mgmtFrame s p f at_
/-- The frame is addressed to the port, or to a broadcast or multicast address. -/
def frameMine (s : State) (p : Nat) (f : Bytes) : Bool := beNat (sub f 0 6) = portMac s p || bitOf (f.getD 0 0).toNat 0
/-- FRAME_RECEIVED: an UP port takes it; a wrong FCS is counted, another's frame dropped. -/
def execFrameReceived (p : Fin 96) (f : Bytes) (fcs : Bool) (at_ : Word) (s : State) : Out_ :=
  let n := p.val
  if (portGet s n).state ≠ 2 then .next s
  else if !fcs then .next (portCount s n 9 1)
  else if !frameMine s n f then .next s
  else .next (rxFrame s n (f.length + 4) fun s => if isPfc f then pfcReceive s n f else frameSteer s n f at_)

end Sys2Proof.Machine
end

