-- ==== Sys2Proof/Machine/Tensor.lean ====
section
/-! DEFINITION. The tensor array and the exact-dot unit (R136-R143, R154-R171, R174, R175). -/

namespace Sys2Proof.Machine

/-- Element `n` of a dense row that begins at byte `b` of a sparse memory (R154). -/
def rowElem (m : Mem) (b w n : Nat) : Nat := memNat m (b + w * n / 8) 5 / 2 ^ (w * n % 8) % 2 ^ w
/-- Profile bit of a tensor format (R115 table). -/
def fmtProf (code : Nat) : Nat := if code ≤ 2 then 4 else if code = 4 ∨ code = 5 then 16 else if 8 ≤ code then 32 else 8
/-- Format B of a TMMA: FMTB of the prefix, 0xF or no prefix meaning FMT (R138). -/
def tmmaFmtB (i : Issue) (f : TFmt) : Nat :=
  match i.pre with
  | some p => if pay p 0 4 = 15 then f.fmt.toNat else pay p 0 4
  | none => f.fmt.toNat
/-- SMODE of a TMMA. -/
def tmmaMode (i : Issue) : Nat := ((i.pre.map fun p => pay p 4 2)).getD 0
/-- RSA or RSB of a TMMA. -/
def tmmaScale (i : Issue) (lo : Nat) : BitVec 6 := BitVec.ofNat 6 ((i.pre.map fun p => pay p lo 6).getD 0)
/-- TMMA accepts the format code (R136). -/
def tmmaFmt (code : Nat) : Bool := code ≤ 10 && code ≠ 2
/-- Encodings of TMMA that are defined (R138). -/
def tmmaEnc (i : Issue) (f : TFmt) : Bool :=
  let a := f.fmt.toNat
  let b := tmmaFmtB i f
  let m := tmmaMode i
  let narrowFp := fun x => 3 ≤ x && x ≤ 7
  let scaled := fun x => if m = 1 then x = 1 || narrowFp x else narrowFp x
  tmmaFmt a && tmmaFmt b && (i.pre.all fun p => pay p 18 8 = 0) && m ≠ 3 &&
  (a = b || (narrowFp a && narrowFp b) || (a ≤ 1 && b ≤ 1)) &&
  (if m = 0 then tmmaScale i 6 = 0 && tmmaScale i 12 = 0 else scaled a && scaled b)
/-- Size term of TMMA (R141). -/
def tmmaSize (a b m k : Nat) : Nat :=
  (if fmtBits a = 4 && fmtBits b = 4 then ceilDiv k 12
   else if a = 8 ∨ a = 9 then ceilDiv k 3
   else if a = 10 then ceilDiv (4 * k) 3
   else ceilDiv k 6) + (if m = 0 then 0 else ceilDiv k 32)

/-- A contribution to an LA96 element: flags NaN, +infinity, -infinity, out of range, and the integer in units of 2^-32 (R159, R162). -/
structure Contrib where
  nan : Bool := false
  pinf : Bool := false
  ninf : Bool := false
  ovf : Bool := false
  c : Int := 0
  deriving DecidableEq, Repr
/-- An integer from an exact value in units of 2^-32, rounded to nearest even (R159). -/
def dyUnits (d : Dy) : Int :=
  let n : Int := rneShift d.n.natAbs (-(d.e + 32)) false
  if d.n < 0 then -n else n
/-- Join two contributions to one element: sums and flags do not depend on order (R163). -/
def contribAdd (a b : Contrib) : Contrib :=
  { nan := a.nan || b.nan, pinf := a.pinf || b.pinf, ninf := a.ninf || b.ninf, ovf := a.ovf || b.ovf, c := a.c + b.c }
/-- A finite contribution of integer c: out of range it sets OVF and adds nothing (R162). -/
def contribFin (c : Int) : Contrib := if 2 ^ 90 ≤ c.natAbs then { ovf := true } else { c := c }
/-- Contribution of one unscaled product (R159). -/
def contribProd (a b : FV) : Contrib :=
  match fvMulV a b with
  | .nan => { nan := true }
  | .inf neg => { pinf := !neg, ninf := neg }
  | v => contribFin (dyUnits (fvDy v))
/-- Scale value of a block (R158). -/
def scaleVal (mode x : Nat) : FV :=
  if mode = 1 then (if x = 255 then .nan else .fin false 1 ((x : Int) - 127)) else elemDecode 6 x
/-- Contribution of one scaled block (R159, R162). An infinite block sum times a zero scale is an infinity times zero (log 16). -/
def contribBlock (sa sb : FV) (ps : List FV) : Contrib :=
  if ps.any fvNan || fvNan sa || fvNan sb then { nan := true }
  else
    let p := ps.any fun v => v = .inf false
    let n := ps.any fun v => v = .inf true
    let sc := fvMulV sa sb
    if p && n then { nan := true }
    else if p || n then
      match fvMulV sc (.inf n) with
      | .inf neg => { pinf := !neg, ninf := neg }
      | _ => { nan := true }
    else contribFin (dyUnits (dyMul (fvDy sc) (ps.foldl (fun a v => dyAdd a (fvDy v)) { n := 0, e := 0 })))
/-- LA96 element after a contribution (R161-R163). -/
def la96Add (old : BitVec 96) (k : Contrib) : BitVec 96 :=
  let fl := b2n (old.getLsbD 92 || k.pinf) + 2 * b2n (old.getLsbD 93 || k.ninf) + 4 * b2n (old.getLsbD 94 || k.nan) + 8 * b2n (old.getLsbD 95 || k.ovf)
  BitVec.ofNat 96 (ofInt 92 (sInt 92 (old.toNat % 2 ^ 92) + k.c) + fl * 2 ^ 92)
/-- Split a list into blocks of n. -/
def chunkList {α : Type} (n : Nat) : Nat → List α → List (List α)
  | 0, _ => []
  | f + 1, l => if l.isEmpty then [] else l.take n :: chunkList n f (l.drop n)
/-- Contribution of one output element of a narrow TMMA. -/
def narrowElem (mode : Nat) (ra rb : List FV) (sa sb : List FV) : Contrib :=
  if mode = 0 then (ra.zip rb).foldl (fun t p => contribAdd t (contribProd p.1 p.2)) {}
  else
    let n := if mode = 1 then 32 else 16
    let ps := chunkList n (ra.length / n + 1) ((ra.zip rb).map fun p => fvMulV p.1 p.2)
    (ps.zip (sa.zip sb)).foldl (fun t q => contribAdd t (contribBlock q.2.1 q.2.2 q.1)) {}
/-- FP32 format. -/
def fp32 : Fmt := (fmtOf 10).getD { w := 32, m := 23, bias := 127, maxFin := 0, ovf := 0, infSrc := 0, nanSrc := 0, infCode := none }
/-- Sum of two FP32 codes (R171). -/
def f32Add (a b : Nat) : Nat := fvAdd fp32 (fpDecode fp32 a) (fpDecode fp32 b)
/-- The canonical tree of R171 over codes; `fuel` bounds its depth. -/
def treeSum : Nat → List Nat → Nat
  | 0, t => t.headD 0
  | f + 1, t =>
    match t with
    | [] => 0
    | [x] => x
    | _ =>
      let h := 2 ^ (t.length - 1).log2
      f32Add (treeSum f (t.take h)) (treeSum f (t.drop h))
/-- Output element of a wide TMMA (R171). -/
def wideElem (old : BitVec 96) (ra rb : List FV) : BitVec 96 :=
  BitVec.ofNat 96 (f32Add (old.toNat % 2 ^ 32) (treeSum 64 ((ra.zip rb).map fun p => fpTo 10 (fvMulV p.1 p.2))))

/-- Read a list of window ranges; the first failure is the status. -/
def winReads (s : State) (L : Nat) (c : Ctx) : List (Nat × Nat) → Status × List Mem × State
  | [] => (stOk, [], s)
  | (o, n) :: r =>
    let x := winRead s L c o n
    let y := winReads x.2.2 L c r
    (if x.1 = stOk then y.1 else x.1, x.2.1 :: y.2.1, y.2.2)
/-- Causes of window operands: bounds and alignment (R137, R140, R142). -/
def winExc (c : Ctx) (al : Nat) (rs : List (Word × Nat)) : List Exc :=
  rs.flatMap fun r => causes [(!inWindow c r.1 r.2, { cause := 0x01, st := stOutOfBounds, addr := r.1 }),
    (r.1.toNat % al ≠ 0, { cause := 0x07, st := stMisaligned, addr := r.1 })]
/-- Rows of an operand matrix as values. -/
def matRows (m : Mem) (code k : Nat) : List (List FV) :=
  (List.range 32).map fun i => (List.range k).map fun n => elemDecode code (rowElem m (i * (k * fmtBits code / 8)) (fmtBits code) n)
/-- Rows of a scale matrix as values. -/
def scaleRows (m : Mem) (mode k : Nat) : List (List FV) :=
  let n := k / (if mode = 1 then 32 else 16)
  if mode = 0 then List.replicate 32 []
  else (List.range 32).map fun i => (List.range n).map fun b => scaleVal mode (memNat m (i * n + b) 1)
/-- Defects that strike a tile's array now (R139). -/
def arrayHits (s : State) (L : Nat) : List (Nat × Int) := (s.arrayErr.filter fun e => e.1 = L).map (·.2)
/-- The residue code catches an error in ACC that is no multiple of 7 (R174, R175). -/
def residueCaught (hits : List (Nat × Int)) : Bool := hits.any fun e => e.1 < 1024 && e.2 % 7 ≠ 0
/-- Apply the errors that escape the check. -/
def arrayTaint (hits : List (Nat × Int)) (es : List (BitVec 96)) : List (BitVec 96) :=
  hits.foldl (fun es e => es.modify e.1 fun x => la96Add x { c := e.2 }) es

/-- TMMA (R137-R139, R159-R163, R171). -/
def execTmma (i : Issue) (f : TFmt) (s : State) : Out_ :=
  let a := f.fmt.toNat
  let b := tmmaFmtB i f
  let m := tmmaMode i
  let kk := (ctxGet s i.tile.val i.hw.val).elim 0 fun c => (gv c f.rk).toNat
  .next (issue s i { slot := 2, cls := 2, size := tmmaSize a b m kk
                     reads := [rG f.ra, rG f.rb, rG f.rk, rWin] ++ (if m = 0 then [] else [rG (tmmaScale i 6), rG (tmmaScale i 12)]) ++
                       (if f.clr = 1 then [] else [rA f.ad.toNat])
                     writes := [rA f.ad.toNat], prof := (fmtProf a) ||| (fmtProf b) ||| (if m = 0 then 0 else 64) } (tmmaEnc i f) fun s c =>
    let k := (gv c f.rk).toNat
    let sb := if m = 0 then 0 else k / (if m = 1 then 32 else 16)
    let ops := [(gv c f.ra, 32 * (k * fmtBits a / 8)), (gv c f.rb, 32 * (k * fmtBits b / 8))]
    let scs := if m = 0 then [] else [(gv c (tmmaScale i 6), 32 * sb), (gv c (tmmaScale i 12), 32 * sb)]
    let es := winExc c 128 ops ++ winExc c 1 scs ++
      causes [(k % 32 ≠ 0 || k < 32 || 16384 < k, { cause := 0x03, st := stMalformed })]
    if !es.isEmpty then .exc s es
    else
      let r := winReads s i.tile.val c ((ops ++ scs).map fun x => (x.1.toNat, x.2))
      if r.1 ≠ stOk then .exc r.2.2 [{ cause := 0x04, st := r.1 }]
      else
        let s1 := r.2.2
        let av := matRows (r.2.1.getD 0 []) a k
        let bv := matRows (r.2.1.getD 1 []) b k
        let asc := scaleRows (r.2.1.getD 2 []) m k
        let bsc := scaleRows (r.2.1.getD 3 []) m k
        let old := fun p q => if f.clr = 1 then 0#96 else getA c f.ad.toNat p q
        let narrow := fmtNarrow a
        let out := (List.range 32).flatMap fun p => (List.range 32).map fun q =>
          if narrow then la96Add (old p q) (narrowElem m (av.getD p []) (bv.getD q []) (asc.getD p []) (bsc.getD q []))
          else wideElem (old p q) (av.getD p []) (bv.getD q [])
        if narrow then
          let hits := arrayHits s1 i.tile.val
          let s2 := { s1 with arrayErr := s1.arrayErr.filter fun e => e.1 ≠ i.tile.val }
          if residueCaught hits then .exc s2 [{ cause := 0x05, st := stResidue }]
          else if hits.any fun e => e.1 = 1024 then .exc s2 [{ cause := 0x05, st := stFlag }]
          else ret s2 (setA c f.ad.toNat (arrayTaint hits out))
        else ret s1 (setA c f.ad.toNat out))

/-! ## TACC (R140) -/

/-- Accumulator named by RD bits 2:0; bits 5:3 are zero. -/
def taccAd (f : R4) : Nat := f.rd.toNat % 8
/-- Profile bits of a rounding destination (R140 table). -/
def rndProf (code : Nat) : Nat := fmtProf code
/-- Dependencies of a TACC function. -/
def taccDeps (f : R4) (load : Bool) : Deps :=
  { slot := 2, cls := 2, prof := 0, profAny := 60
    reads := if load then [rG f.rs1, rWin] else [rG f.rs1, rA (taccAd f)], writes := if load then [rA (taccAd f)] else [rWin] }
/-- TZERO. -/
def execTzero (i : Issue) (f : R4) (s : State) : Out_ :=
  .next (issue s i { slot := 2, cls := 2, prof := 0, profAny := 60, reads := [], writes := [rA (taccAd f)] }
    (i.pre.isNone && f.rd.toNat < 8 && f.rs1 = 0 && f.rs2 = 0 && f.hi = 0) fun s c => ret s (setA c (taccAd f) []))
/-- TLD: 12,288 bytes, 12 an element. -/
def execTld (i : Issue) (f : R4) (s : State) : Out_ :=
  .next (issue s i { taccDeps f true with size := 5 } (i.pre.isNone && f.rd.toNat < 8 && f.rs2 = 0 && f.hi = 0) fun s c =>
    let o := gv c f.rs1
    let es := winExc c 128 [(o, 12288)]
    if !es.isEmpty then .exc s es
    else
      let r := winRead s i.tile.val c o.toNat 12288
      if r.1 ≠ stOk then .exc r.2.2 [{ cause := 0x04, st := r.1 }]
      else ret r.2.2 (setA c (taccAd f) ((List.range 1024).map fun n => BitVec.ofNat 96 (memNat r.2.1 (12 * n) 12))))
/-- Store a byte string at a window offset aligned to 128. -/
def taccStore (i : Issue) (s : State) (c : Ctx) (o : Word) (b : Bytes) : Body :=
  let es := winExc c 128 [(o, b.length)]
  if !es.isEmpty then .exc s es
  else .retire (winWrite s i.tile.val c o.toNat b.length (memOfBytes 0 b)) c none [(winAddr s i.tile.val c o.toNat, b)]
/-- TST. -/
def execTst (i : Issue) (f : R4) (s : State) : Out_ :=
  .next (issue s i { taccDeps f false with size := 5 } (i.pre.isNone && f.rd.toNat < 8 && f.rs2 = 0 && f.hi = 0) fun s c =>
    taccStore i s c (gv c f.rs1) ((List.range 1024).flatMap fun n => leBytes 12 (getA c (taccAd f) (n / 32) (n % 32)).toNat))
/-- 1,024 elements of w bits packed densely (R154). -/
def packElems (w : Nat) (es : List Nat) : Bytes :=
  (chunkList 8 129 es).flatMap fun g => leBytes w (g.zipIdx.foldl (fun t e => t + (e.1 % 2 ^ w) * 2 ^ (w * e.2)) 0)
/-- Flags of an LA96 element decide first (R167): NaN, infinities, or none. -/
def la96Flags (x : BitVec 96) : Option FV :=
  if x.getLsbD 94 || x.getLsbD 95 || (x.getLsbD 92 && x.getLsbD 93) then some .nan
  else if x.getLsbD 92 then some (.inf false)
  else if x.getLsbD 93 then some (.inf true)
  else none
/-- Exact value of an LA96 element without flags. -/
def la96Dy (x : BitVec 96) : Dy := { n := sInt 92 (x.toNat % 2 ^ 92), e := -32 }
/-- An LA96 element rounded to a format (R167). -/
def rndLa (code : Nat) (x : BitVec 96) : Nat := fpTo code ((la96Flags x).getD (dyFV (la96Dy x)))
/-- An FP32 element rounded to a format. -/
def rndF (code : Nat) (x : BitVec 96) : Nat := fpTo code (fpDecode fp32 (x.toNat % 2 ^ 32))
/-- An LA96 element rounded stochastically with random word r (R157, R166). -/
def rndsLa (code r : Nat) (x : BitVec 96) : Nat :=
  match la96Flags x with
  | some v => fpTo code v
  | none => fpStoch code r (la96Dy x)
/-- An FP32 element rounded stochastically; a zero keeps its sign, since it is returned unchanged (R157). -/
def rndsF (code r : Nat) (x : BitVec 96) : Nat :=
  match fpDecode fp32 (x.toNat % 2 ^ 32) with
  | .fin neg m e => if m = 0 then ((fmtOf code).elim 0 fun t => signBit t neg) else fpStoch code r (fvDy (.fin neg m e))
  | v => fpTo code v
/-- Profile and encoding of a rounding function without randomness. -/
def rndDeps (f : R4) : Deps := { taccDeps f false with size := 2, prof := rndProf f.hi.toNat, profAny := 0 }
/-- TRND and TRNDF: round every element and store the results packed. -/
def trndOp (i : Issue) (f : R4) (g : Nat → BitVec 96 → Nat) (s : State) : State :=
  issue s i (rndDeps f) (i.pre.isNone && f.rd.toNat < 8 && f.rs2 = 0 && f.hi.toNat ≤ 10) fun s c =>
    taccStore i s c (gv c f.rs1) (packElems (fmtBits f.hi.toNat)
      ((List.range 1024).map fun n => g f.hi.toNat (getA c (taccAd f) (n / 32) (n % 32))))
/-- TRND. -/
def execTrnd (i : Issue) (f : R4) (s : State) : Out_ := .next (trndOp i f rndLa s)
/-- TRNDF. -/
def execTrndf (i : Issue) (f : R4) (s : State) : Out_ := .next (trndOp i f rndF s)
/-- TRNDS and TRNDFS (R140, R157, R184): one draw an element; a key not yet derived makes it wait (R181). -/
def trndsOp (i : Issue) (f : R4) (g : Nat → Nat → BitVec 96 → Nat) (s : State) : State :=
  let slot := (i.pre.map fun p => pay p 0 8).getD 0
  let rb : BitVec 6 := BitVec.ofNat 6 ((i.pre.map fun p => pay p 8 6).getD 0)
  issue s i { rndDeps f with prof := rndProf f.hi.toNat ||| 1024, reads := [rG f.rs1, rG f.rs2, rG rb, rA (taccAd f)] }
    (i.pre.isSome && (i.pre.all fun p => pay p 14 12 = 0) && f.rd.toNat < 8 && f.hi.toNat ≤ 10 && f.hi ≠ 0) fun s c =>
    let base := (gv c rb).toNat
    let es := winExc c 128 [(gv c f.rs1, 1024 * fmtBits f.hi.toNat / 8)] ++
      causes [((keySlot s c.job slot).isNone || 2 ^ 48 ≤ base + 1023, { cause := 0x03, st := stMalformed })]
    match keySlot s c.job slot with
    | none => .exc s es
    | some (j, e) =>
      if !es.isEmpty then .exc s es
      else
        match keyHeld s j e slot c.batch with
        | none => .stay s
        | some k => taccStore i s c (gv c f.rs1) (packElems (fmtBits f.hi.toNat) ((List.range 1024).map fun n =>
            g f.hi.toNat (scg k (scgCounter e.purpose.toNat (gv c f.rs2).toNat (base + n)) % 2 ^ 32) (getA c (taccAd f) (n / 32) (n % 32))))
/-- TRNDS. -/
def execTrnds (i : Issue) (f : R4) (s : State) : Out_ := .next (trndsOp i f rndsLa s)
/-- TRNDFS. -/
def execTrndfs (i : Issue) (f : R4) (s : State) : Out_ := .next (trndsOp i f rndsF s)

/-! ## Exact dot products (R142, R143, R165-R170) -/

/-- An LA640 lane's parts (R165). -/
structure Lane where
  acc : Int := 0
  pinf : Bool := false
  ninf : Bool := false
  nan : Bool := false
  terms : Nat := 0
  deriving DecidableEq, Repr
/-- Read a lane. -/
def laneOf (v : BitVec 640) : Lane :=
  { acc := sInt 584 (v.toNat % 2 ^ 584), pinf := v.getLsbD 584, ninf := v.getLsbD 585, nan := v.getLsbD 586, terms := v.toNat / 2 ^ 593 }
/-- Store a lane: ACC modulo 2^584, TERMS saturating at 2^47 - 1. -/
def laneBits (l : Lane) : BitVec 640 :=
  BitVec.ofNat 640 (ofInt 584 l.acc + b2n l.pinf * 2 ^ 584 + b2n l.ninf * 2 ^ 585 + b2n l.nan * 2 ^ 586 + min l.terms (2 ^ 47 - 1) * 2 ^ 593)
/-- Add one exact product to a lane (R166). -/
def laneProd (l : Lane) (a b : FV) : Lane :=
  match fvMulV a b with
  | .nan => { l with nan := true }
  | .inf neg => { l with pinf := l.pinf || !neg, ninf := l.ninf || neg }
  | v => let d := fvDy v; { l with acc := l.acc + d.n * 2 ^ (d.e + 298).toNat }
/-- Sum of two lanes (R170). -/
def laneAdd (a b : Lane) : Lane :=
  { acc := a.acc + b.acc, pinf := a.pinf || b.pinf, ninf := a.ninf || b.ninf, nan := a.nan || b.nan, terms := a.terms + b.terms }
/-- XDOT (R142). -/
def execXdot (i : Issue) (f : XFmt) (s : State) : Out_ :=
  let code := 8 + f.fmt.toNat
  let w := fmtBits code / 8
  let nn := (ctxGet s i.tile.val i.hw.val).elim 0 fun c => (gv c f.rn).toNat
  .next (issue s i { slot := 3, cls := 3, size := ceilDiv (8 * nn) 184, prof := 128
                     reads := [rG f.ra, rG f.rb, rG f.rn, rX f.xd.toNat, rWin], writes := [rX f.xd.toNat] } (i.pre.isNone && f.fmt ≠ 3 && f.rsvd = 0) fun s c =>
    let n := (gv c f.rn).toNat
    let ops := [(gv c f.ra, 8 * n * w), (gv c f.rb, 8 * n * w)]
    let es := winExc c 16 ops ++ causes [(n = 0 || 65536 < n, { cause := 0x03, st := stMalformed })]
    if !es.isEmpty then .exc s es
    else
      let r := winReads s i.tile.val c (ops.map fun x => (x.1.toNat, x.2))
      if r.1 ≠ stOk then .exc r.2.2 [{ cause := 0x04, st := r.1 }]
      else
        let el := fun (m : Mem) k => elemDecode code (memNat m (k * w) w)
        ret r.2.2 ((List.range 8).foldl (fun c l =>
          let t := (List.range n).foldl (fun t k => laneProd t (el (r.2.1.getD 0 []) (l * n + k)) (el (r.2.1.getD 1 []) (l * n + k))) (laneOf (getX c f.xd.toNat l))
          setX c f.xd.toNat l (laneBits { t with terms := t.terms + n })) c))
/-- XZERO. -/
def execXzero (i : Issue) (f : R4) (s : State) : Out_ :=
  .next (issue s i { slot := 3, cls := 3, prof := 128, reads := [], writes := [rX f.rd.toNat] }
    (i.pre.isNone && f.rd.toNat < 4 && f.rs1 = 0 && f.rs2 = 0 && f.hi = 0) fun s c =>
    ret s ((List.range 8).foldl (fun c l => setX c f.rd.toNat l 0) c))
/-- A lane rounded once (R167). -/
def laneRnd (code : Nat) (l : Lane) : Nat :=
  fpTo code (if l.nan || (l.pinf && l.ninf) then .nan else if l.pinf then .inf false else if l.ninf then .inf true else dyFV { n := l.acc, e := -298 })
/-- XRND. -/
def execXrnd (i : Issue) (f : R4) (s : State) : Out_ :=
  .next (issue s i { slot := 3, cls := 3, size := 2, prof := 128, reads := [rX f.rs1.toNat, rG f.rs2], writes := [rG f.rd] }
    (i.pre.isNone && f.rs1.toNat < 4 && fmtWide f.hi.toNat) fun s c =>
    if 8 ≤ (gv c f.rs2).toNat then exc1 s 0x03 stMalformed
    else ret s (setG c f.rd.toNat (BitVec.ofNat 64 (laneRnd f.hi.toNat (laneOf (getX c f.rs1.toNat (gv c f.rs2).toNat))))))
/-- The canonical record of a lane (R168). -/
def laneRecord (k : Nat) (l : Lane) : Bytes :=
  let h := k + b2n l.pinf * 2 ^ 12 + b2n l.ninf * 2 ^ 13 + b2n l.nan * 2 ^ 14 + min l.terms (2 ^ 47 - 1) * 2 ^ 17
  if l.acc = 0 then leBytes 8 (h + 2 ^ 15)
  else
    let v := ofInt 640 l.acc
    let fill := if l.acc < 0 then 2 ^ 64 - 1 else 0
    let limb := fun n => bitsAt v (64 * n) 64
    let lo := ((List.range 10).find? fun n => limb n ≠ 0).getD 0
    let hi := ((List.range 10).reverse.find? fun n => lo < n && limb n ≠ fill).getD lo
    leBytes 8 (h + b2n (l.acc < 0) * 8 + lo * 16 + hi * 256) ++ (rangeFrom lo (hi - lo + 1)).flatMap fun n => leBytes 8 (limb n)
/-- XEXP (R169): offset aligned to 16. -/
def execXexp (i : Issue) (f : R4) (s : State) : Out_ :=
  .next (issue s i { slot := 3, cls := 3, size := 2, prof := 128, reads := [rX f.rs1.toNat, rG f.rs2], writes := [rG f.rd, rWin] }
    (i.pre.isNone && f.rs1.toNat < 4 && f.hi = 0) fun s c =>
    let b := (List.range 8).flatMap fun l => laneRecord l (laneOf (getX c f.rs1.toNat l))
    let o := gv c f.rs2
    let es := winExc c 16 [(o, b.length)]
    if !es.isEmpty then .exc s es
    else .retire (winWrite s i.tile.val c o.toNat b.length (memOfBytes 0 b)) (setG c f.rd.toNat (BitVec.ofNat 64 b.length)) none
      [(winAddr s i.tile.val c o.toNat, b)])
/-- A lane from a record's header and limb bytes; none where R170 calls it malformed. A SIGN that differs from limb 9 is malformed (log 17). -/
def recordLane (k h : Nat) (limbs : Nat) : Option Lane :=
  let sign := bitOf h 3
  let lo := bitsAt h 4 4
  let hi := bitsAt h 8 4
  let l : Lane := { pinf := bitOf h 12, ninf := bitOf h 13, nan := bitOf h 14, terms := h / 2 ^ 17 }
  if h % 8 ≠ k ∨ bitOf h 16 then none
  else if bitOf h 15 then (if lo ≠ 0 ∨ hi ≠ 0 ∨ sign then none else some l)
  else if 9 < lo ∨ 9 < hi ∨ hi < lo then none
  else
    let v := limbs * 2 ^ (64 * lo) + (if sign then 2 ^ 640 - 2 ^ (64 * (hi + 1)) else 0)
    let top := v / 2 ^ 583
    if (top ≠ 0 ∧ top ≠ 2 ^ 57 - 1) ∨ (top ≠ 0) ≠ sign then none else some { l with acc := sInt 640 v }
/-- Limb bytes that follow a header. -/
def limbBytes (h : Nat) : Nat := if bitOf h 15 then 0 else 8 * (bitsAt h 8 4 + 1 - bitsAt h 4 4)
/-- Read records from lane k on at a window offset: the failure status of a read, or the lanes, or none where malformed. -/
def recordsRead (L : Nat) (c : Ctx) : Nat → Nat → State → Nat → Status × Option (List Lane) × State
  | 0, _, s, _ => (stOk, some [], s)
  | f + 1, k, s, o =>
    if !inWindow c (BitVec.ofNat 64 o) 8 then (stOk, none, s)
    else
      let r := winRead s L c o 8
      let h := memNat r.2.1 0 8
      let n := limbBytes h
      if r.1 ≠ stOk then (r.1, none, r.2.2)
      else if !inWindow c (BitVec.ofNat 64 o) (8 + n) then (stOk, none, r.2.2)
      else
        let q := winRead r.2.2 L c (o + 8) n
        if q.1 ≠ stOk then (q.1, none, q.2.2)
        else
          match recordLane k h (memNat q.2.1 0 n) with
          | none => (stOk, none, q.2.2)
          | some l =>
            let t := recordsRead L c f (k + 1) q.2.2 (o + 8 + n)
            (t.1, t.2.1.map (l :: ·), t.2.2)
/-- XIMP (R170). -/
def execXimp (i : Issue) (f : R4) (s : State) : Out_ :=
  .next (issue s i { slot := 3, cls := 3, size := 2, prof := 128, reads := [rX f.rd.toNat, rG f.rs1, rWin], writes := [rX f.rd.toNat] }
    (i.pre.isNone && f.rd.toNat < 4 && f.rs2 = 0 && f.hi = 0) fun s c =>
    let r := recordsRead i.tile.val c 8 0 s (gv c f.rs1).toNat
    if r.1 ≠ stOk then .exc r.2.2 [{ cause := 0x04, st := r.1 }]
    else
      match r.2.1 with
      | none => .exc r.2.2 [{ cause := 0x03, st := stMalformed }]
      | some ls => ret r.2.2 (ls.zipIdx.foldl (fun c e => setX c f.rd.toNat e.2 (laneBits (laneAdd (laneOf (getX c f.rd.toNat e.2)) e.1))) c))

end Sys2Proof.Machine
end

