-- ==== Sys2Proof/Machine/Grammar.lean ====
section
/-! DEFINITION. Grammar images and the mask unit as functions (R305-R310). -/

namespace Sys2Proof.Machine

/-- The header of a grammar image, with where its areas begin (R305). -/
structure GramHdr where
  kind : Nat
  v : Nat
  states : Nat
  syms : Nat
  start : Nat
  endTok : Nat
  ci : Nat
  cd : Nat
  ops : Nat
  len : Nat
  deriving DecidableEq, Repr
/-- Header fields. -/
def gramHdr (a : Arr) : GramHdr :=
  { kind := ab a 5, v := aLe a 8 4, states := aLe a 0xC 4, syms := aLe a 0x10 4, start := aLe a 0x14 4, endTok := aLe a 0x18 4,
    ci := aLe a 0x1C 4, cd := aLe a 0x20 4, ops := aLe a 0x24 4, len := aLe a 0x28 8 }
/-- Where the CI runs, CD entries, micro-ops and return table begin. -/
def gramCi (h : GramHdr) : Nat := 64 + 16 * h.states
def gramCd (h : GramHdr) : Nat := gramCi h + 16 * h.ci
def gramOps (h : GramHdr) : Nat := gramCd h + 8 * h.cd
def gramRet (h : GramHdr) : Nat := gramOps h + 4 * h.ops
/-- A state: CI_FIRST, CI_N, CD_FIRST, CD_N, ACCEPT (R306). -/
structure GState where
  ciFirst : Nat
  ciN : Nat
  cdFirst : Nat
  cdN : Nat
  accept : Bool
  deriving DecidableEq, Repr
/-- State q. -/
def gState (a : Arr) (q : Nat) : GState :=
  let o := 64 + 16 * q
  { ciFirst := aLe a o 4, ciN := aLe a (o + 4) 2, cdN := aLe a (o + 6) 2, cdFirst := aLe a (o + 8) 4, accept := ab a (o + 12) % 2 = 1 }
/-- CI run i: FIRST, COUNT, NEXT, PUSH. -/
def gRun (a : Arr) (h : GramHdr) (i : Nat) : Nat × Nat × Nat × Nat :=
  let o := gramCi h + 16 * i
  (aLe a o 4, aLe a (o + 4) 4, aLe a (o + 8) 4, aLe a (o + 12) 4)
/-- CD entry i: TOKEN, OP_FIRST, OP_N, and the reserved bits. -/
def gCd (a : Arr) (h : GramHdr) (i : Nat) : Nat × Nat × Nat × Nat :=
  let o := gramCd h + 8 * i
  let w := aLe a (o + 4) 4
  (aLe a o 4, w % 2 ^ 24, bitsAt w 24 4, w / 2 ^ 28)
/-- Micro-op i: CODE and OPERAND. -/
def gOp (a : Arr) (h : GramHdr) (i : Nat) : Nat × Nat × Nat :=
  let w := aLe a (gramOps h + 4 * i) 4
  (w % 16, bitsAt w 4 16, w / 2 ^ 20)
/-- A micro-op sequence holds only POP_EQ and PUSH before exactly one final GOTO or RET, with operands in range (R307). -/
def opsOk (a : Arr) (h : GramHdr) (first n : Nat) : Bool :=
  (List.range n).all fun k =>
    let o := gOp a h (first + k)
    o.2.2 = 0 && (if k + 1 = n then (o.1 = 3 && decide (o.2.1 < h.states)) || o.1 = 4 else (o.1 = 1 || o.1 = 2) && decide (o.2.1 < h.syms))
/-- The checks of R307. -/
def gramOk (a : Arr) : Bool :=
  let h := gramHdr a
  decide (64 ≤ a.size) && aSub a 0 4 = ascii "GRMB" && ab a 4 = 1 && decide (h.kind ≤ 1) && aLe a 6 2 = 0 && decide (1 ≤ h.v ∧ h.v ≤ 1048576) &&
  decide (1 ≤ h.states ∧ h.states ≤ 65536) && decide (h.syms ≤ 65536) && decide (h.start < h.states) &&
  (aSub a 0x30 0x3C).all (· = 0) && aLe a 0x3C 4 = crc32c (aSub a 0 0x3C) && h.len = gramRet h + 4 * h.syms && h.len = a.size &&
  (h.endTok = 2 ^ 32 - 1 || decide (h.endTok < h.v)) &&
  (h.kind = 1 || (h.cd = 0 && h.ops = 0 && h.syms = 0)) &&
  ((List.range h.states).all fun q =>
    let s := gState a q
    let runs := (rangeFrom s.ciFirst s.ciN).map (gRun a h)
    let cds := (rangeFrom s.cdFirst s.cdN).map (gCd a h)
    decide (s.ciFirst + s.ciN ≤ h.ci) && decide (s.cdFirst + s.cdN ≤ h.cd) && ab a (64 + 16 * q + 12) / 2 = 0 && aLe a (64 + 16 * q + 13) 3 = 0 &&
    ((runs.zip (runs.drop 1)).all fun e => decide (e.1.1 + e.1.2.1 ≤ e.2.1)) &&
    (runs.all fun r => decide (1 ≤ r.2.1 ∧ r.1 + r.2.1 ≤ h.v)) &&
    ((cds.zip (cds.drop 1)).all fun e => decide (e.1.1 ≤ e.2.1)) &&
    (cds.all fun c => decide (c.1 < h.v) && !(runs.any fun r => decide (r.1 ≤ c.1 ∧ c.1 < r.1 + r.2.1)))) &&
  ((List.range h.ci).all fun i =>
    let r := gRun a h i
    decide (r.2.2.1 < h.states) && bitsAt r.2.2.2 16 15 = 0 &&
    (if bitOf r.2.2.2 31 then h.kind = 1 && decide (r.2.2.2 % 65536 < h.syms) else true) &&
    !decide (r.1 ≤ h.endTok ∧ h.endTok < r.1 + r.2.1)) &&
  ((List.range h.cd).all fun i =>
    let c := gCd a h i
    c.1 ≠ h.endTok && decide (1 ≤ c.2.2.1 ∧ c.2.2.1 ≤ 8) && c.2.2.2 = 0 && decide (c.2.1 + c.2.2.1 ≤ h.ops) && opsOk a h c.2.1 c.2.2.1) &&
  ((List.range h.syms).all fun i => decide (aLe a (gramRet h + 4 * i) 4 < h.states))
/-- BOUNDED of a checked image (R307). -/
def gramBounded (a : Arr) : Bool :=
  let h := gramHdr a
  (List.range h.states).all fun q => let s := gState a q; decide (s.ciN ≤ 16384) && (h.kind = 0 || decide (s.cdN ≤ 2048))

/-- A grammar's state: state, stack with its top first, STEPS, DONE (R308). -/
structure GramState where
  q : Nat
  stack : List Nat
  steps : Nat
  done : Bool
  deriving DecidableEq, Repr
/-- Run a micro-op sequence on a working copy of the stack (R306): the next state and stack. -/
def gSeq (a : Arr) (h : GramHdr) : Nat → Nat → List Nat → Option (Nat × List Nat)
  | 0, _, _ => none
  | n + 1, i, st =>
    let o := gOp a h i
    match o.1 with
    | 1 => match st with
      | t :: r => if t = o.2.1 then gSeq a h n (i + 1) r else none
      | [] => none
    | 2 => if 1024 ≤ st.length then none else gSeq a h n (i + 1) (o.2.1 :: st)
    | 3 => some (o.2.1, st)
    | 4 => match st with
      | t :: r => some (aLe a (gramRet h + 4 * t) 4, r)
      | [] => none
    | _ => none
/-- The CI run of a state that holds token t. -/
def gRunOf (a : Arr) (h : GramHdr) (q t : Nat) : Option (Nat × Nat × Nat × Nat) :=
  let s := gState a q
  ((rangeFrom s.ciFirst s.ciN).map (gRun a h)).find? fun r => decide (r.1 ≤ t ∧ t < r.1 + r.2.1)
/-- ADVANCE by token t from a grammar that is not DONE: the state after it, or none for a rejection (R309). -/
def gAdvance (a : Arr) (h : GramHdr) (g : GramState) (t : Nat) : Option GramState :=
  let s := gState a g.q
  if t = h.endTok ∧ h.endTok ≠ 2 ^ 32 - 1 then
    (if s.accept ∧ g.stack = [] then some { g with done := true, steps := g.steps + 1 } else none)
  else match gRunOf a h g.q t with
    | some r =>
      if bitOf r.2.2.2 31 then
        (if 1024 ≤ g.stack.length then none else some { g with q := r.2.2.1, stack := r.2.2.2 % 65536 :: g.stack, steps := g.steps + 1 })
      else some { g with q := r.2.2.1, steps := g.steps + 1 }
    | none =>
      (((rangeFrom s.cdFirst s.cdN).map (gCd a h)).filter fun c => c.1 = t).findSome? fun c =>
        (gSeq a h c.2.2.1 c.2.1 g.stack).map fun x => { g with q := x.1, stack := x.2, steps := g.steps + 1 }
/-- Token t is allowed (R310). -/
def gAllowed (a : Arr) (h : GramHdr) (g : GramState) (t : Nat) : Bool := !g.done && decide (t < h.v) && (gAdvance a h g t).isSome
/-- The mask of a state: its bytes and the number of bits set (R310). -/
def gMask (a : Arr) (h : GramHdr) (g : GramState) : Bytes × Nat :=
  let bits := (List.range (ceilDiv h.v 512 * 512)).map fun t => gAllowed a h g t
  ((List.range (ceilDiv h.v 512 * 64)).map fun k => BitVec.ofNat 8 (((bits.drop (8 * k)).take 8).zipIdx.foldl (fun n b => n + b2n b.1 * 2 ^ b.2) 0),
    (bits.filter id).length)

end Sys2Proof.Machine
end

