-- ==== Sys2Proof/Machine/Text.lean ====
section
/-! DEFINITION. The tokenizer unit as functions of bytes (R284-R296, R301-R304): image checks, UTF-8 validation, pre-splitting, merging, control insertion, detokenization and stop strings. -/

namespace Sys2Proof.Machine

/-! ## Tokenizer images -/

/-- The header of a tokenizer image (R284). -/
structure TokHdr where
  look : Nat
  v : Nat
  merges : Nat
  states : Nat
  classes : Nat
  vocab : Nat
  strings : Nat
  slen : Nat
  maps : Nat
  merge : Nat
  dfa : Nat
  len : Nat
  maxLen : Nat
  deriving DecidableEq, Repr
/-- Header fields of an image. -/
def tokHdr (a : Arr) : TokHdr :=
  { look := ab a 5, v := aLe a 8 4, merges := aLe a 0xC 4, states := aLe a 0x10 4, classes := aLe a 0x14 4, vocab := aLe a 0x18 8,
    strings := aLe a 0x20 8, slen := aLe a 0x28 8, maps := aLe a 0x30 8, merge := aLe a 0x38 8, dfa := aLe a 0x40 8, len := aLe a 0x48 8,
    maxLen := aLe a 0x50 4 }
/-- Vocabulary entry t (R285). -/
def vocEnt (a : Arr) (h : TokHdr) (t : Nat) : Nat := aLe a (h.vocab + 8 * t) 8
/-- Flags CONTROL, FALLBACK and UNUSED of an entry. -/
def vocFlags (e : Nat) : Nat := bitsAt e 48 3
/-- String of token t. -/
def tokStr (a : Arr) (h : TokHdr) (t : Nat) : Bytes :=
  let e := vocEnt a h t
  let o := h.strings + bitsAt e 0 32
  aSub a o (o + bitsAt e 32 9)
/-- Token t is a control token. -/
def tokControl (a : Arr) (h : TokHdr) (t : Nat) : Bool := decide (t < h.v) && bitOf (vocEnt a h t) 48
/-- Merge entry i: LEFT, RIGHT, RANK, RESULT (R286). -/
def mergeEnt (a : Arr) (h : TokHdr) (i : Nat) : Nat × Nat × Nat × Nat :=
  let o := h.merge + 16 * i
  (aLe a o 4, aLe a (o + 4) 4, aLe a (o + 8) 4, aLe a (o + 12) 4)
/-- First offset of a list of checks that fails. -/
def firstBad (l : List (Bool × Nat)) : Option Nat := (l.find? fun e => !e.1).map (·.2)
/-- An area of n bytes at o lies inside the image. -/
def areaIn (h : TokHdr) (o n : Nat) : Bool := decide (o + n ≤ h.len) && decide (o % 64 = 0)
/-- The checks of R288 in order: the offset of the failing byte. -/
def tokCheck (a : Arr) (fffd : Bool) : Option Nat :=
  let h := tokHdr a
  let hdr := firstBad [
    (decide (128 ≤ a.size), 0), (aSub a 0 4 = ascii "TOKB", 0), (ab a 4 = 1, 4), (decide (h.look ≤ 7), 5), (aLe a 6 2 = 0, 6),
    (decide (1 ≤ h.v ∧ h.v ≤ 1048576), 8), (decide (h.merges ≤ 16777216), 0xC), (decide (1 ≤ h.states ∧ h.states ≤ 65536), 0x10),
    (decide (1 ≤ h.classes ∧ h.classes ≤ 256), 0x14), (decide (1 ≤ h.maxLen ∧ h.maxLen ≤ 256), 0x50),
    ((aSub a 0x54 0x7C).all (· = 0), 0x54), (aLe a 0x7C 4 = crc32c (aSub a 0 0x7C), 0x7C), (h.len = a.size, 0x48),
    (areaIn h h.vocab (8 * h.v), 0x18), (areaIn h h.strings h.slen, 0x20), (areaIn h h.maps 2048, 0x30), (areaIn h h.merge (16 * h.merges), 0x38),
    (areaIn h h.dfa (256 + 4 * h.states * h.classes), 0x40)]
  let flag := fun t => vocFlags (vocEnt a h t)
  let plain := fun t => decide (t < h.v) && flag t = 0
  let voc := fun (_ : Unit) => (List.range h.v).findSome? fun t =>
    let e := vocEnt a h t
    let f := flag t
    firstBad [(decide (bitsAt e 32 9 ≤ 256) && decide (bitsAt e 0 32 + bitsAt e 32 9 ≤ h.slen), h.vocab + 8 * t),
      (f = 0 || f = 1 || f = 2 || f = 4, h.vocab + 8 * t + 6)]
  let maps := fun (_ : Unit) => (List.range 256).findSome? fun b =>
    let t := aLe a (h.maps + 4 * b) 4
    firstBad [(plain t && tokStr a h t = [BitVec.ofNat 8 b], h.maps + 4 * b)]
  let falls := fun (_ : Unit) => if fffd then none else (List.range 256).findSome? fun b =>
    let t := aLe a (h.maps + 1024 + 4 * b) 4
    firstBad [(decide (t < h.v) && flag t = 2 && tokStr a h t = [BitVec.ofNat 8 b], h.maps + 1024 + 4 * b)]
  let order := fun (_ : Unit) => (List.range (h.merges - 1)).findSome? fun i =>
    let x := mergeEnt a h i
    let y := mergeEnt a h (i + 1)
    firstBad [(decide (x.1 < y.1) || (x.1 = y.1 && decide (x.2.1 < y.2.1)), h.merge + 16 * (i + 1))]
  let ranks := fun (_ : Unit) => (List.range h.merges).findSome? fun i =>
    firstBad [(!((List.range i).any fun j => (mergeEnt a h j).2.2.1 = (mergeEnt a h i).2.2.1), h.merge + 16 * i + 8)]
  let toks := fun (_ : Unit) => (List.range h.merges).findSome? fun i =>
    let x := mergeEnt a h i
    firstBad [(plain x.1, h.merge + 16 * i), (plain x.2.1, h.merge + 16 * i + 4), (plain x.2.2.2, h.merge + 16 * i + 12)]
  let strs := fun (_ : Unit) => (List.range h.merges).findSome? fun i =>
    let x := mergeEnt a h i
    firstBad [(tokStr a h x.2.2.2 = tokStr a h x.1 ++ tokStr a h x.2.1, h.merge + 16 * i + 12)]
  let cls := fun (_ : Unit) => (List.range 256).findSome? fun b => firstBad [(decide (ab a (h.dfa + b) < h.classes), h.dfa + b)]
  let trans := fun (_ : Unit) => (List.range (h.states * h.classes)).findSome? fun i =>
    let e := aLe a (h.dfa + 256 + 4 * i) 4
    firstBad [(decide (e % 65536 < h.states) && decide (bitsAt e 16 4 ≤ h.look + 1) && e / 2 ^ 20 = 0, h.dfa + 256 + 4 * i)]
  let longest := fun (_ : Unit) => firstBad [(h.maxLen = (List.range h.v).foldl (fun m t => max m (bitsAt (vocEnt a h t) 32 9)) 0, 0x50)]
  match hdr with
  | some o => some o
  | none =>
    [voc, maps, falls, order, ranks, toks, strs, cls, trans, longest].findSome? fun f => f ()

/-! ## Merging (R294) -/

/-- The merge entry of a pair, by bisection of the sorted table. -/
def mergeFind (a : Arr) (h : TokHdr) (l r : Nat) : Nat → Nat → Nat → Option (Nat × Nat)
  | 0, _, _ => none
  | f + 1, lo, hi =>
    if hi ≤ lo then none
    else
      let m := (lo + hi) / 2
      let e := mergeEnt a h m
      if e.1 = l ∧ e.2.1 = r then some e.2.2
      else if e.1 < l ∨ (e.1 = l ∧ e.2.1 < r) then mergeFind a h l r f (m + 1) hi
      else mergeFind a h l r f lo m
/-- The best merge of a token list: place, rank, result; the leftmost of the least rank. -/
def bestMerge (a : Arr) (h : TokHdr) : Nat → List Nat → Option (Nat × Nat × Nat)
  | i, x :: y :: r =>
    let rest := bestMerge a h (i + 1) (y :: r)
    match mergeFind a h x y 25 0 h.merges with
    | some e =>
      match rest with
      | some b => if b.2.1 < e.1 then some b else some (i, e.1, e.2)
      | none => some (i, e.1, e.2)
    | none => rest
  | _, _ => none
/-- Merge until no pair merges. -/
def mergeLoop (a : Arr) (h : TokHdr) : Nat → List Nat → List Nat
  | 0, t => t
  | f + 1, t =>
    match bestMerge a h 0 t with
    | some (i, _, x) => mergeLoop a h f (t.take i ++ x :: t.drop (i + 2))
    | none => t
/-- Tokens of a pre-token. -/
def mergeBytes (a : Arr) (h : TokHdr) (b : Bytes) : List Nat :=
  mergeLoop a h b.length (b.map fun x => aLe a (h.maps + 4 * x.toNat) 4)

/-! ## UTF-8 (R291) -/

/-- Bytes of the well-formed sequences that a lead byte begins; 0 for none (Unicode, table 3-7). -/
def u8Need (b : Nat) : Nat :=
  if b < 0x80 then 1 else if 0xC2 ≤ b ∧ b ≤ 0xDF then 2 else if 0xE0 ≤ b ∧ b ≤ 0xEF then 3 else if 0xF0 ≤ b ∧ b ≤ 0xF4 then 4 else 0
/-- Byte number i (from 1) may follow in a sequence with the lead byte given. -/
def u8Cont (lead i b : Nat) : Bool :=
  let lo := if i = 1 then (if lead = 0xE0 then 0xA0 else if lead = 0xF0 then 0x90 else 0x80) else 0x80
  let hi := if i = 1 then (if lead = 0xED then 0x9F else if lead = 0xF4 then 0x8F else 0xBF) else 0xBF
  decide (lo ≤ b ∧ b ≤ hi)

/-! ## Tokenizing (R291-R296) -/

/-- A tokenizer stream at work. -/
structure TokRun where
  dfa : Nat := 0
  held : Bytes := []
  pend : Bytes := []
  /-- Bytes of `pend` that lie in this buffer. -/
  pendNew : Nat := 0
  /-- Tokens emitted, newest first. -/
  out : List Nat := []
  subparts : Nat := 0
  forced : Nat := 0
  invalid : Option Nat := none
  deriving Repr
/-- Place a boundary: the held pre-token is merged and emitted. -/
def tokFlush (a : Arr) (h : TokHdr) (x : TokRun) : TokRun :=
  { x with held := [], out := (mergeBytes a h x.held).reverse ++ x.out }
/-- Run a character's bytes through the DFA: pieces that boundaries end, the bytes held, the state (R293). -/
def tokDfa (a : Arr) (h : TokHdr) : Bytes → List Bytes → Bytes → Nat → List Bytes × Bytes × Nat
  | [], ps, held, q => (ps, held, q)
  | b :: r, ps, held, q =>
    let e := aLe a (h.dfa + 256 + 4 * (q * h.classes + ab a (h.dfa + b.toNat))) 4
    let k := bitsAt e 16 4
    let held1 := held ++ [b]
    if 0 < k ∧ k < held1.length then
      tokDfa a h r (ps ++ [held1.take (held1.length - k)]) (held1.drop (held1.length - k)) (e % 65536)
    else tokDfa a h r ps held1 (e % 65536)
/-- A character's bytes enter pre-splitting; a pre-token past 1,024 bytes is ended before the character (R293). -/
def tokChar (a : Arr) (h : TokHdr) (c : Bytes) (x : TokRun) : TokRun :=
  let go := fun (x : TokRun) =>
    let t := tokDfa a h c [] x.held x.dfa
    { x with held := t.2.1, dfa := t.2.2, out := t.1.foldl (fun o p => (mergeBytes a h p).reverse ++ o) x.out }
  let t := tokDfa a h c [] x.held x.dfa
  if t.1.any (fun p => decide (1024 < p.length)) || decide (1024 < t.2.1.length) then
    go { tokFlush a h x with forced := x.forced + 1 }
  else go x
/-- A maximal subpart (R291); `at_` is the offset of its first byte that lies in this buffer. -/
def tokSubpart (a : Arr) (h : TokHdr) (fffd : Bool) (b : Bytes) (at_ : Option Nat) (x : TokRun) : TokRun :=
  let y := { x with subparts := x.subparts + 1, invalid := x.invalid.or at_ }
  if fffd then tokChar a h [0xEF, 0xBF, 0xBD] y
  else
    let z := tokFlush a h y
    { z with dfa := 0, out := (b.map fun v => aLe a (h.maps + 1024 + 4 * v.toNat) 4).reverse ++ z.out }
/-- Pending bytes cannot become a character: they are a maximal subpart. -/
def tokCut (a : Arr) (h : TokHdr) (fffd : Bool) (o : Nat) (x : TokRun) : TokRun :=
  if x.pend.isEmpty then x
  else tokSubpart a h fffd x.pend (if x.pendNew = 0 then none else some (o - x.pendNew)) { x with pend := [], pendNew := 0 }
/-- A byte with nothing pending. -/
def tokLead (a : Arr) (h : TokHdr) (fffd : Bool) (o : Nat) (b : Byte) (x : TokRun) : TokRun :=
  match u8Need b.toNat with
  | 0 => tokSubpart a h fffd [b] (some o) x
  | 1 => tokChar a h [b] x
  | _ => { x with pend := [b], pendNew := 1 }
/-- One input byte at offset o (R291, R292). -/
def tokByte (a : Arr) (h : TokHdr) (fffd : Bool) (o : Nat) (b : Byte) (x : TokRun) : TokRun :=
  match x.pend with
  | [] => tokLead a h fffd o b x
  | l :: _ =>
    if u8Cont l.toNat x.pend.length b.toNat then
      let c := x.pend ++ [b]
      if c.length = u8Need l.toNat then tokChar a h c { x with pend := [], pendNew := 0 }
      else { x with pend := c, pendNew := x.pendNew + 1 }
    else tokLead a h fffd o b (tokCut a h fffd o x)
/-- Insert control tokens at offset o (R295, R296). -/
def tokInsert (a : Arr) (h : TokHdr) (fffd : Bool) (o : Nat) (ts : List Nat) (x : TokRun) : TokRun :=
  if ts.isEmpty then x
  else
    let y := tokFlush a h (tokCut a h fffd o x)
    { y with dfa := 0, out := ts.reverse ++ y.out }
/-- Bytes of a buffer from offset o with its insertions. -/
def tokBytes (a : Arr) (h : TokHdr) (fffd : Bool) (ins : List (Nat × Nat)) : Nat → Bytes → TokRun → TokRun
  | _, [], x => x
  | o, b :: r, x =>
    tokBytes a h fffd ins (o + 1) r (tokByte a h fffd o b (tokInsert a h fffd o ((ins.filter fun e => e.1 = o).map (·.2)) x))
/-- A whole TOKENIZE (R291-R296): the end of a FINAL descriptor is flushed before the insertions at IN_LEN. -/
def tokRun (a : Arr) (h : TokHdr) (fffd final : Bool) (ins : List (Nat × Nat)) (t : Bytes) (x : TokRun) : TokRun :=
  let y := tokBytes a h fffd ins 0 t x
  let z := if final then tokFlush a h (tokCut a h fffd t.length y) else y
  tokInsert a h fffd t.length ((ins.filter fun e => e.1 = t.length).map (·.2)) z

/-! ## Detokenizing (R301-R304) -/

/-- A stop-string match: stop index, start and end as stream positions. -/
structure StopHit where
  id : Nat
  start : Nat
  stop : Nat
  deriving DecidableEq, Repr
/-- A detokenizer stream at work. -/
structure DetRun where
  held : Bytes := []
  /-- Whether each held byte begins a token's string. -/
  starts : List Bool := []
  /-- Stream bytes produced, held ones included. -/
  total : Nat := 0
  out : Bytes := []
  taken : Nat := 0
  hit : Option StopHit := none
  split : Bool := false
  deriving Repr
/-- Occurrences of the stop strings in the held bytes that end within the last n bytes: index, start, end in the held bytes. -/
def stopFinds (stops : List Bytes) (held : Bytes) (n : Nat) : List (Nat × Nat × Nat) :=
  stops.zipIdx.flatMap fun s =>
    ((rangeFrom (held.length - n + 1) n).filter fun e =>
      decide (s.1.length ≤ e) && (held.drop (e - s.1.length)).take s.1.length = s.1).map fun e => (s.2, e - s.1.length, e)
/-- The occurrence that ends earliest, then starts earliest, then has the lowest index. -/
def stopPick (l : List (Nat × Nat × Nat)) : Option (Nat × Nat × Nat) :=
  l.foldl (fun b x => match b with
    | none => some x
    | some y => if x.2.2 < y.2.2 ∨ (x.2.2 = y.2.2 ∧ (x.2.1 < y.2.1 ∨ (x.2.1 = y.2.1 ∧ x.1 < y.1))) then some x else b) none
/-- How many bytes to hold: the longest suffix that is a proper prefix of a stop string (R303). -/
def holdLen (stops : List Bytes) (b : Bytes) : Nat :=
  ((List.range 256).reverse.find? fun k => decide (k ≤ b.length) && (k = 0 || stops.any fun s => decide (k < s.length) && s.take k = b.drop (b.length - k))).getD 0
/-- One token's bytes (R303, R304). -/
def detToken (stops : List Bytes) (str : Bytes) (x : DetRun) : DetRun :=
  let held := x.held ++ str
  let starts := x.starts ++ (List.range str.length).map fun i => decide (i = 0)
  let total := x.total + str.length
  match stopPick (stopFinds stops held str.length) with
  | some (id, i, e) =>
    let base := total - held.length
    { x with
      held := [], starts := [], total := total, out := x.out ++ held.take i, taken := x.taken + 1
      hit := some { id := id, start := base + i, stop := base + e }
      split := !(starts.getD i false) || decide (e ≠ held.length) }
  | none =>
    let k := holdLen stops held
    let n := held.length - k
    { x with held := held.drop n, starts := starts.drop n, total := total, out := x.out ++ held.take n, taken := x.taken + 1 }
/-- The tokens of a descriptor, until a stop string matches. -/
def detRun (stops : List Bytes) : List Bytes → DetRun → DetRun
  | [], x => x
  | t :: r, x => if x.hit.isSome then x else detRun stops r (detToken stops t x)

end Sys2Proof.Machine
end

