-- ==== Sys2Proof/Machine/TextEng.lean ====
section
/-! DEFINITION. Token engine descriptors (R289, R290, R297-R317): loads and slots, TOKENIZE and DETOKENIZE with their state blocks, and the mask unit's GRAMMAR_INIT, ADVANCE and MASK. -/

namespace Sys2Proof.Machine

/-- Engine fields of a token engine descriptor (R297). -/
structure TextF where
  flags : Nat
  tb : Nat
  handle : Nat
  in_ : Nat
  inLen : Nat
  count : Nat
  out : Nat
  cap : Nat
  st : Nat
  ctrl : Nat
  ctrlN : Nat
  token : Nat
  report : Nat
  deriving DecidableEq, Repr
/-- The fields of a descriptor's bytes. -/
def textF (b : Bytes) : TextF :=
  { flags := subNat b 0x18 1, tb := subNat b 0x19 1, handle := subNat b 0x1C 4, in_ := subNat b 0x20 8, inLen := subNat b 0x28 4,
    count := subNat b 0x2C 4, out := subNat b 0x30 8, cap := subNat b 0x38 8, st := subNat b 0x40 8, ctrl := subNat b 0x48 8,
    ctrlN := subNat b 0x50 4, token := subNat b 0x54 4, report := subNat b 0x58 8 }
/-- FINAL, RESET, FFFD, CTRL_OUT and MASK_AFTER. -/
def tfFinal (f : TextF) : Bool := bitOf f.flags 0
def tfReset (f : TextF) : Bool := bitOf f.flags 1
def tfFffd (f : TextF) : Bool := bitOf f.flags 2
def tfCtrlOut (f : TextF) : Bool := bitOf f.flags 3
def tfMaskAfter (f : TextF) : Bool := bitOf f.flags 4
/-- FLAGS bits an OP uses. -/
def flagMask (op : Nat) (f : TextF) : Nat :=
  match op with
  | 1 => 4
  | 4 => 3
  | 5 => if tfReset f then 11 else 3
  | 6 | 7 => 16
  | _ => 0
/-- Fields in range, unused fields zero (R297, R298, R302). -/
def textFOk (op : Nat) (b : Bytes) : Bool :=
  let f := textF b
  let load := op = 1 || op = 2
  let tok := op = 4 || op = 5
  let mask := op = 6 || op = 7 || op = 8
  let outs := tok || op = 8 || ((op = 6 || op = 7) && tfMaskAfter f)
  f.flags ||| flagMask op f = flagMask op f && (if tok then f.tb = 2 || f.tb = 4 else f.tb = 0) && zeroIn b 0x1A 0x1C &&
  (!load || f.handle = 0) && (load || tok || (f.in_ = 0)) && (load || op = 4 || f.inLen = 0) &&
  (if op = 5 then decide (1 ≤ f.count ∧ f.count ≤ 65536) else f.count = 0) && (outs || (f.out = 0 && f.cap = 0)) &&
  decide (f.st % 64 = 0) && (if op = 4 then f.st ≠ 0 || tfFinal f else tok || mask || f.st = 0) && (op ≠ 4 || decide (f.ctrlN ≤ 4096)) &&
  (op ≠ 5 || (if tfReset f then decide (f.ctrlN ≤ 16) else f.ctrlN = 0 && f.ctrl = 0)) && decide (f.ctrl % 8 = 0) && (tok || (f.ctrl = 0 && f.ctrlN = 0)) &&
  (op = 7 || f.token = 0) && decide (f.report % 64 = 0) && zeroIn b 0x60 0x80

/-! ## Slots (R289, R290) -/

/-- Slot key: tokenizer slots 0-15 and grammar slots from 64 of a cluster. -/
def slotKey (n kind k : Nat) : Nat := 128 * n + (if kind = 2 then 64 else 0) + k
/-- A slot. -/
def tokSlot (s : State) (key : Nat) : TokSlot := (kvGet s.slots key).getD {}
/-- A slot's handle (R289). -/
def slotHandle (n kind k : Nat) (x : TokSlot) : Nat := k + kind * 64 + n * 256 + x.gen.toNat * 65536
/-- The slot key a handle names for a descriptor on cluster n, for a kind (R289). -/
def slotOfHandle (s : State) (n kind : Nat) (d : Desc) (h : Nat) : Option Nat :=
  let k := bitsAt h 0 6
  let key := slotKey n kind k
  let x := tokSlot s key
  if bitsAt h 6 2 = kind ∧ bitsAt h 8 6 = n ∧ bitsAt h 14 2 = 0 ∧ (kind = 2 ∨ k < 16) ∧ x.loaded ∧ x.gen.toNat = bitsAt h 16 16 ∧ x.job = d.job then some key
  else none
/-- The image of a slot, read where it lies through the translation it was loaded with. -/
def slotImage (d : Desc) (x : TokSlot) : EM (Array Byte) := engArr { d with ttb := x.ttb, pkr0 := x.pkr0, pkr1 := x.pkr1, priv := x.priv } x.va x.len
/-- Complete with a text-class status. -/
def textDone (st : Status) (r : Nat) : EM EngOut := pure (.done st (BitVec.ofNat 64 r))
/-- Write a report where one is asked for. -/
def textReport (d : Desc) (f : TextF) (b : Bytes) : EM Unit := if f.report = 0 then pure () else engWrite d f.report b

/-- Load an image into the lowest free slot of its kind. -/
def loadSlot (n kind : Nat) (d : Desc) (f : TextF) (bounded : Bool) (s : State) : Option (Nat × State) :=
  ((List.range (if kind = 2 then 64 else 16)).find? fun k => !(tokSlot s (slotKey n kind k)).loaded).map fun k =>
    let key := slotKey n kind k
    let x : TokSlot := {
      gen := (tokSlot s key).gen + 1, loaded := true, job := d.job, va := f.in_, len := f.inLen, ttb := d.ttb, pkr0 := d.pkr0, pkr1 := d.pkr1
      priv := d.priv, fffd := tfFffd f, bounded := bounded }
    (slotHandle n kind k x, { s with slots := kvSet s.slots key x })
/-- The load report (R300). -/
def loadReport (d : Desc) (f : TextF) (a : Array Byte) (st : Status) (off : Bytes) (bounded : Bool) : EM Unit :=
  textReport d f (shake a.toList ++ leBytes 2 st.toNat ++ zeros 6 ++ off ++ [if bounded then 1 else 0] ++ zeros 15)
/-- TOK_LOAD (R288, R289). -/
def tokLoadOp (n : Nat) (d : Desc) (f : TextF) : EM EngOut := do
  let a ← engArr d f.in_ f.inLen
  match tokCheck a (tfFffd f) with
  | some o =>
    loadReport d f a 0x0401 (leBytes 8 o) false
    textDone 0x0401 0
  | none =>
    match loadSlot n 1 d f false (← get) with
    | none =>
      loadReport d f a 0x0402 (zeros 8) false
      textDone 0x0402 0
    | some (h, s) =>
      set s
      loadReport d f a stOk (zeros 8) false
      textDone stOk h
/-- GRAMMAR_LOAD (R307, R312). -/
def gramLoadOp (n : Nat) (d : Desc) (f : TextF) : EM EngOut := do
  let a ← engArr d f.in_ f.inLen
  let bad := fun (st : Status) (b : Bool) => do
    let o ← if st = 0x0408 then engFree 8 else pure (zeros 8)
    loadReport d f a st o b
    textDone st 0
  if !gramOk a then bad 0x0408 false
  else
    let b := gramBounded a
    if !b && pacedJob (← get) d.job then bad 0x0409 b
    else
      match loadSlot n 2 d f b (← get) with
      | none => bad 0x0402 b
      | some (h, s) =>
        set s
        loadReport d f a stOk (zeros 8) b
        textDone stOk h
/-- UNLOAD (R290). -/
def unloadOp (n : Nat) (d : Desc) (f : TextF) : EM EngOut := do
  match slotOfHandle (← get) n (bitsAt f.handle 6 2) d f.handle with
  | none => textDone 0x0403 0
  | some key =>
    engDo fun s => { s with slots := kvUpd s.slots key fun x => { gen := x.gen } }
    textDone stOk 0

/-! ## TOKENIZE (R295, R298-R300) -/

/-- A tokenizer state block as read: its stream, TOTAL_IN, TOTAL_TOKENS, ENDED; none where a check fails (R298). -/
def tksOf (b : Bytes) (handle states : Nat) : Option (TokRun × Nat × Nat × Bool) :=
  let hl := subNat b 0x0A 2
  let pl := subNat b 0x0C 1
  if b.take 4 = ascii "TKS1" ∧ subNat b 4 4 = handle ∧ hl ≤ 1024 ∧ pl ≤ 3 ∧ subNat b 8 2 < states ∧ subNat b 0x20 1 ≤ 1 ∧
      subNat b 0x3C 4 = crc32c (b.take 0x3C ++ (b.drop 0x40).take hl) then
    some ({ dfa := subNat b 8 2, held := (b.drop 0x40).take hl, pend := (b.drop 0x0D).take pl }, subNat b 0x10 8, subNat b 0x18 8, subNat b 0x20 1 = 1)
  else none
/-- Write a tokenizer state block: bytes behind PEND and HELD have no stated value (log 28). -/
def tksWrite (d : Desc) (f : TextF) (x : TokRun) (tin ttok : Nat) (ended : Bool) : EM Unit := do
  let p ← engFree (3 - x.pend.length)
  let t ← engFree (1024 - x.held.length)
  let h := ascii "TKS1" ++ leBytes 4 f.handle ++ leBytes 2 x.dfa ++ leBytes 2 x.held.length ++ [BitVec.ofNat 8 x.pend.length] ++ x.pend ++ p ++
    leBytes 8 tin ++ leBytes 8 ttok ++ [if ended then 1 else 0] ++ zeros 27
  engWrite d f.st (h ++ leBytes 4 (crc32c (h ++ x.held)) ++ x.held ++ t)
/-- A TOKENIZE that fails: its report, and nothing else changes. -/
def tokFail (d : Desc) (f : TextF) (st : Status) (off : Nat) (held : Option TokRun) : EM EngOut := do
  let h ← match held with
    | some x => pure (leBytes 2 x.held.length ++ [BitVec.ofNat 8 x.pend.length])
    | none => engFree 3
  textReport d f (zeros 24 ++ h ++ [0] ++ leBytes 2 st.toNat ++ zeros 2 ++ leBytes 8 off ++ leBytes 8 (2 ^ 64 - 1) ++ zeros 16)
  textDone st 0
/-- Index of the first list entry that R295 refuses. -/
def ctrlBad (a : Arr) (h : TokHdr) (inLen : Nat) : Nat → Nat → List (Nat × Nat) → Option Nat
  | _, _, [] => none
  | i, last, e :: r => if e.1 < last ∨ inLen < e.1 ∨ !tokControl a h e.2 then some i else ctrlBad a h inLen (i + 1) e.1 r
/-- TOKENIZE. -/
def tokenizeOp (n : Nat) (d : Desc) (f : TextF) : EM EngOut := do
  match slotOfHandle (← get) n 1 d f.handle with
  | none => tokFail d f 0x0403 0 none
  | some key =>
    let sl := tokSlot (← get) key
    let a ← slotImage d sl
    let h := tokHdr a
    engNeed (f.tb = 4 || decide (h.v ≤ 65536))
    let fresh := f.st = 0 || tfReset f
    let st ← if fresh then pure (some (({} : TokRun), 0, 0, false))
      else do
        let b ← engBytes d f.st 1088
        pure (tksOf b f.handle h.states)
    match st with
    | none => tokFail d f 0x0404 0 none
    | some (x, tin, ttok, ended) =>
      if ended then tokFail d f 0x040E 0 (some x)
      else if f.cap < (3 * (f.inLen + x.held.length + x.pend.length) + f.ctrlN) * f.tb then tokFail d f 0x0405 0 (some x)
      else
        let cb ← engBytes d f.ctrl (8 * f.ctrlN)
        let ins := (List.range f.ctrlN).map fun i => (subNat cb (8 * i) 4, subNat cb (8 * i + 4) 4)
        match ctrlBad a h f.inLen 0 0 ins with
        | some i => tokFail d f 0x0406 i (some x)
        | none =>
          let t ← engBytes d f.in_ f.inLen
          let y := tokRun a h sl.fffd (tfFinal f) ins t x
          let toks := y.out.reverse
          engWrite d f.out (toks.flatMap fun k => leBytes f.tb k)
          if f.st ≠ 0 then tksWrite d f y (tin + f.inLen) (ttok + toks.length) (tfFinal f)
          textReport d f (leBytes 8 f.inLen ++ leBytes 8 toks.length ++ leBytes 4 y.subparts ++ leBytes 4 y.forced ++ leBytes 2 y.held.length ++
            [BitVec.ofNat 8 y.pend.length, 0] ++ zeros 12 ++ leBytes 8 (y.invalid.getD (2 ^ 64 - 1)) ++ zeros 16)
          engDo fun s => engCount (engCount s (0x100 * n + 24) f.inLen) (0x100 * n + 32) toks.length
          textDone stOk toks.length

/-! ## DETOKENIZE (R301-R304) -/

/-- A detokenizer state block as read. -/
structure Det where
  run : DetRun
  stops : List Bytes
  ctrlOut : Bool
  stopped : Bool := false
  ended : Bool := false
  tokens : Nat := 0
/-- Stop strings of n entries at an offset; none where a LEN is out of range (R302). -/
def stopsOf (b : Bytes) (o n : Nat) : Option (List Bytes) :=
  let l := (List.range n).map fun i => (subNat b (o + 264 * i) 2, o + 264 * i + 8)
  if l.all fun e => decide (1 ≤ e.1 ∧ e.1 ≤ 256) then some (l.map fun e => (b.drop e.2).take e.1) else none
/-- The state block, or none where a check fails (R302). -/
def detOf (b : Bytes) (handle : Nat) : Option Det :=
  let hl := subNat b 8 2
  let n := subNat b 0x0A 1
  let fl := subNat b 0x0B 1
  if b.take 4 = ascii "TDS1" ∧ subNat b 4 4 = handle ∧ hl ≤ 255 ∧ n ≤ 16 ∧ fl < 8 ∧ subNat b 0x7C 4 = crc32c (b.take 0x7C ++ (b.drop 0x80).take 4480) then
    (stopsOf b 0x180 n).map fun ss =>
      { run := { held := (b.drop 0x80).take hl, starts := (List.range hl).map fun i => bitOf (subNat b 0x20 32) i, total := subNat b 0x18 8 }
        stops := ss, ctrlOut := bitOf fl 1, stopped := bitOf fl 0, ended := bitOf fl 2, tokens := subNat b 0x10 8 }
  else none
/-- Write a detokenizer state block; bytes without a stated value are free (log 28). -/
def detWrite (d : Desc) (f : TextF) (x : Det) : EM Unit := do
  let t ← engFree (256 - x.run.held.length)
  let rest ← engFree (264 * (16 - x.stops.length))
  let h := ascii "TDS1" ++ leBytes 4 f.handle ++ leBytes 2 x.run.held.length ++
    [BitVec.ofNat 8 x.stops.length, BitVec.ofNat 8 (b2n x.stopped + 2 * b2n x.ctrlOut + 4 * b2n x.ended)] ++ zeros 4 ++ leBytes 8 x.tokens ++
    leBytes 8 x.run.total ++ leBytes 32 (x.run.starts.zipIdx.foldl (fun n e => n + b2n e.1 * 2 ^ e.2) 0) ++ zeros 60
  let body := x.run.held ++ t ++ (x.stops.flatMap fun s => leBytes 2 s.length ++ zeros 6 ++ s ++ zeros (256 - s.length)) ++ rest
  engWrite d f.st (h ++ leBytes 4 (crc32c (h ++ body)) ++ body)
/-- A DETOKENIZE that fails. The report has no ERR_OFFSET for the index of a refused token (R301): where it stands is open, so STOP_INDEX is free then (log 28). -/
def detFail (d : Desc) (f : TextF) (st : Status) (held : Option Det) : EM EngOut := do
  let idx ← if st = 0x040D then engFree 8 else pure (zeros 8)
  let h ← match held with
    | some x => pure (leBytes 2 x.run.held.length)
    | none => engFree 2
  textReport d f (zeros 8 ++ h ++ zeros 2 ++ leBytes 2 st.toNat ++ zeros 2 ++ idx ++ zeros 40)
  textDone st 0
/-- DETOKENIZE. -/
def detokenizeOp (n : Nat) (d : Desc) (f : TextF) : EM EngOut := do
  match slotOfHandle (← get) n 1 d f.handle with
  | none => detFail d f 0x0403 none
  | some key =>
    let a ← slotImage d (tokSlot (← get) key)
    let h := tokHdr a
    engNeed (f.tb = 4 || decide (h.v ≤ 65536))
    let st ← if tfReset f then do
        let cb ← engBytes d f.ctrl (264 * f.ctrlN)
        pure (match stopsOf cb 0 f.ctrlN with
          | some ss => Except.ok ({ run := {}, stops := ss, ctrlOut := tfCtrlOut f } : Det)
          | none => Except.error (0x0407 : Status))
      else do
        let b ← engBytes d f.st 4608
        pure (match detOf b f.handle with
          | some x => Except.ok x
          | none => Except.error (0x0404 : Status))
    match st with
    | .error e => detFail d f e none
    | .ok x =>
      let tb ← engBytes d f.in_ (f.count * f.tb)
      let toks := (List.range f.count).map fun i => subNat tb (f.tb * i) f.tb
      if x.stopped ∨ x.ended then detFail d f 0x040E (some x)
      else if toks.any fun t => decide (h.v ≤ t) || bitOf (vocEnt a h t) 50 then detFail d f 0x040D (some x)
      else
          if f.cap < 255 + f.count * h.maxLen then detFail d f 0x0405 (some x)
          else
            let y := detRun x.stops (toks.map fun t => if tokControl a h t && !x.ctrlOut then [] else tokStr a h t) { x.run with out := [] }
            let fin := tfFinal f && y.hit.isNone
            let z := if fin then { y with out := y.out ++ y.held, held := [], starts := [] } else y
            engWrite d f.out z.out
            detWrite d f { x with run := z, stopped := z.hit.isSome, ended := tfFinal f, tokens := x.tokens + y.taken }
            textReport d f (leBytes 8 z.out.length ++ leBytes 2 z.held.length ++
              [BitVec.ofNat 8 (b2n z.hit.isSome + 2 * b2n z.split + 4 * b2n (tfFinal f)), BitVec.ofNat 8 ((z.hit.map (·.id)).getD 0)] ++ zeros 4 ++
              leBytes 8 (if z.hit.isSome then x.tokens + y.taken - 1 else 0) ++ leBytes 8 ((z.hit.map (·.start)).getD 0) ++
              leBytes 4 (if z.hit.isSome then f.count - y.taken else 0) ++ zeros 28)
            textDone stOk z.out.length

/-! ## The mask unit (R308-R313) -/

/-- A grammar state block as read, or none where a check fails (R308). -/
def grsOf (b : Bytes) (handle states : Nat) : Option GramState :=
  let n := subNat b 0x0C 2
  if b.take 4 = ascii "GRS1" ∧ subNat b 4 4 = handle ∧ subNat b 8 4 < states ∧ n ≤ 1024 ∧ subNat b 0x3C 4 = crc32c (b.take 0x3C ++ (b.drop 0x40).take (2 * n)) then
    some { q := subNat b 8 4, stack := ((List.range n).map fun i => subNat b (0x40 + 2 * i) 2).reverse, steps := subNat b 0x10 8, done := bitOf (subNat b 0x0E 2) 0 }
  else none
/-- Write a grammar state block; entries above DEPTH are free (log 28). -/
def grsWrite (d : Desc) (f : TextF) (g : GramState) : EM Unit := do
  let h := ascii "GRS1" ++ leBytes 4 f.handle ++ leBytes 4 g.q ++ leBytes 2 g.stack.length ++ leBytes 2 (b2n g.done) ++ leBytes 8 g.steps ++ zeros 36
  let st := g.stack.reverse.flatMap fun x => leBytes 2 x
  let t ← engFree (2048 - st.length)
  engWrite d f.st (h ++ leBytes 4 (crc32c (h ++ st)) ++ st ++ t)
/-- The mask report (R313). -/
def maskReport (d : Desc) (f : TextF) (g : Option (Array Byte × GramState)) (bounded : Bool) (allowed : Nat) (st : Status) : EM Unit := do
  match g with
  | some (a, x) =>
    let acc := (gState a x.q).accept && x.stack = []
    textReport d f (leBytes 4 x.q ++ leBytes 2 x.stack.length ++ leBytes 2 (b2n acc + 2 * b2n x.done + 4 * b2n bounded) ++ leBytes 4 allowed ++
      leBytes 2 st.toNat ++ zeros 2 ++ leBytes 8 x.steps ++ zeros 40)
  | none =>
    let q ← engFree 8
    let w ← engFree 8
    textReport d f (q ++ leBytes 4 0 ++ leBytes 2 st.toNat ++ zeros 2 ++ w ++ zeros 40)
/-- Write the mask of a state and report; without a mask, RESULT and ALLOWED are those of R297. -/
def maskOut (n : Nat) (d : Desc) (f : TextF) (a : Array Byte) (h : GramHdr) (g : GramState) (bounded want : Bool) : EM EngOut := do
  if want then
    let m := gMask a h g
    engWrite d f.out m.1
    engDo fun s => engCount s (0x100 * n + 40) 1
    maskReport d f (some (a, g)) bounded m.2 stOk
    textDone stOk m.2
  else
    maskReport d f (some (a, g)) bounded (gMask a h g).2 stOk
    textDone stOk 0
/-- GRAMMAR_INIT, ADVANCE and MASK. -/
def maskOp (n op : Nat) (d : Desc) (f : TextF) : EM EngOut := do
  match slotOfHandle (← get) n 2 d f.handle with
  | none =>
    maskReport d f none false 0 0x0403
    textDone 0x0403 0
  | some key =>
    let sl := tokSlot (← get) key
    let a ← slotImage d sl
    let h := gramHdr a
    let want := op = 8 || tfMaskAfter f
    let st ← if op = 6 then pure (some ({ q := h.start, stack := [], steps := 0, done := false } : GramState))
      else do
        let b ← engBytes d f.st 2112
        pure (grsOf b f.handle h.states)
    match st with
    | none =>
      maskReport d f none sl.bounded 0 0x040A
      textDone 0x040A 0
    | some g =>
      let bad := fun (e : Status) => do
        maskReport d f (some (a, g)) sl.bounded (gMask a h g).2 e
        textDone e 0
      if want ∧ f.cap < ceilDiv h.v 512 * 64 then bad 0x0405
      else if op = 8 then maskOut n d f a h g sl.bounded true
      else if op = 6 then do
        grsWrite d f g
        maskOut n d f a h g sl.bounded want
      else if g.done then bad 0x040C
      else match gAdvance a h g f.token with
        | none => bad 0x040B
        | some x => do
          grsWrite d f x
          maskOut n d f a h x sl.bounded want

/-! ## The commands -/

/-- Run one OP of the token engine on cluster n. -/
def textBody (n op : Nat) (d : Desc) (b : Bytes) : EM EngOut := do
  engNeed (textFOk op b)
  let f := textF b
  match op with
  | 1 => tokLoadOp n d f
  | 2 => gramLoadOp n d f
  | 3 => unloadOp n d f
  | 4 => tokenizeOp n d f
  | 5 => detokenizeOp n d f
  | _ => maskOp n op d f
/-- Budget of a token engine descriptor (R315). -/
def textBudget (op : Nat) (push : Bool) (b : Bytes) : Nat × Nat :=
  let f := textF b
  let row := fun n => (1000, 48 * n)
  match op with
  | 1 | 2 | 4 => row f.inLen
  | 3 => row 64
  | 5 => row f.cap
  | _ => if (op = 8 || tfMaskAfter f) && push then (12800, 0) else (3200, 0)
/-- Unit of a queued descriptor: 1 tokenizer, 2 mask (R297); UNLOAD goes by the KIND of its handle. -/
def textUnit (s : State) (d : Desc) : Nat :=
  if d.op = 1 ∨ d.op = 4 ∨ d.op = 5 then 1
  else if d.op = 3 then (if bitsAt (subNat (descPeek s d) 0x1C 4) 6 2 = 2 then 2 else 1) else 2
/-- The descriptor that a unit of the engine takes next (R314): the oldest, or under STRICT the least tag. -/
def textHead (s : State) (code u : Nat) : Option Desc :=
  ((engQueue s code).filter fun d => textUnit s d = u && !d.active).foldl (fun b d =>
    match b with
    | none => some d
    | some x => if strictJob s d.job && strictJob s x.job && decide (d.tag.toNat < x.tag.toNat) then some d else b) none
/-- The grammar that a descriptor names is a pushdown grammar. -/
def textPush (s : State) (n : Nat) (d : Desc) : Bool :=
  match slotOfHandle s n 2 d (subNat (descPeek s d) 0x1C 4) with
  | some key =>
    match ((slotImage d (tokSlot s key) : EM (Array Byte)).run s).1 with
    | .ok a => ab a 5 = 1
    | .error _ => false
  | none => false
/-- Start the head descriptor of a unit where it has the OP: each unit takes its descriptors in order (R314). -/
def textRun (code op : Nat) (s0 : State) : State :=
  if !engIs 2 code || !engStarts s0 code then s0
  else
    let s := engFlush s0 code
    match (textHead s code 1).filter (fun d => d.op = op) <|> (textHead s code 2).filter (fun d => d.op = op) with
    | none => s
    | some d =>
      engSettle code d (textBudget op (textPush s (code - 64) d) (descPeek s d)) ((do
        engNeed (d.length = 128)
        let b ← engBytes d d.va 128
        textBody (code - 64) op d b : EM EngOut).run s)
/-- TOK_LOAD. -/
def execTokLoad (code : BitVec 8) (s : State) : Out_ := .next (textRun code.toNat 1 s)
/-- GRAMMAR_LOAD. -/
def execGrammarLoad (code : BitVec 8) (s : State) : Out_ := .next (textRun code.toNat 2 s)
/-- UNLOAD. -/
def execUnload (code : BitVec 8) (s : State) : Out_ := .next (textRun code.toNat 3 s)
/-- TOKENIZE. -/
def execTokenize (code : BitVec 8) (s : State) : Out_ := .next (textRun code.toNat 4 s)
/-- DETOKENIZE. -/
def execDetokenize (code : BitVec 8) (s : State) : Out_ := .next (textRun code.toNat 5 s)
/-- GRAMMAR_INIT. -/
def execGrammarInit (code : BitVec 8) (s : State) : Out_ := .next (textRun code.toNat 6 s)
/-- ADVANCE. -/
def execAdvance (code : BitVec 8) (s : State) : Out_ := .next (textRun code.toNat 7 s)
/-- MASK. -/
def execMask (code : BitVec 8) (s : State) : Out_ := .next (textRun code.toNat 8 s)

end Sys2Proof.Machine
end

