-- ==== Sys2Proof/Machine/Dispatch.lean ====
section
/-! DEFINITION. One arm per command: its meaning. -/

namespace Sys2Proof.Machine

def exec (instr : Instr) (s : State) : Host.Outcome State Fault Refusal :=
  match instr with
  | .alu i f => Sys2Proof.Machine.execAlu i f s
  | .addi i f => Sys2Proof.Machine.execAddi i f s
  | .andi i f => Sys2Proof.Machine.execAndi i f s
  | .ori i f => Sys2Proof.Machine.execOri i f s
  | .xori i f => Sys2Proof.Machine.execXori i f s
  | .slti i f => Sys2Proof.Machine.execSlti i f s
  | .sltiu i f => Sys2Proof.Machine.execSltiu i f s
  | .slli i f => Sys2Proof.Machine.execSlli i f s
  | .srli i f => Sys2Proof.Machine.execSrli i f s
  | .srai i f => Sys2Proof.Machine.execSrai i f s
  | .rori i f => Sys2Proof.Machine.execRori i f s
  | .li i f => Sys2Proof.Machine.execLi i f s
  | .lih i f => Sys2Proof.Machine.execLih i f s
  | .ld i f => Sys2Proof.Machine.execLd i f s
  | .st i f => Sys2Proof.Machine.execSt i f s
  | .vld i f => Sys2Proof.Machine.execVld i f s
  | .vst i f => Sys2Proof.Machine.execVst i f s
  | .beq i f => Sys2Proof.Machine.execBeq i f s
  | .bne i f => Sys2Proof.Machine.execBne i f s
  | .blt i f => Sys2Proof.Machine.execBlt i f s
  | .bge i f => Sys2Proof.Machine.execBge i f s
  | .bltu i f => Sys2Proof.Machine.execBltu i f s
  | .bgeu i f => Sys2Proof.Machine.execBgeu i f s
  | .jal i f => Sys2Proof.Machine.execJal i f s
  | .jalr i f => Sys2Proof.Machine.execJalr i f s
  | .srr i f => Sys2Proof.Machine.execSrr i f s
  | .srw i f => Sys2Proof.Machine.execSrw i f s
  | .ecall i f => Sys2Proof.Machine.execEcall i f s
  | .break_ i f => Sys2Proof.Machine.execBreak i f s
  | .xret i f => Sys2Proof.Machine.execXret i f s
  | .rfence i f => Sys2Proof.Machine.execRfence i f s
  | .tlbinv i f => Sys2Proof.Machine.execTlbinv i f s
  | .valu i f => Sys2Proof.Machine.execValu i f s
  | .vfp i f => Sys2Proof.Machine.execVfp i f s
  | .vcmp i f => Sys2Proof.Machine.execVcmp i f s
  | .vperm i f => Sys2Proof.Machine.execVperm i f s
  | .vcvt i f => Sys2Proof.Machine.execVcvt i f s
  | .vred i f => Sys2Proof.Machine.execVred i f s
  | .vscg i f => Sys2Proof.Machine.execVscg i f s
  | .tmma i f => Sys2Proof.Machine.execTmma i f s
  | .tzero i f => Sys2Proof.Machine.execTzero i f s
  | .tld i f => Sys2Proof.Machine.execTld i f s
  | .tst i f => Sys2Proof.Machine.execTst i f s
  | .trnd i f => Sys2Proof.Machine.execTrnd i f s
  | .trndf i f => Sys2Proof.Machine.execTrndf i f s
  | .trnds i f => Sys2Proof.Machine.execTrnds i f s
  | .trndfs i f => Sys2Proof.Machine.execTrndfs i f s
  | .xdot i f => Sys2Proof.Machine.execXdot i f s
  | .xzero i f => Sys2Proof.Machine.execXzero i f s
  | .xrnd i f => Sys2Proof.Machine.execXrnd i f s
  | .xexp i f => Sys2Proof.Machine.execXexp i f s
  | .ximp i f => Sys2Proof.Machine.execXimp i f s
  | .rput i f => Sys2Proof.Machine.execRput i f s
  | .rputi i f => Sys2Proof.Machine.execRputi i f s
  | .rget i f => Sys2Proof.Machine.execRget i f s
  | .rfadd i f => Sys2Proof.Machine.execRfadd i f s
  | .rcas i f => Sys2Proof.Machine.execRcas i f s
  | .sadd i f => Sys2Proof.Machine.execSadd i f s
  | .swait i f => Sys2Proof.Machine.execSwait i f s
  | .qpost i f => Sys2Proof.Machine.execQpost i f s
  | .epost i f => Sys2Proof.Machine.execEpost i f s
  | .calloc i f => Sys2Proof.Machine.execCalloc i f s
  | .callocn i f => Sys2Proof.Machine.execCallocn i f s
  | .cref i f => Sys2Proof.Machine.execCref i f s
  | .cfree i f => Sys2Proof.Machine.execCfree i f s
  | .exit i f => Sys2Proof.Machine.execExit i f s
  | .settag i f => Sys2Proof.Machine.execSettag i f s
  | .launch i f => Sys2Proof.Machine.execLaunch i f s
  | .trmark i f => Sys2Proof.Machine.execTrmark i f s
  | .remoteOpComplete op => Sys2Proof.Machine.execRemoteOpComplete op s
  | .remoteRejection op st => Sys2Proof.Machine.execRemoteRejection op st s
  | .waitSatisfied sw => Sys2Proof.Machine.execWaitSatisfied sw s
  | .sliceBoundary tile hw => Sys2Proof.Machine.execSliceBoundary tile hw s
  | .issueGroup tile => Sys2Proof.Machine.execIssueGroup tile s
  | .holdRelease unit => Sys2Proof.Machine.execHoldRelease unit s
  | .slip unit idx cause detail => Sys2Proof.Machine.execSlip unit idx cause detail s
  | .frontierAdvance src job => Sys2Proof.Machine.execFrontierAdvance src job s
  | .decisionPointServe dp => Sys2Proof.Machine.execDecisionPointServe dp s
  | .orderStall dp => Sys2Proof.Machine.execOrderStall dp s
  | .keyDerive job slot epoch => Sys2Proof.Machine.execKeyDerive job slot epoch s
  | .quiesce u timeout => Sys2Proof.Machine.execQuiesce u timeout s
  | .resume u timeout => Sys2Proof.Machine.execResume u timeout s
  | .freeze u timeout => Sys2Proof.Machine.execFreeze u timeout s
  | .unfreeze u timeout => Sys2Proof.Machine.execUnfreeze u timeout s
  | .reset u timeout => Sys2Proof.Machine.execReset u timeout s
  | .ucbCmdNone u cmd timeout => Sys2Proof.Machine.execUcbCmdNone u cmd timeout s
  | .quiesceDrained target => Sys2Proof.Machine.execQuiesceDrained target s
  | .quiesceTimeout target => Sys2Proof.Machine.execQuiesceTimeout target s
  | .ucbTroubleClr u mask same => Sys2Proof.Machine.execUcbTroubleClr u mask same s
  | .groupRefresh k members => Sys2Proof.Machine.execGroupRefresh k members s
  | .groupCommandForward k answer => Sys2Proof.Machine.execGroupCommandForward k answer s
  | .hsRateUpdate u rate => Sys2Proof.Machine.execHsRateUpdate u rate s
  | .gatherRead d => Sys2Proof.Machine.execGatherRead d s
  | .verify d => Sys2Proof.Machine.execVerify d s
  | .ingest d => Sys2Proof.Machine.execIngest d s
  | .ingestTake d => Sys2Proof.Machine.execIngestTake d s
  | .gatherStrandReadDone d n => Sys2Proof.Machine.execGatherStrandReadDone d n s
  | .marverPermutation code => Sys2Proof.Machine.execMarverPermutation code s
  | .streamOpen code => Sys2Proof.Machine.execStreamOpen code s
  | .submit code => Sys2Proof.Machine.execSubmit code s
  | .close code => Sys2Proof.Machine.execClose code s
  | .reportForward code m => Sys2Proof.Machine.execReportForward code m s
  | .batchMakeup code b => Sys2Proof.Machine.execBatchMakeup code b s
  | .batchDelivery code b k => Sys2Proof.Machine.execBatchDelivery code b k s
  | .deliveryComplete code b k st => Sys2Proof.Machine.execDeliveryComplete code b k st s
  | .jpeg code => Sys2Proof.Machine.execJpeg code s
  | .png code => Sys2Proof.Machine.execPng code s
  | .inflate code => Sys2Proof.Machine.execInflate code s
  | .wav code => Sys2Proof.Machine.execWav code s
  | .record code => Sys2Proof.Machine.execRecord code s
  | .probe code => Sys2Proof.Machine.execProbe code s
  | .stripeAlloc code d => Sys2Proof.Machine.execStripeAlloc code d s
  | .compress code => Sys2Proof.Machine.execCompress code s
  | .decompress code => Sys2Proof.Machine.execDecompress code s
  | .brlStreamOpen code => Sys2Proof.Machine.execBrlStreamOpen code s
  | .brlStreamData code => Sys2Proof.Machine.execBrlStreamData code s
  | .brlStreamSave code => Sys2Proof.Machine.execBrlStreamSave code s
  | .brlStreamRestore code => Sys2Proof.Machine.execBrlStreamRestore code s
  | .brlStreamClose code => Sys2Proof.Machine.execBrlStreamClose code s
  | .frbEncode code => Sys2Proof.Machine.execFrbEncode code s
  | .frbDecode code => Sys2Proof.Machine.execFrbDecode code s
  | .tokLoad code => Sys2Proof.Machine.execTokLoad code s
  | .grammarLoad code => Sys2Proof.Machine.execGrammarLoad code s
  | .unload code => Sys2Proof.Machine.execUnload code s
  | .tokenize code => Sys2Proof.Machine.execTokenize code s
  | .detokenize code => Sys2Proof.Machine.execDetokenize code s
  | .grammarInit code => Sys2Proof.Machine.execGrammarInit code s
  | .advance code => Sys2Proof.Machine.execAdvance code s
  | .mask code => Sys2Proof.Machine.execMask code s
  | .workRequestStart qpn => Sys2Proof.Machine.execWorkRequestStart qpn s
  | .qpContextFetch qpn => Sys2Proof.Machine.execQpContextFetch qpn s
  | .qpHoldExpiry qpn => Sys2Proof.Machine.execQpHoldExpiry qpn s
  | .writePacket p => Sys2Proof.Machine.execWritePacket p s
  | .writeImmPacket p => Sys2Proof.Machine.execWriteImmPacket p s
  | .readReqPacket p => Sys2Proof.Machine.execReadReqPacket p s
  | .readRespPacket p => Sys2Proof.Machine.execReadRespPacket p s
  | .fetchAddPacket p => Sys2Proof.Machine.execFetchAddPacket p s
  | .cmpSwapPacket p => Sys2Proof.Machine.execCmpSwapPacket p s
  | .atomicRespPacket p => Sys2Proof.Machine.execAtomicRespPacket p s
  | .counterAddPacket p => Sys2Proof.Machine.execCounterAddPacket p s
  | .ackPacket p => Sys2Proof.Machine.execAckPacket p s
  | .nakPacket p => Sys2Proof.Machine.execNakPacket p s
  | .faultWaitPacket p => Sys2Proof.Machine.execFaultWaitPacket p s
  | .frontierPacket p => Sys2Proof.Machine.execFrontierPacket p s
  | .connectReqPacket p => Sys2Proof.Machine.execConnectReqPacket p s
  | .connectRespPacket p => Sys2Proof.Machine.execConnectRespPacket p s
  | .closePacket p => Sys2Proof.Machine.execClosePacket p s
  | .probePacket p => Sys2Proof.Machine.execProbePacket p s
  | .probeRespPacket p => Sys2Proof.Machine.execProbeRespPacket p s
  | .roceV2Packet p => Sys2Proof.Machine.execRoceV2Packet p s
  | .ackTimer qpn => Sys2Proof.Machine.execAckTimer qpn s
  | .frontierTimer qpn => Sys2Proof.Machine.execFrontierTimer qpn s
  | .rtoExpiry qpn path => Sys2Proof.Machine.execRtoExpiry qpn path s
  | .probeTimer qpn path => Sys2Proof.Machine.execProbeTimer qpn path s
  | .faultWaitResend qpn => Sys2Proof.Machine.execFaultWaitResend qpn s
  | .remoteWaitTimeout qpn => Sys2Proof.Machine.execRemoteWaitTimeout qpn s
  | .connectRetry qpn => Sys2Proof.Machine.execConnectRetry qpn s
  | .idleTeardown qpn => Sys2Proof.Machine.execIdleTeardown qpn s
  | .mrRegister => Sys2Proof.Machine.execMrRegister s
  | .mrDeregister => Sys2Proof.Machine.execMrDeregister s
  | .mrDeregisterDrained => Sys2Proof.Machine.execMrDeregisterDrained s
  | .qpCreate => Sys2Proof.Machine.execQpCreate s
  | .qpDestroy => Sys2Proof.Machine.execQpDestroy s
  | .qpDrainDone qpn => Sys2Proof.Machine.execQpDrainDone qpn s
  | .qpResume => Sys2Proof.Machine.execQpResume s
  | .qpReset => Sys2Proof.Machine.execQpReset s
  | .ringSet => Sys2Proof.Machine.execRingSet s
  | .taggedAddArrival ctr amt tag job => Sys2Proof.Machine.execTaggedAddArrival ctr amt tag job s
  | .untaggedAddArrival ctr amt => Sys2Proof.Machine.execUntaggedAddArrival ctr amt s
  | .pendingAddMerge ctr => Sys2Proof.Machine.execPendingAddMerge ctr s
  | .poolEnable p => Sys2Proof.Machine.execPoolEnable p s
  | .poolDisable p => Sys2Proof.Machine.execPoolDisable p s
  | .allocWaiterServed p => Sys2Proof.Machine.execAllocWaiterServed p s
  | .portEnable p v => Sys2Proof.Machine.execPortEnable p v s
  | .portDisable p => Sys2Proof.Machine.execPortDisable p s
  | .retrain p => Sys2Proof.Machine.execRetrain p s
  | .portTrainingDone p => Sys2Proof.Machine.execPortTrainingDone p s
  | .trainingRetry p => Sys2Proof.Machine.execTrainingRetry p s
  | .lossOfLock p => Sys2Proof.Machine.execLossOfLock p s
  | .fecWindowEnd p cw sym unc => Sys2Proof.Machine.execFecWindowEnd p cw sym unc s
  | .frameReceived p f fcs at_ => Sys2Proof.Machine.execFrameReceived p f fcs at_ s
  | .pfcRepeat p prio occ => Sys2Proof.Machine.execPfcRepeat p prio occ s
  | .pfcFrameReceived p f => Sys2Proof.Machine.execPfcFrameReceived p f s
  | .ptpStep step => Sys2Proof.Machine.execPtpStep step s
  | .mgmtTxGo v => Sys2Proof.Machine.execMgmtTxGo v s
  | .mgmtTxDone at_ => Sys2Proof.Machine.execMgmtTxDone at_ s
  | .mgmtRingEnable => Sys2Proof.Machine.execMgmtRingEnable s
  | .slipRingEnable => Sys2Proof.Machine.execSlipRingEnable s
  | .nandReadDone loc ok bits => Sys2Proof.Machine.execNandReadDone loc ok bits s
  | .nandProgramDone loc ok => Sys2Proof.Machine.execNandProgramDone loc ok s
  | .nandEraseDone loc ok => Sys2Proof.Machine.execNandEraseDone loc ok s
  | .logFlushTimer => Sys2Proof.Machine.execLogFlushTimer s
  | .gcCollect lun => Sys2Proof.Machine.execGcCollect lun s
  | .mapCheckpoint => Sys2Proof.Machine.execMapCheckpoint s
  | .channelRetrain ch => Sys2Proof.Machine.execChannelRetrain ch s
  | .targetTimeout ch tgt => Sys2Proof.Machine.execTargetTimeout ch tgt s
  | .mediaRecovery r => Sys2Proof.Machine.execMediaRecovery r s
  | .format v => Sys2Proof.Machine.execFormat v s
  | .spareMinWrite v => Sys2Proof.Machine.execSpareMinWrite v s
  | .hiDrvEnable v => Sys2Proof.Machine.execHiDrvEnable v s
  | .tsGo slot => Sys2Proof.Machine.execTsGo slot s
  | .read slot => Sys2Proof.Machine.execRead slot s
  | .write slot => Sys2Proof.Machine.execWrite slot s
  | .flush slot => Sys2Proof.Machine.execFlush slot s
  | .trim slot => Sys2Proof.Machine.execTrim slot s
  | .identify slot => Sys2Proof.Machine.execIdentify slot s
  | .selfTest slot failed => Sys2Proof.Machine.execSelfTest slot failed s
  | .getLog slot => Sys2Proof.Machine.execGetLog slot s
  | .powerState slot => Sys2Proof.Machine.execPowerState slot s
  | .programLoad slot place => Sys2Proof.Machine.execProgramLoad slot place s
  | .programUnload slot => Sys2Proof.Machine.execProgramUnload slot s
  | .jobStart slot l param => Sys2Proof.Machine.execJobStart slot l param s
  | .jobStop slot => Sys2Proof.Machine.execJobStop slot s
  | .jobWait slot => Sys2Proof.Machine.execJobWait slot s
  | .checkpoint slot => Sys2Proof.Machine.execCheckpoint slot s
  | .spareRemap slot ok => Sys2Proof.Machine.execSpareRemap slot ok s
  | .lockstepPair slot => Sys2Proof.Machine.execLockstepPair slot s
  | .groupJoin slot => Sys2Proof.Machine.execGroupJoin slot s
  | .groupLeave slot => Sys2Proof.Machine.execGroupLeave slot s
  | .jobAgreement slot timeout => Sys2Proof.Machine.execJobAgreement slot timeout s
  | .cringEntryWrite ring => Sys2Proof.Machine.execCringEntryWrite ring s
  | .hiCringEnable ring v => Sys2Proof.Machine.execHiCringEnable ring v s
  | .journalMirror => Sys2Proof.Machine.execJournalMirror s
  | .selfTestYield => Sys2Proof.Machine.execSelfTestYield s
  | .selfTestResume => Sys2Proof.Machine.execSelfTestResume s
  | .hbmRefresh stack => Sys2Proof.Machine.execHbmRefresh stack s
  | .lehrGo v => Sys2Proof.Machine.execLehrGo v s
  | .lehrAbort => Sys2Proof.Machine.execLehrAbort s
  | .lehrPassDone => Sys2Proof.Machine.execLehrPassDone s
  | .canaryTrip tile path => Sys2Proof.Machine.execCanaryTrip tile path s
  | .healthDecay => Sys2Proof.Machine.execHealthDecay s
  | .commitPoint job b => Sys2Proof.Machine.execCommitPoint job b s
  | .commitAgreementRelease job => Sys2Proof.Machine.execCommitAgreementRelease job s
  | .commitTimeout job => Sys2Proof.Machine.execCommitTimeout job s
  | .commitSet => Sys2Proof.Machine.execCommitSet s
  | .recover => Sys2Proof.Machine.execRecover s
  | .margin failed => Sys2Proof.Machine.execMargin failed s
  | .lockstepDigest key batch dg => Sys2Proof.Machine.execLockstepDigest key batch dg s
  | .lockstepTimeout => Sys2Proof.Machine.execLockstepTimeout s
  | .powerOnReset cause => Sys2Proof.Machine.execPowerOnReset cause s
  | .resetInNPulse kind => Sys2Proof.Machine.execResetInNPulse kind s
  | .bringUp => Sys2Proof.Machine.execBringUp s
  | .clkReady => Sys2Proof.Machine.execClkReady s
  | .fuseLoad f => Sys2Proof.Machine.execFuseLoad f s
  | .coreVrPg v => Sys2Proof.Machine.execCoreVrPg v s
  | .gafferBoot => Sys2Proof.Machine.execGafferBoot s
  | .fillDone ok => Sys2Proof.Machine.execFillDone ok s
  | .runtimeLaunch l => Sys2Proof.Machine.execRuntimeLaunch l s
  | .bringUpFailed st => Sys2Proof.Machine.execBringUpFailed st s
  | .blkReset v => Sys2Proof.Machine.execBlkReset v s
  | .wakeEvent src => Sys2Proof.Machine.execWakeEvent src s
  | .wakeTimer => Sys2Proof.Machine.execWakeTimer s
  | .wake => Sys2Proof.Machine.execWake s
  | .relNand => Sys2Proof.Machine.execRelNand s
  | .relEth => Sys2Proof.Machine.execRelEth s
  | .opPointEval tj power => Sys2Proof.Machine.execOpPointEval tj power s
  | .pwrVsetWrite v => Sys2Proof.Machine.execPwrVsetWrite v s
  | .thermalTrip tj => Sys2Proof.Machine.execThermalTrip tj s
  | .thermalTripRelease tj => Sys2Proof.Machine.execThermalTripRelease tj s
  | .refclkLoss => Sys2Proof.Machine.execRefclkLoss s
  | .refclkReturn => Sys2Proof.Machine.execRefclkReturn s
  | .i3cCapWrite v => Sys2Proof.Machine.execI3cCapWrite v s
  | .i3cWake => Sys2Proof.Machine.execI3cWake s
  | .stage ok => Sys2Proof.Machine.execStage ok s
  | .activate ok => Sys2Proof.Machine.execActivate ok s
  | .commitSvn => Sys2Proof.Machine.execCommitSvn s
  | .revokeKey => Sys2Proof.Machine.execRevokeKey s
  | .attest => Sys2Proof.Machine.execAttest s
  | .getVersion m => Sys2Proof.Machine.execGetVersion m s
  | .getCapabilities m => Sys2Proof.Machine.execGetCapabilities m s
  | .negotiateAlgorithms m => Sys2Proof.Machine.execNegotiateAlgorithms m s
  | .getDigests m => Sys2Proof.Machine.execGetDigests m s
  | .getCertificate m => Sys2Proof.Machine.execGetCertificate m s
  | .challenge m => Sys2Proof.Machine.execChallenge m s
  | .getMeasurements m => Sys2Proof.Machine.execGetMeasurements m s
  | .registerWrite pa v priv => Sys2Proof.Machine.execRegisterWrite pa v priv s
  | .hdmAccess a w len => Sys2Proof.Machine.execHdmAccess a w len s
  | .hdmDecoderCommit commit => Sys2Proof.Machine.execHdmDecoderCommit commit s
  | .cxlLinkTraining up cxl lanes gtps => Sys2Proof.Machine.execCxlLinkTraining up cxl lanes gtps s
  | .perstN level => Sys2Proof.Machine.execPerstN level s
  | .pfcPauseExpiry p prio => Sys2Proof.Machine.execPfcPauseExpiry p prio s
  | .ideKm m => Sys2Proof.Machine.execIdeKm m s
  | .secureSession m => Sys2Proof.Machine.execSecureSession m s

end Sys2Proof.Machine
end

