-- ==== Sys2Proof/Machine/Tick.lean ====
section
/-! DEFINITION. What one idle period of the 100 MHz reference clock does (R24, R78, R396): time and pace advance, and raised events reach their rings. -/

namespace Sys2Proof.Machine

/-- Unit of the fraction of a nanosecond: 2^-40 ns. -/
def nsUnit : Int := 2 ^ 40
/-- Slew of one reference period: 1,000 ppm of it, toward the remaining correction (R396). -/
def slewStep (left : Int) : Int :=
  let m := nsUnit * Config.refPeriodNs / 1000
  max (-m) (min m left)
/-- Advance the nanosecond time by one reference period with its trim and slew (R396). -/
def timeStep (s : State) : State :=
  let d := slewStep s.ptpSlew
  let x := (s.nowFrac : Int) + nsUnit * Config.refPeriodNs + Config.refPeriodNs * s.ptpRate.toInt + d
  { s with now := s.now + BitVec.ofInt 64 (x / nsUnit), nowFrac := (x % nsUnit).toNat, ptpSlew := s.ptpSlew - d }
/-- The pace generator adds MULT ticks a reference period while it runs (R24, R78). -/
def paceStep (s : State) : State :=
  if s.pace.running then { s with pace := { s.pace with tick := s.pace.tick + s.pace.mult.setWidth 64 } } else s
/-- One idle period: nothing counts while REFCLK100 is missing (R548). -/
def tick (s : State) : State :=
  let s1 := if s.pwr.refclk then paceStep (timeStep s) else s
  eventsDeliver s1

end Sys2Proof.Machine
end

