-- ==== Sys2Proof/WellFormed.lean ====
section
/-! DEFINITION. Well-formed commands: the operands that the environment can give one, beyond what their types say. The commands' meanings are total all the same. -/

namespace Sys2Proof

/-- Code of a codec complex (BLK_RESET.TARGET). -/
def codecCode (c : BitVec 8) : Bool := decide (c.toNat < 48)
/-- Code of a token engine. -/
def tokenCode (c : BitVec 8) : Bool := decide (64 ≤ c.toNat ∧ c.toNat < 112)
/-- Code of a Marver. -/
def marverCode (c : BitVec 8) : Bool := decide (128 ≤ c.toNat ∧ c.toNat < 176)
/-- Code of a Parison. -/
def parisonCode (c : BitVec 8) : Bool := decide (192 ≤ c.toNat ∧ c.toNat < 198)
/-- A UCB index, or 0xF000 plus the code of an engine instance (R510). -/
def unitTarget (t : Nat) : Bool := decide (t < 4096) || decide (0xF000 ≤ t ∧ t < 0xF000 + 202)

/-- A Frerak packet of the row's TYPE whose payload has the length its header gives (R338, R339). -/
def pktWf (type : Nat) (p : Pkt) : Bool := decide (p.type.toNat = type) && decide (p.payload.length = p.plen.toNat)
/-- A RoCE v2 packet: requests and answers without a place in a message are their message's only packet. -/
def roceWf (p : RocePkt) : Bool :=
  decide (p.payload.length ≤ 4096) &&
  match p.op with
  | .write | .writeImm | .readResp => true
  | _ => p.first && p.last
/-- The report of a group member: a state code, at most 1,000 of score, confidence and 48 spares' count, causes below 64 (R38). -/
def memberWf (m : Member) : Bool :=
  decide (m.state.toNat ≤ 8) && decide (m.score.toNat ≤ 1000) && decide (m.conf.toNat ≤ 1000) && m.counts.all fun c => decide (c.1 < 64)
/-- A message between assemblers: ranks in order (R212, R213). -/
def streamMsgWf : StreamMsg → Bool
  | .request _ _ _ lo hi => decide (lo ≤ hi)
  | _ => true
/-- What recovery finds: targets that exist, at most 64 channels of 16, and the anchor before any checkpoint (R400, R420). -/
def mediaFoundWf (r : MediaFound) : Bool :=
  (r.targets.all fun t => decide (t < 1024)) && (r.odd.all fun t => decide (t < 1024)) && (r.anchor || !(r.newer || r.older))
/-- What the fuse sequencer reads: blocks 0 to 4, tiles and slots that exist (R18, R504). -/
def fusesWf (f : Fuses) : Bool :=
  (f.good.all fun b => decide (b < 5)) && (f.map.all fun e => decide (e.1 < 768 ∧ e.2 < 18)) && (f.bad.all fun i => decide (i < 864))
/-- Save area and window of a launch: the area is aligned to 64 KiB (R100, R85). -/
def launchWf (l : Launch) : Bool := decide (l.area.toNat % 65536 = 0) && decide (l.tsBase.toNat + l.tsSize.toNat ≤ 768)
/-- A request of code `code` on the DOE mailbox: at least its four header bytes (R529). -/
def spdmWf (code : Byte) (m : Bytes) : Bool := decide (4 ≤ m.length) && decide (m.getD 1 0 = code)
/-- A digest has 32 bytes (R495). -/
def digestWf (d : Bytes) : Bool := decide (d.length = 32)
/-- An HDM access lies in one 64-byte line, and a write carries its bytes (R429). -/
def hdmWf (a : Word) (w : Option Bytes) (len : Nat) : Bool :=
  decide (0 < len) && decide (a.toNat % 64 + len ≤ 64) && (w.all fun b => decide (b.length = len))
/-- A register write is aligned to its width (R427, R532; log 44). -/
def regWriteWf (pa : Word) : Bool := if pa.getLsbD 63 && pa.getLsbD 62 then decide (pa.toNat % 4 = 0) else decide (pa.toNat % 8 = 0)
/-- A received frame's length without its frame check sequence (R390). -/
def frameWf (f : Bytes) : Bool := decide (14 ≤ f.length)
/-- A path ID of a queue pair, 0 to 63 (R339). -/
def pathWf (p : Nat) : Bool := decide (p < 64)

/-- The command's operands are such as the environment gives them. -/
def Instr.wf : Instr → Bool
  | .write _ => true
  | .holdRelease u => unitTarget u
  | .slip u _ cause _ => unitTarget u && decide (1 ≤ cause.toNat)
  | .quiesceDrained t => unitTarget t
  | .quiesceTimeout t => unitTarget t
  | .groupRefresh _ ms => decide (ms.length ≤ 256) && ms.all memberWf
  | .marverPermutation c => marverCode c
  | .streamOpen c => parisonCode c
  | .submit c => parisonCode c
  | .close c => parisonCode c
  | .reportForward c m => parisonCode c && streamMsgWf m
  | .batchMakeup c _ => parisonCode c
  | .batchDelivery c _ _ => parisonCode c
  | .deliveryComplete c _ _ _ => parisonCode c
  | .jpeg c => codecCode c
  | .png c => codecCode c
  | .inflate c => codecCode c
  | .wav c => codecCode c
  | .record c => codecCode c
  | .probe c => codecCode c
  | .stripeAlloc c _ => codecCode c
  | .compress c => codecCode c
  | .decompress c => codecCode c
  | .brlStreamOpen c => codecCode c
  | .brlStreamData c => codecCode c
  | .brlStreamSave c => codecCode c
  | .brlStreamRestore c => codecCode c
  | .brlStreamClose c => codecCode c
  | .frbEncode c => codecCode c
  | .frbDecode c => codecCode c
  | .tokLoad c => tokenCode c
  | .grammarLoad c => tokenCode c
  | .unload c => tokenCode c
  | .tokenize c => tokenCode c
  | .detokenize c => tokenCode c
  | .grammarInit c => tokenCode c
  | .advance c => tokenCode c
  | .mask c => tokenCode c
  | .writePacket p => pktWf 0x01 p
  | .writeImmPacket p => pktWf 0x02 p
  | .readReqPacket p => pktWf 0x03 p
  | .readRespPacket p => pktWf 0x04 p
  | .fetchAddPacket p => pktWf 0x05 p
  | .cmpSwapPacket p => pktWf 0x06 p
  | .atomicRespPacket p => pktWf 0x07 p
  | .counterAddPacket p => pktWf 0x08 p
  | .ackPacket p => pktWf 0x10 p
  | .nakPacket p => pktWf 0x11 p
  | .faultWaitPacket p => pktWf 0x12 p
  | .frontierPacket p => pktWf 0x13 p
  | .connectReqPacket p => pktWf 0x20 p
  | .connectRespPacket p => pktWf 0x21 p
  | .closePacket p => pktWf 0x22 p
  | .probePacket p => pktWf 0x23 p
  | .probeRespPacket p => pktWf 0x24 p
  | .roceV2Packet p => roceWf p
  | .rtoExpiry _ p => pathWf p
  | .probeTimer _ p => pathWf p
  | .frameReceived _ f _ _ => frameWf f
  | .mediaRecovery r => mediaFoundWf r
  | .jobStart _ l _ => l.all launchWf
  | .lockstepDigest _ _ d => digestWf d
  | .fuseLoad f => fusesWf f
  | .runtimeLaunch l => launchWf l
  | .getVersion m => spdmWf 0x84 m
  | .getCapabilities m => spdmWf 0xE1 m
  | .negotiateAlgorithms m => spdmWf 0xE3 m
  | .getDigests m => spdmWf 0x81 m
  | .getCertificate m => spdmWf 0x82 m
  | .challenge m => spdmWf 0x83 m
  | .getMeasurements m => spdmWf 0xE0 m
  | .secureSession m => spdmWf 0xE4 m || spdmWf 0xE5 m || spdmWf 0xEC m
  | .registerWrite pa _ _ => regWriteWf pa
  | .hdmAccess a w len => hdmWf a w len
  | .alu _ _ => true
  | .addi _ _ => true
  | .andi _ _ => true
  | .ori _ _ => true
  | .xori _ _ => true
  | .slti _ _ => true
  | .sltiu _ _ => true
  | .slli _ _ => true
  | .srli _ _ => true
  | .srai _ _ => true
  | .rori _ _ => true
  | .li _ _ => true
  | .lih _ _ => true
  | .ld _ _ => true
  | .st _ _ => true
  | .vld _ _ => true
  | .vst _ _ => true
  | .beq _ _ => true
  | .bne _ _ => true
  | .blt _ _ => true
  | .bge _ _ => true
  | .bltu _ _ => true
  | .bgeu _ _ => true
  | .jal _ _ => true
  | .jalr _ _ => true
  | .srr _ _ => true
  | .srw _ _ => true
  | .ecall _ _ => true
  | .break_ _ _ => true
  | .xret _ _ => true
  | .rfence _ _ => true
  | .tlbinv _ _ => true
  | .valu _ _ => true
  | .vfp _ _ => true
  | .vcmp _ _ => true
  | .vperm _ _ => true
  | .vcvt _ _ => true
  | .vred _ _ => true
  | .vscg _ _ => true
  | .tmma _ _ => true
  | .tzero _ _ => true
  | .tld _ _ => true
  | .tst _ _ => true
  | .trnd _ _ => true
  | .trndf _ _ => true
  | .trnds _ _ => true
  | .trndfs _ _ => true
  | .xdot _ _ => true
  | .xzero _ _ => true
  | .xrnd _ _ => true
  | .xexp _ _ => true
  | .ximp _ _ => true
  | .rput _ _ => true
  | .rputi _ _ => true
  | .rget _ _ => true
  | .rfadd _ _ => true
  | .rcas _ _ => true
  | .sadd _ _ => true
  | .swait _ _ => true
  | .qpost _ _ => true
  | .epost _ _ => true
  | .calloc _ _ => true
  | .callocn _ _ => true
  | .cref _ _ => true
  | .cfree _ _ => true
  | .exit _ _ => true
  | .settag _ _ => true
  | .launch _ _ => true
  | .trmark _ _ => true
  | .remoteOpComplete _ => true
  | .remoteRejection _ _ => true
  | .waitSatisfied _ => true
  | .sliceBoundary _ _ => true
  | .issueGroup _ => true
  | .frontierAdvance _ _ => true
  | .decisionPointServe _ => true
  | .orderStall _ => true
  | .keyDerive _ _ _ => true
  | .quiesce _ _ => true
  | .resume _ _ => true
  | .freeze _ _ => true
  | .unfreeze _ _ => true
  | .reset _ _ => true
  | .ucbCmdNone _ _ _ => true
  | .ucbTroubleClr _ _ _ => true
  | .groupCommandForward _ _ => true
  | .hsRateUpdate _ _ => true
  | .gatherRead _ => true
  | .verify _ => true
  | .ingest _ => true
  | .ingestTake _ => true
  | .gatherStrandReadDone _ _ => true
  | .workRequestStart _ => true
  | .qpContextFetch _ => true
  | .qpHoldExpiry _ => true
  | .ackTimer _ => true
  | .frontierTimer _ => true
  | .faultWaitResend _ => true
  | .remoteWaitTimeout _ => true
  | .connectRetry _ => true
  | .idleTeardown _ => true
  | .mrRegister => true
  | .mrDeregister => true
  | .mrDeregisterDrained => true
  | .qpCreate => true
  | .qpDestroy => true
  | .qpDrainDone _ => true
  | .qpResume => true
  | .qpReset => true
  | .ringSet => true
  | .taggedAddArrival _ _ _ _ => true
  | .untaggedAddArrival _ _ => true
  | .pendingAddMerge _ => true
  | .poolEnable _ => true
  | .poolDisable _ => true
  | .allocWaiterServed _ => true
  | .portEnable _ _ => true
  | .portDisable _ => true
  | .retrain _ => true
  | .portTrainingDone _ => true
  | .trainingRetry _ => true
  | .lossOfLock _ => true
  | .fecWindowEnd _ _ _ _ => true
  | .pfcRepeat _ _ _ => true
  | .pfcFrameReceived _ _ => true
  | .ptpStep _ => true
  | .mgmtTxGo _ => true
  | .mgmtTxDone _ => true
  | .mgmtRingEnable => true
  | .slipRingEnable => true
  | .nandReadDone _ _ _ => true
  | .nandProgramDone _ _ => true
  | .nandEraseDone _ _ => true
  | .logFlushTimer => true
  | .gcCollect _ => true
  | .mapCheckpoint => true
  | .channelRetrain _ => true
  | .targetTimeout _ _ => true
  | .format _ => true
  | .spareMinWrite _ => true
  | .hiDrvEnable _ => true
  | .tsGo _ => true
  | .read _ => true
  | .flush _ => true
  | .trim _ => true
  | .identify _ => true
  | .selfTest _ _ => true
  | .getLog _ => true
  | .powerState _ => true
  | .programLoad _ _ => true
  | .programUnload _ => true
  | .jobStop _ => true
  | .jobWait _ => true
  | .checkpoint _ => true
  | .spareRemap _ _ => true
  | .lockstepPair _ => true
  | .groupJoin _ => true
  | .groupLeave _ => true
  | .jobAgreement _ _ => true
  | .cringEntryWrite _ => true
  | .hiCringEnable _ _ => true
  | .journalMirror => true
  | .selfTestYield => true
  | .selfTestResume => true
  | .hbmRefresh _ => true
  | .lehrGo _ => true
  | .lehrAbort => true
  | .lehrPassDone => true
  | .canaryTrip _ _ => true
  | .healthDecay => true
  | .commitPoint _ _ => true
  | .commitAgreementRelease _ => true
  | .commitTimeout _ => true
  | .commitSet => true
  | .recover => true
  | .margin _ => true
  | .lockstepTimeout => true
  | .powerOnReset _ => true
  | .resetInNPulse _ => true
  | .bringUp => true
  | .clkReady => true
  | .coreVrPg _ => true
  | .gafferBoot => true
  | .fillDone _ => true
  | .bringUpFailed _ => true
  | .blkReset _ => true
  | .wakeEvent _ => true
  | .wakeTimer => true
  | .wake => true
  | .relNand => true
  | .relEth => true
  | .opPointEval _ _ => true
  | .pwrVsetWrite _ => true
  | .thermalTrip _ => true
  | .thermalTripRelease _ => true
  | .refclkLoss => true
  | .refclkReturn => true
  | .i3cCapWrite _ => true
  | .i3cWake => true
  | .stage _ => true
  | .activate _ => true
  | .commitSvn => true
  | .revokeKey => true
  | .attest => true
  | .hdmDecoderCommit _ => true
  | .cxlLinkTraining _ _ _ _ => true
  | .perstN _ => true
  | .pfcPauseExpiry _ _ => true
  | .ideKm _ => true

end Sys2Proof
end

