-- ==== Sys2Proof/Safety.lean ====
section
/-! DEFINITION. What counts as a safe run: the memories keep their canonical form, a command leaves the queue of waiting commands alone, and a step answers a next state; and the words the statements use: when an instruction word issues without an exception, and what it is to retire. -/

namespace Sys2Proof.Machine

/-- The memories and the counter table have their canonical form: keys strictly rising, no entry at what an unlisted key reads as. -/
def State.memInv (s : State) : Prop :=
  memWf s.hbm = true ∧ memWf s.ts = true ∧ memWf s.hostMem = true ∧ tabWf 0 s.ctrs = true

/-- What every operation keeps: the queue of waiting commands, and the canonical form of the memories. -/
def Keeps (s t : State) : Prop := t.pending = s.pending ∧ (s.memInv → t.memInv)

/-- An outcome is a next state. -/
def Completes (o : Out_) : Prop := ∃ t, o = .next t

/-- Tiles and their hardware contexts stand in rising order. -/
def State.tilesWf (s : State) : Bool := tabSorted none s.tiles && s.tiles.all fun e => tabSorted none e.2.hws

/-- The software context that the hardware context of an issue holds. -/
def curCtx (s : State) (i : Issue) : Ctx := (ctxGet s i.tile.val i.hw.val).getD {}
/-- That context once the word has been fetched: its cached translations may have changed. -/
def fetchedCtx (s : State) (i : Issue) : Ctx := (fetch s (curCtx s i) i).2.1
/-- The state once the word has been fetched. -/
def fetchedState (s : State) (i : Issue) : State := (fetch s (curCtx s i) i).2.2
/-- An instruction word issues and raises nothing before its meaning: a context stands there and can issue, the fetch succeeds, the encoding is defined, the binary's profile covers it and STEP does not overflow (R49, R86, R89, R94, R101, R115-R121, R127). -/
def Issues (s : State) (i : Issue) (d : Deps) (enc : Bool) : Bool :=
  (ctxGet s i.tile.val i.hw.val).isSome && canIssue s i.tile.val i.hw.val (curCtx s i) d &&
  (fetch s (curCtx s i) i).1.isEmpty && enc && profileOk (curCtx s i) d && (stepExc (curCtx s i)).isEmpty
/-- The command answers the state in which its instruction has retired from state `s2` with context `c2`: next address `nx` where it is not the following one, memory writes `mw` for the trace. -/
def RetiresTo (x : Instr) (s : State) (i : Issue) (d : Deps) (s2 : State) (c2 : Ctx) (nx : Option Word) (mw : List (Nat × Bytes)) : Prop :=
  exec x s = .next (retire s2 i.tile.val i.hw.val i d (fetchedCtx s i) c2 nx mw)
/-- The command answers the state in which its instruction waits in its hardware context with wait `w`, issued and not retired. -/
def WaitsAs (x : Instr) (s : State) (i : Issue) (s2 : State) (c2 : Ctx) (w : Wait) : Prop :=
  exec x s = .next (match w with
    | .swait _ _ | .rfence | .exit _ | .pool _ _ _ => blockSave (ctxSet s2 i.tile.val i.hw.val { c2 with wait := w }) i.tile.val i.hw.val
    | _ => ctxSet s2 i.tile.val i.hw.val { c2 with wait := w })
/-- The command answers the state in which exception `e` is taken from state `s2`. -/
def TakesExc (x : Instr) (s : State) (i : Issue) (s2 : State) (e : Exc) : Prop :=
  exec x s = .next (takeExc s2 i.tile.val i.hw.val (fetchedCtx s i) e)
/-- Engine instance `code` takes descriptor `d` with operation `op` next: it starts descriptors, every queued one has a listed operation, `d` is the one it picks, its length is that of the operation, and its bytes read as `b`, leaving state `s1` (R110, R111, R235, R251). -/
def Picks (s : State) (engine code op len : Nat) (d : Desc) (b : Bytes) (s1 : State) : Prop :=
  engIs engine code = true ∧ engStarts s code = true ∧ ((engQueue s code).all fun x => engListed x.engine x.op) = true ∧
  engPick s code op = some d ∧ d.length = len ∧ (engBytes d d.va len : EM Bytes).run s = (.ok b, s1)
/-- The state in which a Frerak packet has been counted at its port and its queue pair is the one used most recently (R318, R398). -/
def arrived (s : State) (p : Pkt) : State :=
  qpResident (portCount (portCount s p.port.toNat 2 1) p.port.toNat 3 (frameLen p.srcIp false ((pktBody p).length + 4))) p.dqpn.toNat
/-- A Frerak packet with a good CRC arrives at an UP port for a queue pair that exists and is resident (R318, R326, R338, R386). -/
def Arrives (s : State) (p : Pkt) : Bool :=
  decide ((portGet s p.port.toNat).state = 2) && pktGood p && decide ((qpGet s p.dqpn.toNat).state ≠ .free) && (qpGet s p.dqpn.toNat).resident
/-- A slot's accepted command reaches its own work: the opcode is this one, the device runs commands, and the common checks pass (R433). -/
def Runs (s : State) (k op : Nat) : Bool := slotRuns s k op && slotFieldsOk s (slotGet s k)
/-- Slot `k` is DONE with this status and these results (R434). -/
def Ended (t : State) (k : Nat) (st : Status) (r0 r1 : Word) : Prop :=
  (slotGet t k).state = 2 ∧ (slotGet t k).status = st ∧ (slotGet t k).result0 = r0 ∧ (slotGet t k).result1 = r1

end Sys2Proof.Machine
end

