-- ==== Sys2Proof/Certificates/Slice0/Obligations.lean ====
section
/-! DEFINITION. The statements for the provers. Every rule number is one of spec/; a statement marked derived that rests on a choice of the model names the log entry. -/

open Sys2Proof Sys2Proof.Machine

/-- The ALU function table. For all 64-bit a and b, each function code of the ALU gives the value of the table: sums, logic, shifts and rotates by b mod 64, comparisons, minima and maxima, products, quotients, remainders, bit counts and byte reversal; every other code names no function; a zero divisor gives all ones and a, and the most negative number divided by minus one gives itself and zero; DIV, DIVU, REM and REMU take class VECTOR, the others SCALAR. (Stated: R124) -/
def Obligations.AluFunctions : Prop :=
  ∀ a b : Word,
    aluFn 0x00 a b = some (a + b) ∧ aluFn 0x01 a b = some (a - b) ∧
    aluFn 0x02 a b = some (a &&& b) ∧ aluFn 0x03 a b = some (a ||| b) ∧ aluFn 0x04 a b = some (a ^^^ b) ∧
    aluFn 0x05 a b = some (a <<< (b.toNat % 64)) ∧ aluFn 0x06 a b = some (a >>> (b.toNat % 64)) ∧
    aluFn 0x07 a b = some (a.sshiftRight (b.toNat % 64)) ∧ aluFn 0x08 a b = some (a.rotateRight (b.toNat % 64)) ∧
    aluFn 0x09 a b = some (if a.toInt < b.toInt then 1 else 0) ∧ aluFn 0x0A a b = some (if a.toNat < b.toNat then 1 else 0) ∧
    (∃ m, aluFn 0x0B a b = some m ∧ m.toInt = min a.toInt b.toInt) ∧
    (∃ m, aluFn 0x0C a b = some m ∧ m.toInt = max a.toInt b.toInt) ∧
    (∃ m, aluFn 0x0D a b = some m ∧ m.toNat = min a.toNat b.toNat) ∧
    (∃ m, aluFn 0x0E a b = some m ∧ m.toNat = max a.toNat b.toNat) ∧
    aluFn 0x10 a b = some (a * b) ∧
    aluFn 0x11 a b = some (BitVec.ofInt 64 (a.toInt * b.toInt / 2 ^ 64)) ∧
    (∃ h, aluFn 0x12 a b = some h ∧ h.toNat = a.toNat * b.toNat / 2 ^ 64) ∧
    aluFn 0x13 a b = some (BitVec.ofInt 64 (a.toInt * b.toNat / 2 ^ 64)) ∧
    (b ≠ 0 → aluFn 0x14 a b = some (BitVec.ofInt 64 (a.toInt.tdiv b.toInt)) ∧
      (∃ q, aluFn 0x15 a b = some q ∧ q.toNat = a.toNat / b.toNat) ∧
      aluFn 0x16 a b = some (BitVec.ofInt 64 (a.toInt.tmod b.toInt)) ∧
      (∃ r, aluFn 0x17 a b = some r ∧ r.toNat = a.toNat % b.toNat)) ∧
    aluFn 0x14 a 0 = some (BitVec.allOnes 64) ∧ aluFn 0x15 a 0 = some (BitVec.allOnes 64) ∧
    aluFn 0x16 a 0 = some a ∧ aluFn 0x17 a 0 = some a ∧
    aluFn 0x14 (BitVec.intMin 64) (BitVec.allOnes 64) = some (BitVec.intMin 64) ∧
    aluFn 0x16 (BitVec.intMin 64) (BitVec.allOnes 64) = some 0 ∧
    (∃ n, aluFn 0x18 a b = some (BitVec.ofNat 64 n) ∧ n = ((List.range 64).filter fun k => a.getLsbD k).length) ∧
    (∃ n, n ≤ 64 ∧ aluFn 0x19 a b = some (BitVec.ofNat 64 n) ∧ a.toNat < 2 ^ (64 - n) ∧ (a = 0 ∨ 2 ^ (63 - n) ≤ a.toNat)) ∧
    (∃ n, n ≤ 64 ∧ aluFn 0x1A a b = some (BitVec.ofNat 64 n) ∧ a.toNat % 2 ^ n = 0 ∧ (a = 0 ∧ n = 64 ∨ a.toNat % 2 ^ (n + 1) ≠ 0)) ∧
    (∃ r : Word, aluFn 0x1B a b = some r ∧ ∀ k < 64, r.getLsbD k = a.getLsbD (8 * (7 - k / 8) + k % 8)) ∧
    (aluFn 0x0F a b = none ∧ ∀ n, 0x1C ≤ n → aluFn n a b = none) ∧
    (∀ n, aluClass n = if n = 0x14 ∨ n = 0x15 ∨ n = 0x16 ∨ n = 0x17 then 1 else 0)

/-- Scalar and immediate instructions retire with their result in RD. Where the word issues, ALU, ADDI, ANDI, ORI, XORI, SLTI, SLTIU, SLLI, SRLI, SRAI, RORI, LI and LIH each answer the state in which the instruction has retired with RD set to the function of its sources and of its sign-extended immediate (14 or 40 bits, 20 or 46 bits) and nothing else of the context written. (Derived: R116, R117, R118, R123, R125) -/
def Obligations.ScalarResults : Prop :=
  ∀ (s : State) (i : Issue),
    let c := fetchedCtx s i
    (∀ f : RFmt, Issues s i { scalarDeps f.rd f.rs1 f.rs2 with cls := aluClass f.fn.toNat }
        (i.pre.isNone && (aluFn f.fn.toNat 0 0).isSome && (f.fn.toNat < 0x18 || f.rs2 = 0)) = true →
      ∃ v, aluFn f.fn.toNat (gv c f.rs1) (gv c f.rs2) = some v ∧
        RetiresTo (.alu i f) s i { scalarDeps f.rd f.rs1 f.rs2 with cls := aluClass f.fn.toNat } (fetchedState s i) (setG c f.rd.toNat v) none []) ∧
    (∀ f : IFmt, Issues s i (immDeps f.rd f.rs1) true = true →
      let x := gv c f.rs1
      let m : Word := match i.pre with
        | none => f.imm.signExtend 64
        | some p => (p ++ f.imm).signExtend 64
      let go := fun (instr : Instr) (v : Word) => RetiresTo instr s i (immDeps f.rd f.rs1) (fetchedState s i) (setG c f.rd.toNat v) none []
      go (.addi i f) (x + m) ∧ go (.andi i f) (x &&& m) ∧ go (.ori i f) (x ||| m) ∧ go (.xori i f) (x ^^^ m) ∧
      go (.slti i f) (if x.toInt < m.toInt then 1 else 0) ∧ go (.sltiu i f) (if x.toNat < m.toNat then 1 else 0)) ∧
    (∀ f : ShFmt, Issues s i (immDeps f.rd f.rs1) (i.pre.isNone && f.hi = 0) = true →
      let x := gv c f.rs1
      let go := fun (instr : Instr) (v : Word) => RetiresTo instr s i (immDeps f.rd f.rs1) (fetchedState s i) (setG c f.rd.toNat v) none []
      go (.slli i f) (x <<< f.count.toNat) ∧ go (.srli i f) (x >>> f.count.toNat) ∧
      go (.srai i f) (x.sshiftRight f.count.toNat) ∧ go (.rori i f) (x.rotateRight f.count.toNat)) ∧
    (∀ f : JFmt,
      (Issues s i { slot := 0, reads := [], writes := [rG f.rd] } true = true →
        let m : Word := match i.pre with
          | none => f.imm.signExtend 64
          | some p => (p ++ f.imm).signExtend 64
        RetiresTo (.li i f) s i { slot := 0, reads := [], writes := [rG f.rd] } (fetchedState s i) (setG c f.rd.toNat m) none []) ∧
      (Issues s i { slot := 0, reads := [rG f.rd], writes := [rG f.rd] } (i.pre.isNone && f.imm.toNat < 2 ^ 18) = true →
        ∃ v : Word, v.toNat = (gv c f.rd).toNat % 2 ^ 46 + f.imm.toNat * 2 ^ 46 ∧
          RetiresTo (.lih i f) s i { slot := 0, reads := [rG f.rd], writes := [rG f.rd] } (fetchedState s i) (setG c f.rd.toNat v) none []))

/-- LD, ST, VLD and VST move bytes between a register and the tile-store window. Where the word issues and the offset RS1 plus OFF (for VLD and VST 128 times OFF) is not negative, a multiple of the width and inside the window with its last byte, LD sets RT to the bytes zero- or sign-extended and VLD sets the v register, when the words read; ST and VST store the low bytes of RT or all 128 of the v register at that offset; each retires. (Derived: R85, R117, R126, R462) -/
def Obligations.LoadsAndStores : Prop :=
  ∀ (s : State) (i : Issue) (f : MFmt) (o : Nat),
    let c := fetchedCtx s i
    let L := i.tile.val
    let n := 2 ^ f.sz.toNat
    let off : Int := (offM i.pre f.off).toInt
    ((o : Int) = (gv c f.rs1).toNat + off → o + n ≤ c.tsSize.toNat * 4096 → o % n = 0 →
      let r := winRead (fetchedState s i) L c o n
      (Issues s i { slot := 0, reads := [rG f.rs1, rWin], writes := [rG f.rt], cls := 4 } true = true → r.1 = stOk →
        ∃ v : Word, (v = if f.sx = 1 then BitVec.ofInt 64 (sInt (8 * n) (memNat r.2.1 0 n)) else BitVec.ofNat 64 (memNat r.2.1 0 n)) ∧
          RetiresTo (.ld i f) s i { slot := 0, reads := [rG f.rs1, rWin], writes := [rG f.rt], cls := 4 } r.2.2 (setG c f.rt.toNat v) none []) ∧
      (Issues s i { slot := 0, reads := [rG f.rs1, rG f.rt], writes := [rWin], cls := 4 } (f.sx = 0) = true →
        RetiresTo (.st i f) s i { slot := 0, reads := [rG f.rs1, rG f.rt], writes := [rWin], cls := 4 }
          (winWrite (fetchedState s i) L c o n (memOfBytes 0 (leBytes n (gv c f.rt).toNat))) c none
          [(winAddr (fetchedState s i) L c o, leBytes n (gv c f.rt).toNat)])) ∧
    ((o : Int) = (gv c f.rs1).toNat + 128 * off → o + 128 ≤ c.tsSize.toNat * 4096 → o % 128 = 0 →
      let r := winRead (fetchedState s i) L c o 128
      (Issues s i { slot := 1, reads := [rG f.rs1, rWin], writes := [rV f.rt.toNat], cls := 4, prof := 2 } (vmemEnc f) = true → r.1 = stOk →
        RetiresTo (.vld i f) s i { slot := 1, reads := [rG f.rs1, rWin], writes := [rV f.rt.toNat], cls := 4, prof := 2 } r.2.2
          (setV c f.rt.toNat (BitVec.ofNat 1024 (memNat r.2.1 0 128))) none []) ∧
      (Issues s i { slot := 1, reads := [rG f.rs1, rV f.rt.toNat], writes := [rWin], cls := 4, prof := 2 } (vmemEnc f) = true →
        RetiresTo (.vst i f) s i { slot := 1, reads := [rG f.rs1, rV f.rt.toNat], writes := [rWin], cls := 4, prof := 2 }
          (winWrite (fetchedState s i) L c o 128 (memOfBytes 0 (leBytes 128 (getV c f.rt.toNat).toNat))) c none
          [(winAddr (fetchedState s i) L c o, leBytes 128 (getV c f.rt.toNat).toNat)]))

/-- A load or store outside its window freezes its tile, one off its alignment traps. Where the word issues, an LD or ST whose offset is negative or ends beyond the window raises ACCESS_VIOLATION with ADDRESS_OUT_OF_BOUNDS and stores nothing; one inside the window off a multiple of its width raises MISALIGNED with the offset as address. (Derived: R85, R105, R126) -/
def Obligations.WindowBreaches : Prop :=
  ∀ (s : State) (i : Issue) (f : MFmt),
    let c := fetchedCtx s i
    let n := 2 ^ f.sz.toNat
    let x : Int := (gv c f.rs1).toNat + (offM i.pre f.off).toInt
    let bad := fun (instr : Instr) =>
      (x < 0 ∨ (c.tsSize.toNat * 4096 : Int) < x + n → ∃ a, TakesExc instr s i (fetchedState s i) { cause := 0x01, st := stOutOfBounds, addr := a }) ∧
      (0 ≤ x → x + n ≤ (c.tsSize.toNat * 4096 : Int) → x % n ≠ 0 →
        TakesExc instr s i (fetchedState s i) { cause := 0x07, st := stMisaligned, addr := BitVec.ofInt 64 x })
    (Issues s i { slot := 0, reads := [rG f.rs1, rWin], writes := [rG f.rt], cls := 4 } true = true → bad (.ld i f)) ∧
    (Issues s i { slot := 0, reads := [rG f.rs1, rG f.rt], writes := [rWin], cls := 4 } (f.sx = 0) = true → bad (.st i f))

/-- Branches, JAL and JALR. Where the word issues, each branch retires with no register written and continues at A + 4 times OFF exactly when its comparison holds, else at the following instruction; JAL sets RD to the address after it and continues at A + 4 times IMM; JALR continues at RS1 plus IMM, read before RD is written, and takes MISALIGNED with RD unchanged where that is no multiple of 4. (Stated: R127) -/
def Obligations.BranchesAndJumps : Prop :=
  ∀ (s : State) (i : Issue),
    let c := fetchedCtx s i
    let after : Word := c.pc + (if i.pre.isSome then 8 else 4)
    (∀ f : BFmt, Issues s i { slot := 0, reads := [rG f.rs1, rG f.rs2], writes := [], ends := true } true = true →
      let x := gv c f.rs1
      let y := gv c f.rs2
      let off : Word := match i.pre with
        | none => f.off.signExtend 64
        | some p => (p ++ f.off).signExtend 64
      let go := fun (instr : Instr) (t : Bool) =>
        RetiresTo instr s i { slot := 0, reads := [rG f.rs1, rG f.rs2], writes := [], ends := true } (fetchedState s i) c
          (if t then some (c.pc + 4 * off) else none) []
      go (.beq i f) (x == y) ∧ go (.bne i f) (x != y) ∧ go (.blt i f) (decide (x.toInt < y.toInt)) ∧
      go (.bge i f) (decide (y.toInt ≤ x.toInt)) ∧ go (.bltu i f) (decide (x.toNat < y.toNat)) ∧ go (.bgeu i f) (decide (y.toNat ≤ x.toNat))) ∧
    (∀ f : JFmt, Issues s i { slot := 0, reads := [], writes := [rG f.rd], ends := true } true = true →
      let m : Word := match i.pre with
        | none => f.imm.signExtend 64
        | some p => (p ++ f.imm).signExtend 64
      RetiresTo (.jal i f) s i { slot := 0, reads := [], writes := [rG f.rd], ends := true } (fetchedState s i) (setG c f.rd.toNat after) (some (c.pc + 4 * m)) []) ∧
    (∀ f : IFmt, Issues s i { slot := 0, reads := [rG f.rs1], writes := [rG f.rd], ends := true } true = true →
      let m : Word := match i.pre with
        | none => f.imm.signExtend 64
        | some p => (p ++ f.imm).signExtend 64
      let t := gv c f.rs1 + m
      (t.toNat % 4 = 0 →
        RetiresTo (.jalr i f) s i { slot := 0, reads := [rG f.rs1], writes := [rG f.rd], ends := true } (fetchedState s i) (setG c f.rd.toNat after) (some t) []) ∧
      (t.toNat % 4 ≠ 0 → TakesExc (.jalr i f) s i (fetchedState s i) { cause := 0x07, st := stMisaligned, addr := t })) ∧
    (∀ (s2 : State) (L hw : Nat) (d : Deps) (c0 c2 : Ctx) (mw : List (Nat × Bytes)),
      retire s2 L hw i d c0 c2 none mw = retire s2 L hw i d c0 c2 (some (c0.pc + (if i.pre.isSome then 8 else 4))) mw)

/-- SRR, SRW, XRET, RFENCE and TLBINV. Where the word issues: SRR sets RD to the special register (bits 127:64 of SEQTAG under HI), which reads zero for TIME, TICK, HSRATE, TEMP, SLIPS and TDC at job level under STRICT, and is a privilege breach for a register without job-level access; SRW at runtime level writes TTB (dropping cached translations), PKR0, PKR1, TSWIN, XVEC, XPC, XCAUSE, XADDR or RERR, and is a privilege breach at job level and for a read-only register; XRET at runtime level lowers PRIV and continues at XPC; RFENCE retires when every remote operation of the context is complete and RERR is clear; TLBINV at runtime level drops the covered translations in every context of the job on the device. (Derived: R46, R81, R82, R128, R129, R146) -/
def Obligations.SpecialRegisters : Prop :=
  ∀ (s : State) (i : Issue),
    let c := fetchedCtx s i
    let s1 := fetchedState s i
    (∀ f : IFmt,
      let n := f.imm.toNat % 32
      let hi := f.imm.getLsbD 5
      Issues s i { slot := 0, reads := [], writes := [rG f.rd] } (i.pre.isNone && f.rs1 = 0 && f.imm.toNat < 64 && n < 23 && (!hi || n = 0)) = true →
      (c.priv = 0 → rtOnly n = true → TakesExc (.srr i f) s i s1 { cause := 0x02, st := stPrivilege }) ∧
      ((c.priv ≠ 0 ∨ rtOnly n = false) →
        ∃ v : BitVec 128, (v = if c.priv = 0 ∧ r46 n = true ∧ strictJob s1 c.job = true then 0 else specReg s1 i.tile.val c n) ∧
          RetiresTo (.srr i f) s i { slot := 0, reads := [], writes := [rG f.rd] } s1
            (setG c f.rd.toNat (if hi then (v >>> 64).setWidth 64 else v.setWidth 64)) none [])) ∧
    (∀ f : IFmt,
      let n := f.imm.toNat % 32
      let x := gv c f.rs1
      Issues s i { slot := 0, reads := [rG f.rs1], writes := [], ends := true } (i.pre.isNone && f.rd = 0 && f.imm.toNat < 32 && n < 23 && n ≠ 0) = true →
      let go := fun (c2 : Ctx) => RetiresTo (.srw i f) s i { slot := 0, reads := [rG f.rs1], writes := [], ends := true } s1 c2 none []
      ((c.priv = 0 ∨ n < 11 ∨ 19 < n) → TakesExc (.srw i f) s i s1 { cause := 0x02, st := stPrivilege }) ∧
      (c.priv ≠ 0 →
        (n = 11 → go { c with ttb := x, tlb := [] }) ∧ (n = 12 → go { c with pkr0 := x }) ∧ (n = 13 → go { c with pkr1 := x }) ∧
        (n = 14 → (768 < x.toNat % 1024 + x.toNat / 2 ^ 16 % 1024 → TakesExc (.srw i f) s i s1 { cause := 0x03, st := stMalformed }) ∧
          (x.toNat % 1024 + x.toNat / 2 ^ 16 % 1024 ≤ 768 → go { c with tsBase := x.setWidth 10, tsSize := (x >>> 16).setWidth 10 })) ∧
        (n = 15 → go { c with xvec := x }) ∧ (n = 16 → go { c with xpc := x }) ∧
        (n = 17 → go { c with xcause := x.setWidth 8, xstatus := (x >>> 16).setWidth 16 }) ∧ (n = 18 → go { c with xaddr := x }) ∧
        (n = 19 → go { c with rerrStatus := 0, rerrMore := false, rerrStep := 0 }))) ∧
    (∀ f : R3, Issues s i sysDeps (sysEnc i f) = true →
      (c.priv = 0 → TakesExc (.xret i f) s i s1 { cause := 0x02, st := stPrivilege }) ∧
      (c.priv ≠ 0 → RetiresTo (.xret i f) s i sysDeps s1 { c with priv := 0 } (some c.xpc) []) ∧
      (c.rerrStatus ≠ 0 → TakesExc (.rfence i f) s i s1 { cause := 0x0B, st := c.rerrStatus }) ∧
      (c.rerrStatus = 0 → (s1.ops.all fun o => o.2.owner != c.sw || o.2.done) = true →
        RetiresTo (.rfence i f) s i sysDeps (opsForget s1 c.sw) c none []) ∧
      (c.rerrStatus = 0 → (s1.ops.any fun o => o.2.owner == c.sw && !o.2.done) = true → WaitsAs (.rfence i f) s i s1 c .rfence)) ∧
    (∀ f : R3, Issues s i { slot := 0, reads := [rG f.rs1, rG f.rs2], writes := [], cls := 7, ends := true } (i.pre.isNone && f.rd = 0) = true → c.priv ≠ 0 →
      let drop := fun (x : Ctx) => tlbDrop x (gv c f.rs1).toNat (gv c f.rs2).toNat
      RetiresTo (.tlbinv i f) s i { slot := 0, reads := [rG f.rs1, rG f.rs2], writes := [], cls := 7, ends := true }
        { s1 with tiles := s1.tiles.map fun t => (t.1, { t.2 with hws := t.2.hws.map fun h => (h.1, if h.2.job = c.job then drop h.2 else h.2) }) }
        (drop c) none [])

/-- Taking an exception: traps at job level, freezes otherwise. ECALL and BREAK, where they issue, take causes 0x0C and 0x0D with status zero. Taking an exception whose cause is a trap at job level sets XPC to the instruction's address, XCAUSE to cause and status, XADDR to the address, raises PRIV to 1 and continues at XVEC, and changes nothing else of the machine; any other exception leaves the tile's unit FROZEN where it was not yet frozen. XRET then lowers PRIV and continues at XPC. (Derived: R105, R106, R129, R471, R473) -/
def Obligations.TrapsAndFreezes : Prop :=
  (∀ (s : State) (i : Issue) (f : R3),
    (Issues s i sysDeps (sysEnc i f) = true → TakesExc (.ecall i f) s i (fetchedState s i) { cause := 0x0C, st := 0 }) ∧
    (Issues s i { sysDeps with prof := 2048 } (sysEnc i f) = true → TakesExc (.break_ i f) s i (fetchedState s i) { cause := 0x0D, st := 0 })) ∧
  (∀ (s : State) (L hw : Nat) (c : Ctx) (e : Exc),
    (6 ≤ e.cause → c.priv = 0 →
      takeExc s L hw c e = ctxSet s L hw { c with
        xpc := c.pc, xcause := BitVec.ofNat 8 e.cause, xstatus := e.st, xaddr := e.addr, priv := 1, pc := c.xvec }) ∧
    (e.cause ≠ 0x04 → e.cause ≠ 0x05 → (e.cause < 6 ∨ c.priv ≠ 0) →
      takeExc s L hw c e =
        freezeTile (ctxSet s L hw { c with xpc := c.pc, xcause := BitVec.ofNat 8 e.cause, xstatus := e.st, xaddr := e.addr }) L e.st e.cause c.job c.areaLo)) ∧
  (∀ (s : State) (L cause area : Nat) (st : Status) (j : BitVec 16), L < 768 →
    (unitGet (freezeTile s L st cause j area) (tileUcb L)).st = .frozen)

/-- VALU, VFP, VCMP, VCVT and VRED act element by element under the predicate. Where the word issues: VALU and VFP set each active element of VD to the function of the matching elements, keep or zero the inactive ones by Z; a VCMP compare sets every byte-lane bit of an active element of the predicate to the result, and the logic functions combine two predicates; VCVT writes the converted elements densely; VRED writes its result to element 0 and zero elsewhere, a free value where no element is active and the function is a minimum or a maximum (log 4). (Derived: R117, R130, R131, R132, R134) -/
def Obligations.VectorElements : Prop :=
  ∀ (s : State) (i : Issue) (f : VFmt),
    let c := fetchedCtx s i
    let s1 := fetchedState s i
    let pm := getP c f.pm.toNat
    let old := getV c f.vd.toNat
    let a := getV c f.vs1.toNat
    let b := getV c f.vs2.toNat
    (Issues s i (vDeps f true) i.pre.isNone = true →
      let w := 8 * 2 ^ (f.fn.toNat / 16)
      ∃ r : BitVec 1024, RetiresTo (.valu i f) s i (vDeps f true) s1 (setV c f.vd.toNat r) none [] ∧
        ∀ k < 1024 / w, elemGet r w k =
          if pm.getLsbD (w / 8 * k) then valuFn (f.fn.toNat % 16) w (elemGet a w k) (elemGet b w k) % 2 ^ w
          else if f.z = 1 then 0 else elemGet old w k) ∧
    (∀ t : Fmt, vFmt (f.fn.toNat / 16) = some t →
      Issues s i (vDeps f true) (i.pre.isNone && (vFmt (vWc f)).isSome && vFn f ≤ 9 && (!(vFn f = 6 || vFn f = 7) || f.vs2 = 0)) = true →
      ∃ r : BitVec 1024, RetiresTo (.vfp i f) s i (vDeps f true) s1 (setV c f.vd.toNat r) none [] ∧
        ∀ k < 1024 / t.w, elemGet r t.w k =
          if pm.getLsbD (t.w / 8 * k) then
            vfpFn t (f.fn.toNat % 16) (fpDecode t (elemGet old t.w k)) (fpDecode t (elemGet a t.w k)) (fpDecode t (elemGet b t.w k)) % 2 ^ t.w
          else if f.z = 1 then 0 else elemGet old t.w k) ∧
    (∀ d : Deps, d = { slot := 1, prof := 2, cls := 1, writes := [rP f.vd.toNat]
                       reads := if 12 ≤ vFn f then [rP f.vs1.toNat, rP f.vs2.toNat] else [rV f.vs1.toNat, rV f.vs2.toNat, rP f.pm.toNat, rP f.vd.toNat] } →
      (vFn f ≤ 5 → Issues s i d (i.pre.isNone && f.vd.toNat < 16) = true →
        let w := 8 * 2 ^ (f.fn.toNat / 16)
        ∃ r : BitVec 128, RetiresTo (.vcmp i f) s i d s1 (setP c f.vd.toNat r) none [] ∧
          ∀ k < 128, r.getLsbD k =
            let e := k / (w / 8)
            if pm.getLsbD (w / 8 * e) then vcmpInt (vFn f) w (elemGet a w e) (elemGet b w e)
            else if f.z = 1 then false else (getP c f.vd.toNat).getLsbD k) ∧
      (∀ t : Fmt, 6 ≤ vFn f → vFn f ≤ 8 → vFmt (vWc f) = some t → Issues s i d (i.pre.isNone && f.vd.toNat < 16) = true →
        ∃ r : BitVec 128, RetiresTo (.vcmp i f) s i d s1 (setP c f.vd.toNat r) none [] ∧
          ∀ k < 128, r.getLsbD k =
            let e := k / (t.w / 8)
            if pm.getLsbD (t.w / 8 * e) then vcmpFp (vFn f) (fpDecode t (elemGet a t.w e)) (fpDecode t (elemGet b t.w e))
            else if f.z = 1 then false else (getP c f.vd.toNat).getLsbD k) ∧
      (12 ≤ vFn f →
        Issues s i d (i.pre.isNone && f.vd.toNat < 16 && vWc f = 0 && f.pm = 0 && f.z = 0 && f.vs1.toNat < 16 && f.vs2.toNat < 16) = true →
        let p := getP c f.vs1.toNat
        let q := getP c f.vs2.toNat
        RetiresTo (.vcmp i f) s i d s1
          (setP c f.vd.toNat (if vFn f = 12 then p &&& q else if vFn f = 13 then p ||| q else if vFn f = 14 then p ^^^ q else p &&& ~~~q)) none [])) ∧
    (Issues s i (vDeps f false) (i.pre.isNone && f.fn.toNat < 16 && f.vs2.toNat < 16 && f.fn.toNat % 16 ≤ 10 && f.vs2.toNat % 16 ≤ 10) = true →
      let src := fmtBits f.vs2.toNat
      let dst := fmtBits f.fn.toNat
      let w := max (max 8 src) (max 8 dst)
      ∃ r : BitVec 1024, RetiresTo (.vcvt i f) s i (vDeps f false) s1 (setV c f.vd.toNat r) none [] ∧
        ∀ k, dst * (k + 1) ≤ 1024 → elemGet r dst k =
          if 1024 / w ≤ k then 0
          else if pm.getLsbD (w / 8 * k) then fpTo f.fn.toNat (elemDecode f.vs2.toNat (elemGet a src k)) % 2 ^ dst
          else if f.z = 1 then 0 else elemGet old dst k) ∧
    (Issues s i (vDeps f false) (i.pre.isNone && vFn f ≤ 7 && f.vs2 = 0 && (!(decide (5 ≤ vFn f)) || (vFmt (vWc f)).isSome)) = true →
      let w := if 5 ≤ vFn f then (vFmtD (vWc f)).w else elemBits (vWc f)
      ∃ (x : Nat) (r : BitVec 1024),
        (vredFn (vFn f) (vWc f) pm a = some x ∧ RetiresTo (.vred i f) s i (vDeps f false) s1 (setV c f.vd.toNat r) none [] ∨
          vredFn (vFn f) (vWc f) pm a = none ∧ x = (Config.freeWord s1.freeCtr).toNat ∧
            RetiresTo (.vred i f) s i (vDeps f false) { s1 with freeCtr := s1.freeCtr + 1 } (setV c f.vd.toNat r) none []) ∧
        ∀ k < 1024 / w, elemGet r w k = if k = 0 then x % 2 ^ w else 0)

/-- The integer functions of VALU, VCMP and VRED. For elements a and b below 2 to the w, w one of 8, 16, 32 and 64: VADD, VSUB and VMUL wrap, shifts take b mod w, VMIN and VMAX compare signed values and VMINU and VMAXU unsigned ones, VMULH gives the signed high half, the saturating forms clamp, the compares compare; VRSUM over the active elements wraps. (Derived: R131, R171, R172) -/
def Obligations.IntegerVectorFunctions : Prop :=
  (∀ w a b : Nat, (w = 8 ∨ w = 16 ∨ w = 32 ∨ w = 64) → a < 2 ^ w → b < 2 ^ w →
    valuFn 0 w a b = (a + b) % 2 ^ w ∧ (valuFn 1 w a b + b) % 2 ^ w = a ∧ valuFn 2 w a b = a &&& b ∧ valuFn 3 w a b = a ||| b ∧ valuFn 4 w a b = a ^^^ b ∧
    valuFn 5 w a b = a * 2 ^ (b % w) % 2 ^ w ∧ valuFn 6 w a b = a / 2 ^ (b % w) ∧ sInt w (valuFn 7 w a b) = sInt w a / 2 ^ (b % w) ∧
    sInt w (valuFn 8 w a b) = min (sInt w a) (sInt w b) ∧ sInt w (valuFn 9 w a b) = max (sInt w a) (sInt w b) ∧
    valuFn 10 w a b = min a b ∧ valuFn 11 w a b = max a b ∧ valuFn 12 w a b = a * b % 2 ^ w ∧
    sInt w (valuFn 13 w a b) = sInt w a * sInt w b / 2 ^ w ∧
    sInt w (valuFn 14 w a b) = max (-(2 ^ (w - 1))) (min (2 ^ (w - 1) - 1) (sInt w a + sInt w b)) ∧
    sInt w (valuFn 15 w a b) = max (-(2 ^ (w - 1))) (min (2 ^ (w - 1) - 1) (sInt w a - sInt w b)) ∧
    vcmpInt 0 w a b = decide (a = b) ∧ vcmpInt 1 w a b = decide (a ≠ b) ∧ vcmpInt 2 w a b = decide (sInt w a < sInt w b) ∧
    vcmpInt 3 w a b = decide (sInt w a ≤ sInt w b) ∧ vcmpInt 4 w a b = decide (a < b) ∧ vcmpInt 5 w a b = decide (a ≤ b)) ∧
  (∀ (wc : Nat) (p : BitVec 128) (v : BitVec 1024), wc < 4 →
    vredFn 0 wc p v = some (((List.range (1024 / (8 * 2 ^ wc))).foldl
      (fun t k => if p.getLsbD (2 ^ wc * k) then t + elemGet v (8 * 2 ^ wc) k else t) 0) % 2 ^ (8 * 2 ^ wc)))

/-- VPERM moves elements and VSCG fills a register with eight draws. Where the word issues, each VPERM function writes the register of the table: every element, one element, a shuffle, a move, or 64 bits of a predicate; VSCG, for a non-empty key slot whose key is held and a draw index that does not pass 2 to the 48 less one, sets lane k of VD to the SCG output for the slot's purpose, subject g[RS1] and draw g[RS2] plus k; an empty slot or a draw index past the end raises DESCRIPTOR_MALFORMED. (Derived: R117, R133, R135, R177, R181, R186) -/
def Obligations.PermutesAndDraws : Prop :=
  ∀ (s : State) (i : Issue),
    let c := fetchedCtx s i
    let s1 := fetchedState s i
    (∀ f : RFmt, Issues s i (vpermDeps f) (i.pre.isNone && vpermEnc f) = true →
      let w := 8 * 2 ^ (f.fn.toNat % 4)
      let n := 1024 / w
      let a := getV c f.rs1.toNat
      let k := (gv c f.rs2).toNat
      let go := fun (c2 : Ctx) => RetiresTo (.vperm i f) s i (vpermDeps f) s1 c2 none []
      (f.fn.toNat / 4 = 0 → ∃ r, go (setV c f.rd.toNat r) ∧ ∀ e < n, elemGet r w e = (gv c f.rs1).toNat % 2 ^ w) ∧
      (f.fn.toNat / 4 = 1 → ∃ r : Word, go (setG c f.rd.toNat r) ∧ r.toNat = elemGet a w (k % n)) ∧
      (f.fn.toNat / 4 = 2 → ∃ r, go (setV c f.rd.toNat r) ∧
        ∀ e < n, elemGet r w e = if e = k % n then (gv c f.rs1).toNat % 2 ^ w else elemGet (getV c f.rd.toNat) w e) ∧
      (f.fn.toNat / 4 = 3 → ∃ r, go (setV c f.rd.toNat r) ∧ ∀ e < n, elemGet r w e = elemGet a w (elemGet (getV c f.rs2.toNat) w e % n)) ∧
      (f.fn.toNat / 4 = 4 → go (setV c f.rd.toNat a)) ∧
      (f.fn.toNat / 4 = 5 → ∃ r : Word, go (setG c f.rd.toNat r) ∧ ∀ e < 64, r.getLsbD e = (getP c f.rs1.toNat).getLsbD (64 * (k % 2) + e)) ∧
      (f.fn.toNat / 4 = 6 → ∃ r : BitVec 128, go (setP c f.rd.toNat r) ∧ ∀ e < 128, r.getLsbD e =
        if e / 64 = k % 2 then (gv c f.rs1).getLsbD (e % 64) else (getP c f.rd.toNat).getLsbD e)) ∧
    (∀ f : SFmt,
      let d : Deps := { slot := 1, reads := [rG f.rs1, rG f.rs2], writes := [rV f.vd.toNat], cls := 1, prof := 2 }
      let draw := (gv c f.rs2).toNat
      Issues s i d (i.pre.isNone && f.rsvd = 0) = true →
      (keySlot s1 c.job f.key.toNat = none ∨ 2 ^ 48 ≤ draw + 7 → TakesExc (.vscg i f) s i s1 { cause := 0x03, st := stMalformed }) ∧
      (∀ (j : Job) (e : KeyEnt) (key : Bytes), keySlot s1 c.job f.key.toNat = some (j, e) → draw + 7 < 2 ^ 48 →
        keyHeld s1 j e f.key.toNat c.batch = some key →
        ∃ r : BitVec 1024, RetiresTo (.vscg i f) s i d s1 (setV c f.vd.toNat r) none [] ∧
          ∀ k < 8, elemGet r 128 k = scg key (scgCounter e.purpose.toNat (gv c f.rs1).toNat (draw + k)) % 2 ^ 128))

/-- TMMA adds a product of two matrices into an accumulator. Where a TMMA issues, K is a multiple of 32 from 32 to 16,384, every operand (and scale) range lies in the window, the operands are aligned to 128 and their words read: with both formats narrow and no defect striking the tile's array, element (p, q) of AD becomes its old value (zero under CLR) plus the exact contribution of row p of A and row q of B; with wide formats it becomes the canonical FP32 sum, bits 95:32 zero. A defect the mod-7 residue catches raises cause 0x05 with RESIDUE_MISMATCH and AD is as before; one in the flag logic raises FLAG_MISMATCH. (Derived: R136, R137, R138, R139, R159, R161, R171, R174) -/
def Obligations.TensorMultiply : Prop :=
  ∀ (s : State) (i : Issue) (f : TFmt) (d : Deps),
    let c := fetchedCtx s i
    let a := f.fmt.toNat
    let b := tmmaFmtB i f
    let m := tmmaMode i
    let k := (gv c f.rk).toNat
    let sb := if m = 0 then 0 else k / (if m = 1 then 32 else 16)
    let ops := [(gv c f.ra, 32 * (k * fmtBits a / 8)), (gv c f.rb, 32 * (k * fmtBits b / 8))]
    let scs := if m = 0 then [] else [(gv c (tmmaScale i 6), 32 * sb), (gv c (tmmaScale i 12), 32 * sb)]
    let r := winReads (fetchedState s i) i.tile.val c ((ops ++ scs).map fun x => (x.1.toNat, x.2))
    let acc := fun p q => if f.clr = 1 then 0#96 else getA c f.ad.toNat p q
    let hits := arrayHits r.2.2 i.tile.val
    let after := { r.2.2 with arrayErr := r.2.2.arrayErr.filter fun e => e.1 ≠ i.tile.val }
    d = { slot := 2, cls := 2, size := tmmaSize a b m (gv (curCtx s i) f.rk).toNat
          reads := [rG f.ra, rG f.rb, rG f.rk, rWin] ++ (if m = 0 then [] else [rG (tmmaScale i 6), rG (tmmaScale i 12)]) ++
            (if f.clr = 1 then [] else [rA f.ad.toNat])
          writes := [rA f.ad.toNat], prof := (fmtProf a) ||| (fmtProf b) ||| (if m = 0 then 0 else 64) } →
    Issues s i d (tmmaEnc i f) = true →
    k % 32 = 0 → 32 ≤ k → k ≤ 16384 →
    ((ops ++ scs).all fun x => inWindow c x.1 x.2) = true → (gv c f.ra).toNat % 128 = 0 → (gv c f.rb).toNat % 128 = 0 →
    r.1 = stOk →
    (fmtNarrow a = true → hits = [] →
      RetiresTo (.tmma i f) s i d after (setA c f.ad.toNat ((List.range 32).flatMap fun p => (List.range 32).map fun q =>
        la96Add (acc p q) (narrowElem m ((matRows (r.2.1.getD 0 []) a k).getD p []) ((matRows (r.2.1.getD 1 []) b k).getD q [])
          ((scaleRows (r.2.1.getD 2 []) m k).getD p []) ((scaleRows (r.2.1.getD 3 []) m k).getD q [])))) none []) ∧
    (fmtNarrow a = false →
      RetiresTo (.tmma i f) s i d r.2.2 (setA c f.ad.toNat ((List.range 32).flatMap fun p => (List.range 32).map fun q =>
        BitVec.ofNat 96 (f32Add ((acc p q).toNat % 2 ^ 32)
          (treeSum 64 ((((matRows (r.2.1.getD 0 []) a k).getD p []).zip ((matRows (r.2.1.getD 1 []) b k).getD q [])).map fun x => fpTo 10 (fvMulV x.1 x.2)))))) none []) ∧
    (fmtNarrow a = true → (∃ e ∈ hits, e.1 < 1024 ∧ e.2 % 7 ≠ 0) →
      TakesExc (.tmma i f) s i after { cause := 0x05, st := stResidue }) ∧
    (fmtNarrow a = true → (∀ e ∈ hits, e.1 < 1024 → e.2 % 7 = 0) → (∃ e ∈ hits, e.1 = 1024) →
      TakesExc (.tmma i f) s i after { cause := 0x05, st := stFlag })

/-- A narrow contribution of integers is the exact sum of products. For integer formats (codes 0 and 1) without scales, the contribution of a row of A and a row of B of equal length to an element has no flag and is the exact sum of the element products, in units of 2 to the minus 32, and adding a contribution without flags to an accumulator element adds its integer modulo 2 to the 92 and keeps the four flags. (Derived: R137, R159, R161, R163) -/
def Obligations.ExactIntegerProducts : Prop :=
  (∀ (ca cb : Nat) (xs ys : List Nat), ca ≤ 1 → cb ≤ 1 → xs.length = ys.length → xs.length ≤ 16384 →
    narrowElem 0 (xs.map (elemDecode ca)) (ys.map (elemDecode cb)) [] [] =
      { nan := false, pinf := false, ninf := false, ovf := false,
        c := 2 ^ 32 * ((xs.zip ys).map fun p => sInt (fmtBits ca) p.1 * sInt (fmtBits cb) p.2).sum }) ∧
  (∀ (x : BitVec 96) (k : Int),
    let y := la96Add x { c := k }
    (sInt 92 (y.toNat % 2 ^ 92) - (sInt 92 (x.toNat % 2 ^ 92) + k)) % 2 ^ 92 = 0 ∧ y.toNat / 2 ^ 92 = x.toNat / 2 ^ 92)

/-- TZERO, TLD, TST, TRND, TRNDF, TRNDS and TRNDFS. Where the word issues and the window range is in bounds and aligned to 128: TZERO clears every element of AD; TLD sets each from its 12 bytes; TST stores 12 bytes for each; TRND and TRNDF store the 1,024 elements rounded to the format, TRNDS and TRNDFS rounded stochastically with the draw of index g[RBASE] plus the element's number, packed densely. (Derived: R140, R154, R157, R167, R181, R184) -/
def Obligations.AccumulatorMoves : Prop :=
  ∀ (s : State) (i : Issue) (f : R4),
    let c := fetchedCtx s i
    let s1 := fetchedState s i
    let ad := f.rd.toNat % 8
    let o := (gv c f.rs1).toNat
    let w := fmtBits f.hi.toNat
    let el := fun n => getA c ad (n / 32) (n % 32)
    let stored := fun (instr : Instr) (d : Deps) (b : Bytes) =>
      RetiresTo instr s i d (winWrite s1 i.tile.val c o b.length (memOfBytes 0 b)) c none [(winAddr s1 i.tile.val c o, b)]
    (Issues s i { slot := 2, cls := 2, prof := 0, profAny := 60, reads := [], writes := [rA ad] }
        (i.pre.isNone && f.rd.toNat < 8 && f.rs1 = 0 && f.rs2 = 0 && f.hi = 0) = true →
      ∃ c2, RetiresTo (.tzero i f) s i { slot := 2, cls := 2, prof := 0, profAny := 60, reads := [], writes := [rA ad] } s1 c2 none [] ∧
        c2 = setA c ad [] ∧ ∀ p < 32, ∀ q < 32, getA c2 ad p q = 0) ∧
    (Issues s i { taccDeps f true with size := 5 } (i.pre.isNone && f.rd.toNat < 8 && f.rs2 = 0 && f.hi = 0) = true →
      o + 12288 ≤ c.tsSize.toNat * 4096 → o % 128 = 0 →
      let r := winRead s1 i.tile.val c o 12288
      r.1 = stOk →
      RetiresTo (.tld i f) s i { taccDeps f true with size := 5 } r.2.2
        (setA c ad ((List.range 1024).map fun n => BitVec.ofNat 96 (memNat r.2.1 (12 * n) 12))) none []) ∧
    (Issues s i { taccDeps f false with size := 5 } (i.pre.isNone && f.rd.toNat < 8 && f.rs2 = 0 && f.hi = 0) = true →
      o + 12288 ≤ c.tsSize.toNat * 4096 → o % 128 = 0 →
      stored (.tst i f) { taccDeps f false with size := 5 } ((List.range 1024).flatMap fun n => leBytes 12 (el n).toNat)) ∧
    (Issues s i (rndDeps f) (i.pre.isNone && f.rd.toNat < 8 && f.rs2 = 0 && f.hi.toNat ≤ 10) = true →
      o + 128 * w ≤ c.tsSize.toNat * 4096 → o % 128 = 0 →
      stored (.trnd i f) (rndDeps f) (packElems w ((List.range 1024).map fun n => rndLa f.hi.toNat (el n))) ∧
      stored (.trndf i f) (rndDeps f) (packElems w ((List.range 1024).map fun n => rndF f.hi.toNat (el n)))) ∧
    (∀ (p : BitVec 26) (d : Deps) (j : Job) (e : KeyEnt) (key : Bytes), i.pre = some p →
      let slot := p.toNat % 256
      let rb : BitVec 6 := (p >>> 8).setWidth 6
      let base := (gv c rb).toNat
      let draw := fun n => scg key (scgCounter e.purpose.toNat (gv c f.rs2).toNat (base + n)) % 2 ^ 32
      d = { rndDeps f with prof := rndProf f.hi.toNat ||| 1024, reads := [rG f.rs1, rG f.rs2, rG rb, rA ad] } →
      Issues s i d (p.toNat < 2 ^ 14 && f.rd.toNat < 8 && f.hi.toNat ≤ 10 && f.hi ≠ 0) = true →
      o + 128 * w ≤ c.tsSize.toNat * 4096 → o % 128 = 0 → base + 1023 < 2 ^ 48 →
      keySlot s1 c.job slot = some (j, e) → keyHeld s1 j e slot c.batch = some key →
      stored (.trnds i f) d (packElems w ((List.range 1024).map fun n => rndsLa f.hi.toNat (draw n) (el n))) ∧
      stored (.trndfs i f) d (packElems w ((List.range 1024).map fun n => rndsF f.hi.toNat (draw n) (el n))))

/-- XDOT, XZERO, XRND, XEXP and XIMP. Where the word issues and the operands are in bounds, aligned and readable: XDOT adds to each lane the exact products of its N element pairs and counts them; XZERO clears every lane; XRND sets RD to the lane rounded once, a lane number of 8 or more being malformed; XEXP stores the eight canonical records, at most 704 bytes, and sets RD to their length; XIMP adds the eight records' lanes exactly, a malformed record being DESCRIPTOR_MALFORMED. (Derived: R142, R143, R165, R166, R167, R168, R169, R170) -/
def Obligations.ExactDotProducts : Prop :=
  ∀ (s : State) (i : Issue),
    let c := fetchedCtx s i
    let s1 := fetchedState s i
    (∀ (f : XFmt) (d : Deps),
      let code := 8 + f.fmt.toNat
      let w := fmtBits code / 8
      let n := (gv c f.rn).toNat
      let r := winReads s1 i.tile.val c [((gv c f.ra).toNat, 8 * n * w), ((gv c f.rb).toNat, 8 * n * w)]
      let el := fun (m : Mem) k => elemDecode code (memNat m (k * w) w)
      d = { slot := 3, cls := 3, size := ceilDiv (8 * (gv (curCtx s i) f.rn).toNat) 184, prof := 128
            reads := [rG f.ra, rG f.rb, rG f.rn, rX f.xd.toNat, rWin], writes := [rX f.xd.toNat] } →
      Issues s i d (i.pre.isNone && f.fmt ≠ 3 && f.rsvd = 0) = true → 1 ≤ n → n ≤ 65536 →
      (gv c f.ra).toNat % 16 = 0 → (gv c f.rb).toNat % 16 = 0 →
      inWindow c (gv c f.ra) (8 * n * w) = true → inWindow c (gv c f.rb) (8 * n * w) = true → r.1 = stOk →
      ∃ c2, RetiresTo (.xdot i f) s i d r.2.2 c2 none [] ∧
        (∀ l < 8, getX c2 f.xd.toNat l = laneBits
          (let t := (List.range n).foldl (fun t k => laneProd t (el (r.2.1.getD 0 []) (l * n + k)) (el (r.2.1.getD 1 []) (l * n + k))) (laneOf (getX c f.xd.toNat l))
           { t with terms := t.terms + n })) ∧
        (∀ x l, x ≠ f.xd.toNat → l < 8 → getX c2 x l = getX c x l) ∧ c2.g = c.g ∧ c2.v = c.v ∧ c2.p = c.p ∧ c2.a = c.a ∧ c2.pc = c.pc) ∧
    (∀ f : R4,
      (Issues s i { slot := 3, cls := 3, prof := 128, reads := [], writes := [rX f.rd.toNat] }
          (i.pre.isNone && f.rd.toNat < 4 && f.rs1 = 0 && f.rs2 = 0 && f.hi = 0) = true →
        ∃ c2, RetiresTo (.xzero i f) s i { slot := 3, cls := 3, prof := 128, reads := [], writes := [rX f.rd.toNat] } s1 c2 none [] ∧
          (∀ l < 8, getX c2 f.rd.toNat l = 0) ∧ (∀ x l, x ≠ f.rd.toNat → l < 8 → getX c2 x l = getX c x l) ∧
          c2.g = c.g ∧ c2.v = c.v ∧ c2.p = c.p ∧ c2.a = c.a ∧ c2.pc = c.pc) ∧
      (Issues s i { slot := 3, cls := 3, size := 2, prof := 128, reads := [rX f.rs1.toNat, rG f.rs2], writes := [rG f.rd] }
          (i.pre.isNone && f.rs1.toNat < 4 && fmtWide f.hi.toNat) = true →
        let l := (gv c f.rs2).toNat
        (l < 8 → RetiresTo (.xrnd i f) s i { slot := 3, cls := 3, size := 2, prof := 128, reads := [rX f.rs1.toNat, rG f.rs2], writes := [rG f.rd] } s1
          (setG c f.rd.toNat (BitVec.ofNat 64 (laneRnd f.hi.toNat (laneOf (getX c f.rs1.toNat l))))) none []) ∧
        (8 ≤ l → TakesExc (.xrnd i f) s i s1 { cause := 0x03, st := stMalformed })) ∧
      (Issues s i { slot := 3, cls := 3, size := 2, prof := 128, reads := [rX f.rs1.toNat, rG f.rs2], writes := [rG f.rd, rWin] }
          (i.pre.isNone && f.rs1.toNat < 4 && f.hi = 0) = true →
        let b := (List.range 8).flatMap fun l => laneRecord l (laneOf (getX c f.rs1.toNat l))
        let o := (gv c f.rs2).toNat
        b.length ≤ 704 ∧
        (o + b.length ≤ c.tsSize.toNat * 4096 → o % 16 = 0 →
          RetiresTo (.xexp i f) s i { slot := 3, cls := 3, size := 2, prof := 128, reads := [rX f.rs1.toNat, rG f.rs2], writes := [rG f.rd, rWin] }
            (winWrite s1 i.tile.val c o b.length (memOfBytes 0 b)) (setG c f.rd.toNat (BitVec.ofNat 64 b.length)) none [(winAddr s1 i.tile.val c o, b)])) ∧
      (Issues s i { slot := 3, cls := 3, size := 2, prof := 128, reads := [rX f.rd.toNat, rG f.rs1, rWin], writes := [rX f.rd.toNat] }
          (i.pre.isNone && f.rd.toNat < 4 && f.rs2 = 0 && f.hi = 0) = true →
        let r := recordsRead i.tile.val c 8 0 s1 (gv c f.rs1).toNat
        r.1 = stOk →
        (r.2.1 = none → TakesExc (.ximp i f) s i r.2.2 { cause := 0x03, st := stMalformed }) ∧
        (∀ ls, r.2.1 = some ls →
          RetiresTo (.ximp i f) s i { slot := 3, cls := 3, size := 2, prof := 128, reads := [rX f.rd.toNat, rG f.rs1, rWin], writes := [rX f.rd.toNat] } r.2.2
            (ls.zipIdx.foldl (fun c e => setX c f.rd.toNat e.2 (laneBits (laneAdd (laneOf (getX c f.rd.toNat e.2)) e.1))) c) none [])))

/-- What retiring an instruction leaves in its hardware context. Retiring an instruction of a context c0 with new context c leaves in its hardware context c with the next address as PC, no wait, the privilege level of c and c's registers; at job level RETIRED and STEP rise by 1 (STEP is 0 after SETTAG) and the slice flag shows a boundary with a non-empty run queue; at runtime level RETIRED_RT rises by 1. Only the pairing of lock-step, which may freeze a tile, is set aside. (Derived: R48, R94, R101, R104, R121, R127) -/
def Obligations.RetirementOfAnInstruction : Prop :=
  ∀ (s : State) (L hw : Nat) (i : Issue) (d : Deps) (c0 c : Ctx) (nx : Option Word) (mw : List (Nat × Bytes)), s.flt.lsState.toNat < 2 →
    ∃ x, ctxGet (retire s L hw i d c0 c nx mw) L hw = some x ∧
      x.g = c.g ∧ x.p = c.p ∧ x.v = c.v ∧ x.a = c.a ∧ x.x = c.x ∧ x.batch = c.batch ∧ x.phase = c.phase ∧ x.item = c.item ∧ x.priv = c.priv ∧
      x.ttb = c.ttb ∧ x.pkr0 = c.pkr0 ∧ x.pkr1 = c.pkr1 ∧ x.tsBase = c.tsBase ∧ x.tsSize = c.tsSize ∧ x.xvec = c.xvec ∧ x.xpc = c.xpc ∧
      x.xcause = c.xcause ∧ x.xstatus = c.xstatus ∧ x.xaddr = c.xaddr ∧ x.rerrStatus = c.rerrStatus ∧ x.pend = c.pend ∧ x.job = c.job ∧ x.sw = c.sw ∧
      x.wait = .idle ∧ x.pc = nx.getD (c0.pc + (if i.pre.isSome then 8 else 4)) ∧
      (c0.priv = 0 → x.retired = c.retired + 1 ∧ x.retiredRt = c.retiredRt ∧ x.step = (if d.settag then 0 else c.step + 1) ∧
        (x.sliceDue = true ↔ (∃ j, jobOf s c.job = some j ∧ (c.retired + 1).toNat % 2 ^ j.sliceLog2 = 0) ∧ (tileGet s L).runq ≠ [])) ∧
      (c0.priv ≠ 0 → x.retired = c.retired ∧ x.retiredRt = c.retiredRt + 1 ∧ x.step = (if d.settag then 0 else c.step) ∧ x.sliceDue = c.sliceDue)

/-- What retiring an instruction leaves unchanged. Apart from a tile's trace ring, retiring an instruction changes no byte of a tile store, of HBM or of host memory, no counter, queue pair, region, descriptor queue, pool, frontier, unit, running job or waiting command, and no other context of any tile. A traced instruction changes in HBM only the 16 bytes of HEAD and LOST in the tile's trace table entry and the 32 bytes of its ring slot. Lock-step pairing and latent memory errors are set aside. (Derived: R83, R104, R126, R494, R496) -/
def Obligations.RetirementFrame : Prop :=
  ∀ (s : State) (L hw : Nat) (i : Issue) (d : Deps) (c0 c : Ctx) (nx : Option Word) (mw : List (Nat × Bytes)),
    s.flt.lsState.toNat < 2 → s.hbmErr = [] →
    let t := retire s L hw i d c0 c nx mw
    t.ts = s.ts ∧ t.tsErr = s.tsErr ∧ t.hostMem = s.hostMem ∧ t.ctrs = s.ctrs ∧ t.adds = s.adds ∧ t.qps = s.qps ∧ t.regions = s.regions ∧
    t.engines = s.engines ∧ t.cul = s.cul ∧ t.fronts = s.fronts ∧ t.dps = s.dps ∧ t.units = s.units ∧ t.jobs = s.jobs ∧ t.pending = s.pending ∧
    t.streams = s.streams ∧ t.media = s.media ∧ t.ports = s.ports ∧ t.host = s.host ∧ t.pwr = s.pwr ∧ t.sec = s.sec ∧
    (∀ L2 hw2, ¬ (L2 = L ∧ hw2 = hw) → ctxGet t L2 hw2 = ctxGet s L2 hw2) ∧
    (traceOn s L = false → t.hbm = s.hbm) ∧
    (∀ m, hbmPeek s (traceEntry s L) 64 = some m →
      let slot := memNat m 0 8 + 32 * (memNat m 0x20 8 % 2 ^ memNat m 8 1)
      ∀ a, tabGet 0 t.hbm a ≠ tabGet 0 s.hbm a →
        (∃ k < 16, resolve s (traceEntry s L + 0x20 + k) = .hbm a) ∨ (∃ k < 32, resolve s (slot + k) = .hbm a))

/-- Writes of HBM and of a tile store: the bytes written, and every other byte. A write of a range of HBM, or of a tile store, that answers success leaves each byte of the range at the byte given, and read without error; every byte outside the range reads after any write, of whatever status, as it read before, provided no sector or word carries two error records. (Derived: R2, R26, R457, R460, R461, R462) -/
def Obligations.StoresInMemory : Prop :=
  (∀ (s : State) (f n : Nat) (src : Mem), memWf s.hbm = true → (s.hbmErr.map (·.1)).Nodup →
    let w := hbmWrite s f n src
    (∀ a, f ≤ a → a < f + n → w.1 = stOk → (hbmRead w.2 a 1).1 = stOk ∧ memNat (hbmRead w.2 a 1).2.1 0 1 = (tabGet 0 src (a - f)).toNat) ∧
    (∀ a, a < f ∨ f + n ≤ a →
      (hbmRead w.2 a 1).1 = (hbmRead s a 1).1 ∧
      ((hbmRead s a 1).1 = stOk → memNat (hbmRead w.2 a 1).2.1 0 1 = memNat (hbmRead s a 1).2.1 0 1))) ∧
  (∀ (s : State) (slot off n : Nat) (src : Mem), memWf s.ts = true → (s.tsErr.map (·.1)).Nodup →
    let w := tsWrite s slot off n src
    (∀ a, off ≤ a → a < off + n → w.1 = stOk → (tsRead w.2 slot a 1).1 = stOk ∧ memNat (tsRead w.2 slot a 1).2.1 0 1 = (tabGet 0 src (a - off)).toNat) ∧
    (∀ slot2 a, tsAddr slot2 a < tsAddr slot off ∨ tsAddr slot off + n ≤ tsAddr slot2 a →
      (tsRead w.2 slot2 a 1).1 = (tsRead s slot2 a 1).1 ∧
      ((tsRead s slot2 a 1).1 = stOk → memNat (tsRead w.2 slot2 a 1).2.1 0 1 = memNat (tsRead s slot2 a 1).2.1 0 1)))

/-- RPUT, RPUTI and RGET issue a remote operation and retire. Where the word issues, the route has one of its two forms and may be used, the length is 1 to 16,777,216, the completion counter may be named, the local operand and a local-route target translate and may be reached, and no send queue is full, RPUT, RPUTI and RGET retire having issued an operation with that length, counter, target pieces and local operand (for a window source of a put, with the bytes as they read now); on a full send queue they wait for it. (Derived: R92, R93, R144, R145, R146, R147, R321) -/
def Obligations.RemoteTransfersIssue : Prop :=
  ∀ (s : State) (i : Issue) (f : RFmt) (put imm : Bool), (imm = true → put = true) →
    let c := fetchedCtx s i
    let s1 := fetchedState s i
    let L := i.tile.val
    let instr : Instr := if put then (if imm then .rputi i f else .rput i f) else .rget i f
    let d := remoteDeps i [rG f.rd, rG f.rs1, rG f.rs2] []
    let r := gv c f.rs1
    let n := (prefG c i 0).toNat
    let t := if routeRemote r then ([], [], c, s1) else reach s1 c (gv c f.rd) n (if put then .write else .read) put
    let l := localOperand t.2.2.2 t.2.2.1 L (fWin f) (gv c f.rs2) n (if put then .read else .write)
    let c2 := l.2.2.2.1
    let s2 := l.2.2.2.2
    let data := if put && fWin f then winRead s2 L c2 (gv c f.rs2).toNat n else (stOk, [], s2)
    let v : Word := if imm then prefG c i 12 else 0
    let o : RemoteOp := { opOf c2 L (if put then (if imm then .rputi else .rput) else .rget) n (rcOf c i f) with
      pieces := t.2.1, win := l.2.1, src := if put then l.2.2.1 else [], dst := if put then [] else l.2.2.1, data := data.2.1, fail := data.1, val := v }
    let w : Wreq := { opcode := if put then (if imm then 2 else 1) else 3, offset := (gv c f.rd).toNat, local_ := (gv c f.rs2).toNat, win := l.2.1, data := data.2.1, value := v }
    Issues s i d (remoteEnc i f 3 true (if imm then 0x3FC0000 else 0x3FFF000)) = true →
    routeExc s1 c r = [] → 1 ≤ n → n ≤ 16777216 → rcExc s1 c i f = [] → (routeRemote r = true → (gv c f.rd).toNat < 2 ^ 40) → t.1 = [] → l.1 = [] →
    (routeFull s2 r = true → WaitsAs instr s i s2 c2 (.sendFull (routeQpn r))) ∧
    (routeFull s2 r = false →
      ∃ (s3 : State) (c3 : Ctx) (id cls size extra : Nat), opIssue data.2.2 c2 L r o w t.2.1 = .posted s3 c3 id cls size extra ∧
        RetiresTo instr s i { d with cls := cls, size := size, extra := extra, op := some id } s3 c3 none [])

/-- RFADD, RCAS and SADD issue a remote operation and retire. Where the word issues, the route may be used, the location is aligned and may be read and written (SADD: the counter may be named), the completion counter may be named and no send queue is full, RFADD, RCAS and SADD retire having issued the operation with its addend, new and compare value or amount; an unaligned location raises MISALIGNED where nothing of a lower code is wrong. (Derived: R92, R93, R94, R144, R145, R321) -/
def Obligations.RemoteAtomicsIssue : Prop :=
  ∀ (s : State) (i : Issue) (f : RFmt),
    let c := fetchedCtx s i
    let s1 := fetchedState s i
    let L := i.tile.val
    (∀ cas : Bool,
      let instr : Instr := if cas then .rcas i f else .rfadd i f
      let d := remoteDeps i [rG f.rs1, rG f.rs2] [rG f.rd]
      let a := gv c f.rs1
      let r := gv c f.rs2
      let t := if routeRemote r then ([], [], c, s1) else reach s1 c a 8 .read false
      let u := if routeRemote r then ([], [], c, s1) else reach t.2.2.2 t.2.2.1 a 8 .write cas
      let o : RemoteOp := { opOf u.2.2.1 L (if cas then .rcas else .rfadd) 8 (rcOf c i f) with
        pieces := u.2.1, rd := f.rd.toNat, val := prefG c i 0, cmp := if cas then prefG c i 12 else 0 }
      let w : Wreq := { opcode := if cas then 5 else 4, offset := a.toNat, value := prefG c i 0, compare := if cas then prefG c i 12 else 0 }
      Issues s i d (remoteEnc i f 2 true (if cas then 0x3FC0000 else 0x3FFF000)) = true →
      routeExc s1 c r = [] → rcExc s1 c i f = [] → (routeRemote r = true → a.toNat < 2 ^ 40) → t.1 = [] → u.1 = [] →
      (a.toNat % 8 ≠ 0 → TakesExc instr s i u.2.2.2 { cause := 0x07, st := stMisaligned, addr := a }) ∧
      (a.toNat % 8 = 0 → routeFull u.2.2.2 r = true → WaitsAs instr s i u.2.2.2 u.2.2.1 (.sendFull (routeQpn r))) ∧
      (a.toNat % 8 = 0 → routeFull u.2.2.2 r = false →
        ∃ (s3 : State) (c3 : Ctx) (id cls size extra : Nat), opIssue u.2.2.2 u.2.2.1 L r o w u.2.1 = .posted s3 c3 id cls size extra ∧
          RetiresTo instr s i { d with cls := cls, size := size, extra := extra, op := some id } s3 c3 none [])) ∧
    (let d := remoteDeps i [rG f.rd, rG f.rs1, rG f.rs2] []
      let r := gv c f.rs1
      let k := gv c f.rd
      let o : RemoteOp := { opOf c L .sadd 8 (rcOf c i f) with ctr := k.toNat, val := gv c f.rs2 }
      Issues s i d (remoteEnc i f 2 false 0x3FFF03F) = true →
      routeExc s1 c r = [] → rcExc s1 c i f = [] → (routeRemote r = true → k.toNat < 2 ^ 40) → (routeRemote r = false → ctrExc s1 c k.toNat = []) →
      routeFull s1 r = false →
      ∃ (s3 : State) (c3 : Ctx) (id cls size extra : Nat),
        opIssue s1 c L r o { opcode := 6, offset := k.toNat, value := gv c f.rs2 } [] = .posted s3 c3 id cls size extra ∧
        RetiresTo (.sadd i f) s i { d with cls := cls, size := size, extra := extra, op := some id } s3 c3 none [])

/-- What issuing a remote operation records. Issuing an operation gives it the next number, records it (with its queue pair on a remote route), posts a work request with its length, key and poster on the queue pair of a remote route and none on a local one, keeps the destination of an atomic pending, and takes the budget class of its remote side: FRERAK, HBM, TSTORE, FABRIC or SYNC. (Derived: R92, R94, R147, R321, R328, R329) -/
def Obligations.OperationRecorded : Prop :=
  ∀ (s : State) (c : Ctx) (L : Nat) (r : Word) (o : RemoteOp) (w : Wreq) (ps : List (Nat × Nat)),
    ∃ (s2 : State) (c2 : Ctx) (cls size extra : Nat),
      opIssue s c L r o w ps = .posted s2 c2 s.nextOp cls size extra ∧
      s2.nextOp = s.nextOp + 1 ∧
      kvGet s2.ops s.nextOp = some { o with qpn := if routeRemote r then some (routeQpn r) else o.qpn } ∧
      (∀ k, k ≠ s.nextOp → kvGet s2.ops k = kvGet s.ops k) ∧
      c2 = { c with pend := if o.kind = .rfadd ∨ o.kind = .rcas then c.pend ++ [(o.rd, s.nextOp)] else c.pend } ∧
      (routeRemote r = false → s2.qps = s.qps ∧ s2.hbm = s.hbm) ∧
      (routeRemote r = true → cls = 8 ∧
        ∃ x, (qpGet s2 (routeQpn r)).sq = (qpGet s (routeQpn r)).sq ++ [x] ∧ (qpGet s2 (routeQpn r)).posted = (qpGet s (routeQpn r)).posted + 1 ∧
          x.ord = (qpGet s (routeQpn r)).posted ∧ x.opcode = w.opcode ∧ x.length = o.len ∧ x.key = r.setWidth 32 ∧ x.offset = w.offset ∧ x.value = w.value ∧
          x.compare = w.compare ∧ x.op = some s.nextOp ∧ x.tag = ctxTag c ∧ x.job = c.job ∧ x.sw = c.sw ∧ x.tile = L) ∧
      (routeRemote r = false → ∀ p q, ps = p :: q →
        (∀ a, resolve s p.1 = .hbm a → cls = 5) ∧ (∀ a, resolve s p.1 = .tile L a → cls = 4) ∧ (∀ k a, resolve s p.1 = .ctr k a → cls = 6) ∧
        (∀ M a, M ≠ L → resolve s p.1 = .tile M a → cls = 7))

/-- SWAIT, QPOST and EPOST. Where the word issues: SWAIT on a counter it may name, with RERR clear, retires when the counter has reached the threshold (under STRICT once every add below its tag is settled) and else waits; QPOST of a well-formed work request to a bound queue pair with room enters it in the send queue, as an operation of the context, and retires; EPOST of a descriptor with a good header to a handle of the engine's kind appends it to that engine's queue, publishes the engine's frontier and retires, and waits where 256 descriptors are queued. (Derived: R94, R109, R110, R111, R144, R145, R321, R364, R365, R367, R369) -/
def Obligations.WaitsAndPosts : Prop :=
  ∀ (s : State) (i : Issue) (f : RFmt),
    let c := fetchedCtx s i
    let s1 := fetchedState s i
    let L := i.tile.val
    let own := ctxSrc L i.hw.val
    (let k := (gv c f.rs1).toNat
      let h := gv c f.rs2
      let d : Deps := { slot := 4, reads := [rG f.rs1, rG f.rs2], writes := [], ends := true }
      Issues s i d (i.pre.isNone && f.fn = 0 && f.rd = 0) = true → ctrExc s1 c k = [] → c.rerrStatus = 0 →
      (waitOver s1 k (ctxTag c) h c.job own = true → RetiresTo (.swait i f) s i d (opsForget (tdcRead s1 c.job own (ctxTag c)) c.sw) c none []) ∧
      (waitOver s1 k (ctxTag c) h c.job own = false →
        WaitsAs (.swait i f) s i
          (if strictJob s1 c.job then dpAdd s1 k { src := own, tag := ctxTag c, job := c.job, strict := true, since := s1.now } else s1) c (.swait k h)) ∧
      (strictJob s1 c.job = false → waitOver s1 k (ctxTag c) h c.job own = decide ((ctrGet s1 k - h).toNat < 2 ^ 63))) ∧
    (let n := (gv c f.rs1).toNat
      let m := operandRead s1 c (gv c f.rs2) 64
      let w := wrOf m.2.1
      let d : Deps := { slot := 4, reads := [rG f.rs1, rG f.rs2], writes := [], ends := true, prof := 256 }
      Issues s i d (i.pre.isNone && f.fn = 0 && f.rd = 0) = true → n < 2 ^ 20 → (c.priv = 0 → (qpGet s1 n).job = c.job) → (gv c f.rs2).toNat % 64 = 0 →
      m.1 = [] → wrOk m.2.1 = true → (w.flags.getLsbD 0 = true → ctrExc s1 c w.cc = []) → (w.flags.getLsbD 1 = true → ctrExc s1 c w.gateCtr = []) →
      (sqFull (qpGet m.2.2.2 n) = true → WaitsAs (.qpost i f) s i m.2.2.2 m.2.2.1 (.sendFull n)) ∧
      (sqFull (qpGet m.2.2.2 n) = false →
        let s2 := m.2.2.2
        let o : RemoteOp := { opOf m.2.2.1 L .qpost w.length (if w.flags.getLsbD 0 then some w.cc else none) with qpn := some n }
        RetiresTo (.qpost i f) s i
          { d with cls := 8, size := frerakSize s2 n w.length, extra := ((jobOf s2 c.job).map fun j => budget j 0 2 0).getD 0, op := some s2.nextOp }
          (sqPost { s2 with ops := kvSet s2.ops s2.nextOp o, nextOp := s2.nextOp + 1 } n (wrPoster s2 m.2.2.1 L { w with op := some s2.nextOp })) m.2.2.1 none [])) ∧
    (∀ u : Nat,
      let va := gv c f.rs2
      let m := operandRead s1 c va 24
      let b := m.2.1
      let e := subNat b 0 1
      let code := engineCode e u
      let q := engQueue m.2.2.2 code
      let d : Deps := { slot := 4, reads := [rG f.rs1, rG f.rs2], writes := [], ends := true, prof := 512 }
      Issues s i d (i.pre.isNone && f.fn = 0 && f.rd = 0) = true → va.toNat % 64 = 0 → m.1 = [] → headerOk s1 c b = true →
      handleUcb s1 (gv c f.rs1) = some u → handleExc s1 c (gv c f.rs1) (engineKind e) = [] →
      (c.priv = 0 → runtimeOp e (subNat b 1 1) = false) →
      (256 ≤ q.length → WaitsAs (.epost i f) s i m.2.2.2 m.2.2.1 (.queueFull code)) ∧
      (q.length < 256 →
        ∃ (x : Desc) (s2 : State), RetiresTo (.epost i f) s i d s2 m.2.2.1 none [] ∧ engQueue s2 code = q ++ [x] ∧
          x.va = va.toNat ∧ x.engine = e ∧ x.op = subNat b 1 1 ∧ x.length = subNat b 4 4 ∧ x.ccEn = (subNat b 8 4).testBit 31 ∧ x.cc = subNat b 8 4 % 2 ^ 17 ∧
          x.statusAddr = subNat b 16 8 ∧ x.tag = withOrigin (ctxTag c) e ∧ x.job = c.job ∧ x.priv = c.priv ∧ x.sw = c.sw ∧ x.tile = L ∧
          (∀ k, k ≠ code → engQueue s2 k = engQueue m.2.2.2 k) ∧ s2.hbm = m.2.2.2.hbm ∧ s2.qps = m.2.2.2.qps ∧ s2.ops = m.2.2.2.ops))

/-- CALLOC, CALLOCN, CREF and CFREE. Where the word issues and names a READY pool that is bound to the job at job level: CALLOC and CALLOCN retire with the handle in RD when the allocation succeeds; when it does not, CALLOC waits in the pool, and CALLOCN waits under STRICT and otherwise retires with zero in RD; CREF of 1 to 65,535 and CFREE act on the state word of a live handle and retire, and raise DESCRIPTOR_MALFORMED for a stale one; under STRICT CREF and CFREE do not issue before every other source of the job is beyond their tag. (Derived: R148, R372, R374, R375, R377, R378) -/
def Obligations.CulletInstructions : Prop :=
  ∀ (s : State) (i : Issue) (f : R3),
    let c := fetchedCtx s i
    let s1 := fetchedState s i
    let own := ctxSrc i.tile.val i.hw.val
    (∀ nb : Bool,
      let instr : Instr := if nb then .callocn i f else .calloc i f
      let d := culDeps f.rd f.rs1 0
      let p := (gv c f.rs1).toNat
      let q := quotaCtxOf s1 c.job c.priv
      let r := alloc s1 p q
      Issues s i d (i.pre.isNone && f.rs2 = 0) = true → p ≤ 63 → poolUnbound s1 c p = false →
      (∀ h, r.1 = .got h → RetiresTo instr s i d r.2 (setG c f.rd.toNat h) none []) ∧
      (∀ st, r.1 = .bad st → TakesExc instr s i r.2 { cause := 0x04, st := st }) ∧
      (r.1 = .short → nb = true → strictJob s1 c.job = false → RetiresTo instr s i d (tdcCount r.2 0) (setG c f.rd.toNat 0) none []) ∧
      (r.1 = .short → (nb = false ∨ strictJob s1 c.job = true) →
        WaitsAs instr s i (poolUpd r.2 p fun x => { x with waiters := x.waiters ++
          [{ tag := ctxTag c, job := c.job, quota := q, src := own, strict := strictJob s1 c.job, since := s1.now, sw := some c.sw }] }) c (.pool p f.rd.toNat nb))) ∧
    (∀ free : Bool,
      let instr : Instr := if free then .cfree i f else .cref i f
      let d := culDeps 0 f.rs1 f.rs2
      let h := gv c f.rs1
      let n := (gv c f.rs2).toNat
      let r := if free then handleRelease s1 h else handleRef s1 h n
      Issues s i d (i.pre.isNone && f.rd = 0 && (!free || f.rs2 = 0)) = true → poolUnbound s1 c (hPool h) = false → (free = false → 1 ≤ n ∧ n ≤ 65535) →
      (strictJob s1 c.job = true → frontsAboveBut s1 c.job own (ctxTag c) = false → exec instr s = .next (ctxSet s1 i.tile.val i.hw.val c)) ∧
      ((strictJob s1 c.job = true → frontsAboveBut s1 c.job own (ctxTag c) = true) →
        (r.1 = .ok → RetiresTo instr s i d r.2 c none []) ∧
        (r.1 = .stale → TakesExc instr s i r.2 { cause := 0x03, st := stMalformed }) ∧
        (∀ st, r.1 = .bad st → TakesExc instr s i r.2 { cause := 0x04, st := st })))

/-- EXIT, SETTAG, LAUNCH and TRMARK. Where the word issues: EXIT with RERR clear and no operation outstanding ends its context after retiring, adding 1 to the counter it names; SETTAG with a triple above the present one sets BATCH, PHASE and ITEM and retires with the next STEP 0, and one that does not rise takes SEQTAG_NOT_INCREASING; LAUNCH at runtime level of a readable aligned save area appends the software context to the tile's run queue and retires; TRMARK retires. (Derived: R48, R49, R100, R102, R149, R150, R362, R494) -/
def Obligations.ContextControl : Prop :=
  ∀ (s : State) (i : Issue),
    let c := fetchedCtx s i
    let s1 := fetchedState s i
    (∀ f : R4,
      (Issues s i (ctxDeps f) (ctxEnc i f true) = true → c.rerrStatus = 0 →
        let cc := if f.hi = 1 then some (gv c f.rs1).toNat else none
        (∀ k, cc = some k → ctrExc s1 c k = []) →
        (opsOf s1 c.sw = [] →
          let r := retireCore s1 i.tile.val (ctxDeps f) c c (c.pc + 4) []
          exec (.exit i f) s = .next (ctxEnd r.1 i.tile.val i.hw.val r.2 cc (ctxTag c))) ∧
        (opsOf s1 c.sw ≠ [] → WaitsAs (.exit i f) s i s1 c (.exit cc))) ∧
      (Issues s i { ctxDeps f with settag := true } (ctxEnc i f false) = true →
        let b := gv c f.rs1
        let p : BitVec 8 := (gv c f.rs2 >>> 56).setWidth 8
        let t : BitVec 24 := (gv c f.rs2 >>> 32).setWidth 24
        let rises := c.batch.toNat < b.toNat ∨ (c.batch = b ∧ (c.phase.toNat < p.toNat ∨ (c.phase = p ∧ c.item.toNat < t.toNat)))
        ((gv c f.rs2).toNat % 2 ^ 32 ≠ 0 → TakesExc (.settag i f) s i s1 { cause := 0x03, st := stMalformed }) ∧
        ((gv c f.rs2).toNat % 2 ^ 32 = 0 → ¬ rises → TakesExc (.settag i f) s i s1 { cause := 0x09, st := stSeqtag }) ∧
        ((gv c f.rs2).toNat % 2 ^ 32 = 0 → rises →
          RetiresTo (.settag i f) s i { ctxDeps f with settag := true } s1 { c with batch := b, phase := p, item := t } none [])) ∧
      (Issues s i (ctxDeps f) (ctxEnc i f false) = true →
        let r := reach s1 c (gv c f.rs2) 0x20000 .read false
        let w := reach r.2.2.2 r.2.2.1 (gv c f.rs2) 0x20000 .write true
        let L := ((handleUcb s1 (gv c f.rs1)).getD 64) - 64
        let lo := (w.2.1.map (·.1)).getD 0 0
        let hi := (w.2.1.map (·.1)).getD 1 0
        let a := areaRead w.2.2.2 lo hi
        let x := ctxOfImage 0 lo hi a.2.1
        let priv := memNat a.2.1 (0x300 + 16 * 20) 16
        (c.priv = 0 → TakesExc (.launch i f) s i s1 { cause := 0x02, st := stPrivilege }) ∧
        (c.priv ≠ 0 → handleExc s1 c (gv c f.rs1) 0 = [] → (gv c f.rs2).toNat % 0x20000 = 0 → r.1 = [] → w.1 = [] → a.1 = stOk →
          priv ≤ 1 → (priv = 0 → unitBound s1 x.job (tileUcb L) = true) →
          (savedCount (tileGet a.2.2 L) < 256 → RetiresTo (.launch i f) s i (ctxDeps f) (launchAt a.2.2 L lo hi x) w.2.2.1 none []) ∧
          (256 ≤ savedCount (tileGet a.2.2 L) → WaitsAs (.launch i f) s i a.2.2 w.2.2.1 (.launchFull L))))) ∧
    (∀ (f : RFmt) (d : Deps),
      d = { slot := 4, reads := [rG f.rs1], writes := [], prof := 2048,
            mark := some (leBytes 8 (gv (curCtx s i) f.rs1).toNat ++ leBytes 8 (ctxTag (curCtx s i)).toNat) } →
      Issues s i d (i.pre.isNone && f.rd = 0 && f.rs2 = 0 && f.fn = 0) = true → RetiresTo (.trmark i f) s i d s1 c none [])

/-- REMOTE_OP_COMPLETE and REMOTE_REJECTION. A local-route operation not yet applied takes effect at its target when it reaches it, unless it must wait there: under STRICT an atomic, a read of a counter and a command wait at their decision point, marked arrived. On an HBM location without latent errors outside STRICT and FREE counting, RFADD adds and RCAS stores the new value when the old one equals the compare value, both answering the old value, and no other byte changes. A rejection completes the work request of a remote-route operation with the status, or freezes its context where the status is a violation. (Derived: R54, R91, R93, R95, R96) -/
def Obligations.OperationsAtTheirTarget : Prop :=
  (∀ (s : State) (id : Nat) (o : RemoteOp), kvGet s.ops id = some o → o.done = false → o.arrived = false → o.result = none → o.qpn = none → o.rsp = none →
    saddWaits s id o = false →
    (opDp s o = none → exec (.remoteOpComplete id) s = .next (opFinish (opApply s o).2.2 id (opApply s o).1 (opApply s o).2.1)) ∧
    (∀ dp, opDp s o = some dp → strictJob s o.job = true ∧
      ∃ t r, exec (.remoteOpComplete id) s = .next t ∧ kvGet t.ops id = some { o with arrived := true } ∧
        (kvGet t.dps dp).getD [] = (kvGet s.dps dp).getD [] ++ [r] ∧ r.tag = o.tag ∧ r.job = o.job ∧ r.op = some id ∧ r.since = s.now ∧ t.hbm = s.hbm ∧ t.ts = s.ts)) ∧
  (∀ (s : State) (o : RemoteOp) (pa f : Nat), s.hbmErr = [] → jobOf s o.job = none → resolve s pa = .hbm f → pa % 8 = 0 →
    o.pieces = [(pa, 8)] → (o.kind = .rfadd ∨ o.kind = .rcas) →
    let old : Word := BitVec.ofNat 64 (memNat (memSlice s.hbm f 8) 0 8)
    let new : Word := if o.kind = .rfadd then old + o.val else if old = o.cmp then o.val else old
    ∃ t, opApply s o = (stOk, old, t) ∧ (∀ k < 8, tabGet 0 t.hbm (f + k) = (new >>> (8 * k)).setWidth 8) ∧
      (∀ a, a < f ∨ f + 8 ≤ a → tabGet 0 t.hbm a = tabGet 0 s.hbm a) ∧ t.ts = s.ts ∧ t.ctrs = s.ctrs ∧ t.ops = s.ops) ∧
  (∀ (s : State) (id n : Nat) (st : Status) (o : RemoteOp) (w : Wreq), st ≠ 0 → kvGet s.ops id = some o → o.qpn = some n →
    ((qpGet s n).sq.find? fun w => w.op = some id) = some w →
    exec (.remoteRejection id st) s = .next (if nakViolates st then wrViolation s n w st else wrComplete s n w st 0))

/-- A completing operation: gd, the failure latch and the counter. When an operation of a resident context completes, it is marked done; an atomic's gd takes the old value, or zero where it failed (g0 discards it), and is no longer pending; a failure is latched in RERR, STATUS and STEP when STATUS is zero and MORE otherwise, and a success leaves RERR alone; the completion counter, where named and not held under PACED, gains 1, held apart under STRICT. (Derived: R94, R95, R147) -/
def Obligations.CompletionOfAnOperation : Prop :=
  ∀ (s : State) (id : Nat) (o : RemoteOp) (L hw : Nat) (c : Ctx) (st : Status) (old : Word),
    s.tilesWf = true → kvGet s.ops id = some o → o.done = false → ctxFind s o.owner = some (L, hw) → ctxGet s L hw = some c → c.sw = o.owner →
    let t := opComplete s id st old
    kvGet t.ops id = some { o with done := true } ∧
    ∃ x, ctxGet t L hw = some x ∧
      ((o.kind = .rfadd ∨ o.kind = .rcas) → getG x o.rd = (if o.rd = 0 ∨ st ≠ 0 then 0 else old) ∧ (∀ r, r ≠ o.rd → getG x r = getG c r) ∧ ∀ e ∈ x.pend, e.2 ≠ id) ∧
      (o.kind ≠ .rfadd → o.kind ≠ .rcas → x.g = c.g ∧ x.pend = c.pend) ∧
      (st = 0 → x.rerrStatus = c.rerrStatus ∧ x.rerrStep = c.rerrStep ∧ x.rerrMore = c.rerrMore) ∧
      (st ≠ 0 → c.rerrStatus = 0 → x.rerrStatus = st ∧ x.rerrStep = (o.tag >>> 4).setWidth 28 ∧ x.rerrMore = c.rerrMore) ∧
      (st ≠ 0 → c.rerrStatus ≠ 0 → x.rerrStatus = c.rerrStatus ∧ x.rerrStep = c.rerrStep ∧ x.rerrMore = true) ∧
      x.p = c.p ∧ x.v = c.v ∧ x.a = c.a ∧ x.x = c.x ∧ x.pc = c.pc ∧ x.priv = c.priv ∧ x.wait = c.wait ∧
      (∀ k, o.rc = some k → o.release = none →
        (strictJob s o.job = false → ctrGet t k = ctrGet s k + 1 ∧ t.adds = s.adds) ∧
        (strictJob s o.job = true → t.ctrs = s.ctrs ∧ t.adds = s.adds ++ [{ ctr := k, tag := o.tag, amt := 1, job := o.job }])) ∧
      ((o.rc = none ∨ o.release ≠ none) → t.ctrs = s.ctrs ∧ t.adds = s.adds)

/-- WAIT_SATISFIED and SLICE_BOUNDARY. Where the tile issues and the wait of a resident SWAIT or RFENCE is over with RERR clear, the instruction retires: its context goes on at the next address without a wait; with RERR latched it takes REMOTE_FAILED; a wait not over changes nothing; an EXIT ends its context. A saved waiter whose wait is over joins the tail of its tile's run queue, from which hardware contexts that are free, and those of blocked contexts, then load. At a slice boundary with a queue and no pending gd result, the context is saved, joins the tail, and the head is loaded; a save area that does not write freezes the tile. (Derived: R94, R95, R101, R102, R103, R146, R365, R558) -/
def Obligations.WaitsAndSlices : Prop :=
  (∀ (s : State) (sw L hw : Nat) (c : Ctx), ctxFind s sw = some (L, hw) → ctxGet s L hw = some c → issuing s = true → tileIssues s L = true →
    let over_ := fun (w : Wait) => match w with
      | .swait k h => waitOver s k (ctxTag c) h c.job (ctxSrc L hw)
      | _ => (opsOf s c.sw).isEmpty
    ((∃ k h, c.wait = .swait k h) ∨ c.wait = .rfence →
      (c.rerrStatus = 0 → over_ c.wait = true →
        ∃ t x, exec (.waitSatisfied sw) s = .next t ∧ ctxGet t L hw = some x ∧ x.wait = .idle ∧ x.pc = c.pc + 4 ∧ x.g = c.g ∧ x.v = c.v ∧ x.priv = c.priv) ∧
      (c.rerrStatus ≠ 0 → ∃ s2, exec (.waitSatisfied sw) s = .next (takeExc s2 L hw { c with wait := .idle } { cause := 0x0B, st := c.rerrStatus }))) ∧
    (∀ cc, c.wait = .exit cc → c.rerrStatus = 0 → (opsOf s c.sw).isEmpty = true →
      let r := retireCore s L { slot := 4, reads := [], writes := [], ends := true } c c (c.pc + 4) []
      exec (.waitSatisfied sw) s = .next (ctxEnd r.1 L hw r.2 cc (ctxTag c))) ∧
    (c.rerrStatus = 0 → over_ c.wait = false → exec (.waitSatisfied sw) s = .next s)) ∧
  (∀ (s : State) (sw L : Nat) (v : Saved), ctxFind s sw = none →
    (s.tiles.findSome? fun t => (t.2.waiting.find? fun x => x.sw = sw).map fun x => (t.1, x)) = some (L, v) →
    (waitKind v.wait && savedWaitOver s v) = true →
    exec (.waitSatisfied sw) s =
      .next (tileSettle (tileUpd s L fun t => { t with waiting := t.waiting.filter fun y => y.sw ≠ sw, runq := t.runq ++ [v] }) L)) ∧
  (∀ (s : State) (tile : Fin 768) (hw : Fin 8) (c : Ctx), ctxGet s tile.val hw.val = some c → c.sliceDue = true →
    let s0 := ctxSet s tile.val hw.val { c with sliceDue := false }
    ((tileGet s tile.val).runq = [] → exec (.sliceBoundary tile hw) s = .next s0) ∧
    (∀ (h : Saved) (rest : List Saved), (tileGet s tile.val).runq = h :: rest → c.pend = [] →
      let w := areaWrite s0 c.areaLo c.areaHi (ctxImage s0 tile.val { c with sliceDue := false })
      (w.1 ≠ stOk → exec (.sliceBoundary tile hw) s = .next (freezeTile w.2 tile.val w.1 0 c.job c.areaLo)) ∧
      (w.1 = stOk → (areaRead w.2 h.areaLo h.areaHi).1 = stOk →
        ∃ t x, exec (.sliceBoundary tile hw) s = .next t ∧ ctxGet t tile.val hw.val = some x ∧ x.sw = h.sw ∧ x.wait = h.wait ∧
          (tileGet t tile.val).runq = rest ++ [savedOf { c with sliceDue := false }])))

/-- ISSUE_GROUP, HOLD_RELEASE and SLIP. A tile with room in its hold buffer and no group this tick opens one for the first hardware context after the last one in cyclic order that can issue under PACED, and otherwise nothing changes. HOLD_RELEASE takes every plain instruction result whose release tick has come out of the unit's hold buffer. SLIP of a late plain result takes it out, adds 1 to SLIP_TOTAL, writes a journal entry where the journal is enabled, and raises a slip event for the first slip of the PACED job since its commit point. (Derived: R60, R61, R67, R79, R121) -/
def Obligations.PacedIssueAndRelease : Prop :=
  (∀ (s : State) (tile : Fin 768),
    let t := tileGet s tile.val
    let now := s.pace.tick.toNat
    ((64 ≤ t.hold.length ∨ (∃ g, t.group = some g ∧ g.tick = now) ∨ (∀ hw < 8, groupCan s tile.val hw = false)) → exec (.issueGroup tile) s = .next s) ∧
    (∀ k < 8, t.hold.length < 64 → (∀ g, t.group = some g → g.tick ≠ now) → groupCan s tile.val ((t.last + 1 + k) % 8) = true →
      (∀ j < k, groupCan s tile.val ((t.last + 1 + j) % 8) = false) →
      exec (.issueGroup tile) s = .next (tileSet s tile.val { t with group := some { hw := (t.last + 1 + k) % 8, tick := now }, last := (t.last + 1 + k) % 8 }))) ∧
  (∀ (s : State) (unit : Nat), ((holdGet s unit).all fun h => h.fin.isNone && h.op.isNone) = true →
    exec (.holdRelease unit) s = .next (holdSet s unit ((holdGet s unit).filter fun h => !(decide (h.release ≤ s.pace.tick.toNat) && h.ready)))) ∧
  (∀ (s : State) (unit idx : Nat) (cause : BitVec 8) (detail : Word) (h : Hold), (holdGet s unit)[idx]? = some h →
    h.fin = none → h.op = none → h.ready = true → h.release < s.pace.tick.toNat →
    ∃ t, exec (.slip unit idx cause detail) s = .next t ∧ holdGet t unit = (holdGet s unit).eraseIdx idx ∧ t.pace.slips = s.pace.slips + 1 ∧
      t.pace.ringHead = (if s.pace.ringEn then s.pace.ringHead + 1 else s.pace.ringHead) ∧
      (s.pace.ringEn = false → t.hbm = s.hbm) ∧ t.ts = s.ts ∧
      (∀ j, jobOf s (pacedNum s) = some j → j.slipSeen = false → ∃ e ∈ t.evq, e.type = 10 ∧ e.subject = BitVec.ofNat 32 unit))

/-- DECISION_POINT_SERVE, ORDER_STALL and FRONTIER_ADVANCE. At a decision point that is no counter, the request served is one of those present with the least tag, of equal tags the one of the lowest source, and it is served only when every published frontier of its job from a source without a request present lies above its tag; else nothing is served. A strict request that has waited past the limit for a lagging frontier is marked, STALLED is set and a device error event ORDER_STALL names the unit. A running context's frontier rises to the tag of its next instruction, an engine's to its lowest descriptor tag, and a source without work for the job publishes none. (Derived: R53, R54, R55, R56, R57, R334) -/
def Obligations.DecisionPointsInTagOrder : Prop :=
  (∀ (q : List DpReq) (r : DpReq), dpLeast q = some r →
    r ∈ q ∧ ∀ x ∈ q, r.tag.toNat < x.tag.toNat ∨ (r.tag = x.tag ∧ r.src ≤ x.src)) ∧
  (∀ (s : State) (dp : Nat) (r : DpReq), 2 ^ 17 ≤ dp →
    let q := (kvGet s.dps dp).getD []
    dpLeast (q.filter fun r => r.op.isSome || !r.entry.isEmpty) = some r →
    ((dpReady s dp q r).1 = false → exec (.decisionPointServe dp) s = .next (dpReady s dp q r).2) ∧
    ((dpReady s dp q r).1 = true →
      exec (.decisionPointServe dp) s = .next (dpRun (dpTake (dpCollide (dpReady s dp q r).2 dp q r) dp r) r) ∧
      ∀ f ∈ s.fronts, f.2.job = r.job → (∀ x ∈ q, x.src ≠ f.1) → r.tag.toNat < f.2.tag.toNat)) ∧
  (∀ (s : State) (dp : Nat) (r : DpReq), ¬ (2 ^ 18 ≤ dp ∧ dp < 2 ^ 18 + 64) → r ∈ (kvGet s.dps dp).getD [] → r.strict = true → r.stalled = false →
    s.pace.stallLimit ≠ 0 → s.pace.stallLimit.toNat * 1000 < (s.now - r.since).toNat → (lagging s r.job r.src r.tag).isSome = true →
    ∃ t, exec (.orderStall dp) s = .next t ∧ t.pace.stalled = true ∧ { r with stalled := true } ∈ (kvGet t.dps dp).getD [] ∧
      ∃ e ∈ t.evq, e.type = 9 ∧ e.status = stOrderStall ∧ e.subject = BitVec.ofNat 32 (dpUnit dp)) ∧
  (∀ (s : State) (src : BitVec 32) (job : BitVec 16),
    (∀ c, src.toNat < 6144 → ctxGet s (src.toNat / 8) (src.toNat % 8) = some c → c.job = job →
      ∃ t f, exec (.frontierAdvance src job) s = .next t ∧ kvGet t.fronts src.toNat = some f ∧ f.job = job ∧ (ctxFront c).toNat ≤ f.tag.toNat ∧
        (∀ g, kvGet s.fronts src.toNat = some g → g.job = job → g.tag.toNat ≤ f.tag.toNat ∧ (f.tag = g.tag ∨ f.tag = ctxFront c)) ∧
        ∀ k, k ≠ src.toNat → kvGet t.fronts k = kvGet s.fronts k) ∧
    (src.toNat < 6144 → ctxGet s (src.toNat / 8) (src.toNat % 8) = none →
      ∃ t, exec (.frontierAdvance src job) s = .next t ∧ kvGet t.fronts src.toNat = none) ∧
    (6144 ≤ src.toNat → src.toNat < 16384 →
      ∃ t, exec (.frontierAdvance src job) s = .next t ∧
        ((∀ d ∈ engQueue s (src.toNat - 8192), d.job ≠ job) → kvGet t.fronts src.toNat = none) ∧
        (∀ d ∈ engQueue s (src.toNat - 8192), d.job = job → kvGet s.fronts src.toNat = none →
          ∃ f, kvGet t.fronts src.toNat = some f ∧ f.tag.toNat ≤ d.tag.toNat)))

/-- Adds that arrive at a sync counter, their merging, the threshold test and the key derivation. A counter of value v has reached h when v minus h, modulo 2 to the 64, is below 2 to the 63. A tagged add of a STRICT job is held apart while fewer than 65,536 are, waits where the store is full, and any other add goes to VALUE at once, no other counter changing. The pending add of least tag merges when every frontier lies above its tag and no read at or below it is pending, and what any read with a higher tag sees of the counter stays the same. KEY_DERIVE adds to the job the key of a non-empty slot for the epoch. (Derived: R181, R364, R368, R369) -/
def Obligations.CountersAndKeys : Prop :=
  (∀ v h : Word, reached v h = true ↔ (v - h).toNat < 2 ^ 63) ∧
  (∀ (s : State) (k : BitVec 17) (amt : Word),
    (∃ t, exec (.untaggedAddArrival k amt) s = .next t ∧ ctrGet t k.toNat = ctrGet s k.toNat + amt ∧ (∀ j, j ≠ k.toNat → ctrGet t j = ctrGet s j) ∧ t.adds = s.adds ∧ t.hbm = s.hbm) ∧
    (∀ (tag : BitVec 128) (job : BitVec 16),
      (strictJob s job = false → ∃ t, exec (.taggedAddArrival k amt tag job) s = .next t ∧ ctrGet t k.toNat = ctrGet s k.toNat + amt ∧
        (∀ j, j ≠ k.toNat → ctrGet t j = ctrGet s j) ∧ t.adds = s.adds) ∧
      (strictJob s job = true → s.adds.length < 65536 →
        exec (.taggedAddArrival k amt tag job) s = .next { s with adds := s.adds ++ [{ ctr := k.toNat, tag := tag, amt := amt, job := job }] }) ∧
      (strictJob s job = true → 65536 ≤ s.adds.length → exec (.taggedAddArrival k amt tag job) s = .next s))) ∧
  (∀ (s : State) (k : BitVec 17) (a : PendAdd), a ∈ s.adds → a.ctr = k.toNat →
    (∀ b ∈ s.adds, b.ctr = k.toNat → b ≠ a → a.tag.toNat < b.tag.toNat) →
    (addMerges s a = false → exec (.pendingAddMerge k) s = .next s) ∧
    (addMerges s a = true →
      ∃ t, exec (.pendingAddMerge k) s = .next t ∧ t.adds = s.adds.erase a ∧ ctrGet t k.toNat = ctrGet s k.toNat + a.amt ∧
        (∀ j, j ≠ k.toNat → ctrGet t j = ctrGet s j) ∧
        (∀ x : Tag, a.tag.toNat < x.toNat → ctrSeen t k.toNat x = ctrSeen s k.toNat x) ∧
        (∀ f ∈ s.fronts, f.2.job = a.job → a.tag.toNat < f.2.tag.toNat))) ∧
  (∀ (s : State) (job : BitVec 16) (slot : BitVec 8) (epoch : Word) (j : Job) (e : KeyEnt), keySlot s job slot.toNat = some (j, e) →
    (e.mode = 1 → e.epoch = epoch) → (∀ h ∈ j.held, h.slot ≠ slot.toNat ∨ h.epoch ≠ epoch.toNat) →
    exec (.keyDerive job slot epoch) s = .next { s with jobs := s.jobs.map fun x =>
      if x.num = job then { x with held := x.held ++ [{ slot := slot.toNat, epoch := epoch.toNat, key := scgKey (j.seeds.getD e.seed.toNat []) epoch.toNat e.purpose.toNat }] } else x })

/-- POOL_ENABLE, POOL_DISABLE and ALLOC_WAITER_SERVED. Enabling a pool whose registers fail a check sets only REFUSED; with its state array and quota entries in HBM without latent errors, enabling one that passes makes it READY with every buffer free and no waiter. Disabling one with no buffer out and no waiter takes EN and READY to 0; else it sets REFUSED. A waiter is served only when a buffer is free and it may be served: a waiting context then gets the handle allocated, its tile loading from the run queue where the context had been saved, and a waiting descriptor adds it to its buffers. (Derived: R371, R372, R374, R377, R378, R379) -/
def Obligations.CulletPools : Prop :=
  (∀ (s : State) (p : Fin 64), (poolGet s p.val).en = false →
    let x := poolGet s p.val
    (poolOk s x = false → exec (.poolEnable p) s = .next (poolSet s p.val { x with refused := true })) ∧
    (poolOk s x = true → s.hbmErr = [] → inHbm s (stateAddr x 0) (8 * x.count.toNat) = true → (∀ q < 4096, inHbm s (quotaAddr s q p.val + 4) 4 = true) →
      ∃ t, exec (.poolEnable p) s = .next t ∧ (poolGet t p.val).en = true ∧ (poolGet t p.val).ready = true ∧ poolFree (poolGet t p.val) = x.count.toNat ∧
        (poolGet t p.val).waiters = [] ∧ (∀ k, k ≠ p.val → poolGet t k = poolGet s k) ∧ t.ts = s.ts ∧ t.ctrs = s.ctrs)) ∧
  (∀ (s : State) (p : Fin 64), (poolGet s p.val).en = true →
    let x := poolGet s p.val
    (poolUsed x = 0 → x.waiters = [] → exec (.poolDisable p) s = .next (poolSet s p.val { x with en := false, ready := false, level := 0 })) ∧
    ((poolUsed x ≠ 0 ∨ x.waiters ≠ []) → exec (.poolDisable p) s = .next (poolSet s p.val { x with refused := true }))) ∧
  (∀ (s : State) (p : Fin 64),
    (poolFree (poolGet s p.val) = 0 ∨ (poolGet s p.val).waiters = [] → exec (.allocWaiterServed p) s = .next s) ∧
    (∀ (w : PoolWaiter) (h : Word), poolFree (poolGet s p.val) ≠ 0 → waiterPick s p.val (poolGet s p.val).waiters = some w → waiterReady s p.val w = true →
      (alloc s p.val w.quota).1 = .got h →
      let s2 := poolUpd (alloc s p.val w.quota).2 p.val fun x => { x with waiters := x.waiters.filter fun y => y ≠ w }
      w ∈ (poolGet s p.val).waiters ∧
      (∀ sw, w.sw = some sw → waitTile s sw = none → exec (.allocWaiterServed p) s = .next (serveCtx s2 sw h)) ∧
      (∀ sw L, w.sw = some sw → waitTile s sw = some L → (tileGet (serveCtx s2 sw h) L).waiting.length < (tileGet s L).waiting.length →
        exec (.allocWaiterServed p) s = .next (tileSettle (serveCtx s2 sw h) L)) ∧
      (∀ d, w.sw = none → w.desc = some d →
        exec (.allocWaiterServed p) s = .next { s2 with engines := s2.engines.map fun q => (q.1, q.2.map fun x => if x.id = d then { x with bufs := x.bufs ++ [h] } else x) })))

/-- The codec, compression, token, Marver and Parison rows run the descriptor they pick. An engine instance that starts descriptors and picks one with the row's operation, of the operation's length and readable, runs that operation on its bytes and settles the outcome: JPEG, PNG, INFLATE, WAV, RECORD and PROBE (held back while the pool of a descriptor that takes buffers stands at level 3), COMPRESS, DECOMPRESS, the five BRL stream operations and FRB_ENCODE and FRB_DECODE (a stream's descriptors in queue order), the eight token operations (each unit taking its own descriptors in order), MARVER_PERMUTATION, STREAM_OPEN, SUBMIT and CLOSE. (Derived: R63, R110, R111, R205, R224, R235, R251, R264, R284, R314, R380) -/
def Obligations.EnginesTakeDescriptors : Prop :=
  ∀ (s s1 : State) (code : BitVec 8) (d : Desc) (b : Bytes),
    (∀ op, 1 ≤ op → op ≤ 6 → Picks s 1 code.toNat op 128 d b s1 → codecHeld s code.toNat op = false →
      let instr : Instr := if op = 1 then .jpeg code else if op = 2 then .png code else if op = 3 then .inflate code else if op = 4 then .wav code
        else if op = 5 then .record code else .probe code
      exec instr s = .next (engSettle code.toNat d (codecBudget op b) ((codecBody code.toNat op d b).run s1))) ∧
    (∀ op, 0x10 ≤ op → op ≤ 0x19 → op ≠ 0x17 → Picks s 1 code.toNat op 128 d b s1 → streamBehind s code.toNat op = false →
      let instr : Instr := if op = 0x10 then .compress code else if op = 0x11 then .decompress code else if op = 0x12 then .brlStreamOpen code
        else if op = 0x13 then .brlStreamData code else if op = 0x14 then .brlStreamSave code else if op = 0x15 then .brlStreamRestore code
        else if op = 0x16 then .brlStreamClose code else if op = 0x18 then .frbEncode code else .frbDecode code
      exec instr s = .next (engSettle code.toNat d (brlBudget op (streamGet s ((streamNamed s d).getD 0)).dir b) ((brlBody code.toNat op d b).run s1))) ∧
    (∀ op u, 1 ≤ op → op ≤ 8 → (u = 1 ∨ u = 2) → engIs 2 code.toNat = true → engStarts s code.toNat = true →
      ((engQueue s code.toNat).all fun x => engListed x.engine x.op) = true →
      textHead s code.toNat u = some d → d.op = op → (u = 2 → ∀ x, textHead s code.toNat 1 = some x → x.op ≠ op) →
      d.length = 128 → (engBytes d d.va 128 : EM Bytes).run s = (.ok b, s1) →
      let instr : Instr := if op = 1 then .tokLoad code else if op = 2 then .grammarLoad code else if op = 3 then .unload code else if op = 4 then .tokenize code
        else if op = 5 then .detokenize code else if op = 6 then .grammarInit code else if op = 7 then .advance code else .mask code
      exec instr s = .next (engSettle code.toNat d (textBudget op (textPush s (code.toNat - 64) d) b) ((textBody (code.toNat - 64) op d b).run s1))) ∧
    (Picks s 3 code.toNat 1 64 d b s1 →
      exec (.marverPermutation code) s = .next (engSettle code.toNat d (200, ceilDiv (subNat b 0x1C 4) 4) ((marverBody code.toNat d b).run s1))) ∧
    (Picks s 5 code.toNat 1 64 d b s1 →
      exec (.streamOpen code) s = .next (engSettle code.toNat d (parisonBudget b) ((streamOpenBody code.toNat d b).run s1))) ∧
    (Picks s 5 code.toNat 2 64 d b s1 →
      exec (.submit code) s = .next (closeCheck (engSettle code.toNat d (parisonBudget b) ((submitBody code.toNat d b).run s1)) code.toNat)) ∧
    (Picks s 5 code.toNat 3 64 d b s1 →
      exec (.close code) s = .next (engSettle code.toNat d (parisonBudget b) ((closeBody code.toNat d b).run s1)))

/-- The Gather rows and STRIPE_ALLOC run the descriptor named. Where every queued descriptor is listed, the descriptor at the place named has the row's operation and no completion held, its instance starts (or, active, works), and it is 64 bytes long and readable, GATHER_READ, VERIFY, INGEST, INGEST_TAKE and GATHER_STRAND_READ_DONE run it on its bytes and settle the outcome; STRIPE_ALLOC goes on with an active codec descriptor that was handed a buffer it has not filled. (Derived: R110, R195, R196, R197, R226, R227, R242, R380) -/
def Obligations.GatherTakesDescriptors : Prop :=
  ∀ (s s1 : State) (n : Nat) (d : Desc) (b : Bytes),
    ((engQueue s gatherCode).all fun x => engListed x.engine x.op) = true → (engQueue s gatherCode)[n]? = some d →
    (∀ h ∈ (kvGet s.engHold gatherCode).getD [], ∀ f, h.fin = some f → f.2.1.id ≠ d.id) →
    (if d.active then engWorks s gatherCode else engStarts s gatherCode) = true → d.length = 64 → (engBytes d d.va 64 : EM Bytes).run s = (.ok b, s1) →
    let settled := fun (body : Desc → Bytes → EM EngOut) => gatherSettle d (gatherRelease s d b) ((body d b).run s1)
    (d.op = 1 → (d.active = true ∨ (poolGet s (subNat b 0x1C 1)).level ≠ 3) → exec (.gatherRead n) s = .next (settled gatherReadBody)) ∧
    (d.op = 2 → exec (.verify n) s = .next (settled verifyBody)) ∧
    (d.op = 3 → d.prog = [] → exec (.ingest n) s = .next (settled ingestBody)) ∧
    (d.op = 3 → d.active = true → d.prog ≠ [] → exec (.ingestTake n) s = .next (settled ingestTakeBody)) ∧
    (∀ m, d.active = true → gNum d 0 ≤ m →
      (d.op = 1 → exec (.gatherStrandReadDone n m) s = .next (settled gatherReadBody)) ∧
      (d.op = 2 → exec (.gatherStrandReadDone n m) s = .next (settled verifyBody))) ∧
    (∀ (code : BitVec 8) (k : Nat) (x : Desc), (engQueue s code.toNat)[k]? = some x → engIs 1 code.toNat = true → engWorks s code.toNat = true →
      x.active = true → x.op ≤ 5 → x.entCnt < x.bufs.length →
      exec (.stripeAlloc code k) s =
        .next (engSettle code.toNat x (codecBudget x.op (descPeek s x)) ((stripeGuard code.toNat x.id (stripeGo code.toNat (stripeProg x 8 + 1) x)).run s)))

/-- How an engine completes a descriptor. Outside PACED, a descriptor that ends with a status and a RESULT and whose record address translates to HBM without latent errors leaves its queue, has in memory the 16 bytes STATUS, six zeros and RESULT at STATUS_ADDR and no other byte of HBM changed, and adds 1 to its counter where it names one. Under PACED its completion enters the engine's hold buffer, to be released at its ready tick plus its budget. One that ends with a violation leaves its poster's tile frozen. (Derived: R60, R63, R110, R111, R368, R369, R473) -/
def Obligations.DescriptorCompletion : Prop :=
  (∀ (s : State) (code : Nat) (d : Desc) (st : Status) (res : Word) (pa f : Nat) (pg : TlbEntry),
    s.hbmErr = [] → xlNow (descRemove s code d.id) d.ttb d.pkr0.toNat d.pkr1.toNat d.priv.toNat (BitVec.ofNat 64 d.statusAddr) .write = .ok pa pg →
    resolve s pa = .hbm f → pa % 16 = 0 →
    let t := descComplete s code d st res
    (∀ x ∈ engQueue t code, x.id ≠ d.id) ∧ (∀ x ∈ engQueue s code, x.id ≠ d.id → x ∈ engQueue t code) ∧
    (∀ k, k ≠ code → engQueue t k = engQueue s k) ∧
    (∀ k < 16, tabGet 0 t.hbm (f + k) = (leBytes 2 st.toNat ++ [0, 0, 0, 0, 0, 0] ++ leBytes 8 res.toNat).getD k 0) ∧
    (∀ a, a < f ∨ f + 16 ≤ a → tabGet 0 t.hbm a = tabGet 0 s.hbm a) ∧ t.ts = s.ts ∧
    (d.ccEn = false → t.ctrs = s.ctrs ∧ t.adds = s.adds) ∧
    (d.ccEn = true → strictJob s d.job = false → ctrGet t d.cc = ctrGet s d.cc + 1 ∧ t.adds = s.adds) ∧
    (d.ccEn = true → strictJob s d.job = true → t.ctrs = s.ctrs ∧ t.adds = s.adds ++ [{ ctr := d.cc, tag := d.tag, amt := 1, job := d.job }])) ∧
  (∀ (s s2 : State) (code : Nat) (d : Desc) (bud : Nat × Nat) (st : Status) (res : Word), s2 = codecCount s code →
    ((∀ j, jobOf s2 d.job = some j → j.paced = false) → engSettle code d bud (.ok (.done st res), s) = descComplete s2 code d st res) ∧
    (∀ j, jobOf s2 d.job = some j → j.paced = true →
      ∃ t, engSettle code d bud (.ok (.done st res), s) = t ∧
        (kvGet t.engHold code).getD [] = (kvGet s2.engHold code).getD [] ++
          [{ release := d.ready + budget j 9 bud.1 bud.2, cls := 9, batch := tagBatch d.tag, fin := some (code, d, st, res) }] ∧ t.hbm = s2.hbm ∧ t.ctrs = s2.ctrs) ∧
    engSettle code d bud (.ok .wait, s) = s ∧
    (d.tile < 768 → (unitGet (engSettle code d bud (.error { st := st, freeze := true }, s)) (tileUcb d.tile)).st = .frozen))

/-- Marver's keyed permutation is a bijection of its domain. For every key, purpose and subject and every domain of d elements, d from 1 to 2 to the 48 less one, the half-width w is the least with at least 1 and 2 to the 2w at least d, the six-round Feistel network is a bijection of the numbers below 2 to the 2w, perm maps the numbers below d one to one onto themselves, by the first member below d of the walk, and the walks of all of them evaluate the network at most 2 to the 2w times. Hence each Marver mode gives every position of an epoch of N samples its own index below N. (Stated: R201) -/
def Obligations.PermutationIsABijection : Prop :=
  (∀ (k : PermKey) (subject d : Nat), 1 ≤ d → d < 2 ^ 48 →
    let w := feistelW d
    (1 ≤ w ∧ d ≤ 2 ^ (2 * w) ∧ (∀ v, 1 ≤ v → d ≤ 2 ^ (2 * v) → w ≤ v) ∧ (2 ≤ d → 2 ^ (2 * w) < 4 * d)) ∧
    (∀ x < 2 ^ (2 * w), feistel k subject w x < 2 ^ (2 * w)) ∧
    (∀ x < 2 ^ (2 * w), ∀ y < 2 ^ (2 * w), feistel k subject w x = feistel k subject w y → x = y) ∧
    (∀ x < d, (perm k subject d x).1 < d) ∧
    (∀ x < d, ∀ y < d, (perm k subject d x).1 = (perm k subject d y).1 → x = y) ∧
    (∀ y < d, ∃ x < d, (perm k subject d x).1 = y) ∧
    (∀ x < d, ∃ n, 1 ≤ n ∧ (perm k subject d x).2 = n ∧ (perm k subject d x).1 = Nat.repeat (feistel k subject w) n x ∧
      ∀ m, 1 ≤ m → m < n → d ≤ Nat.repeat (feistel k subject w) m x) ∧
    ((List.range d).map fun x => (perm k subject d x).2).sum ≤ 2 ^ (2 * w)) ∧
  feistelW 1 = 1 ∧ feistelW 1000000 = 10 ∧ feistelW 3000000 = 11 ∧
  (∀ (mode : Nat) (p q : PermKey) (n w : Nat), mode ≤ 3 → 1 ≤ n → n < 2 ^ 48 → 2 ≤ w → w ≤ 2 ^ 32 →
    (∀ x < n, (marverIndex mode p q n w x).1 < n) ∧
    (∀ x < n, ∀ y < n, (marverIndex mode p q n w x).1 = (marverIndex mode p q n w y).1 → x = y))

/-- REPORT_FORWARD, BATCH_MAKEUP, BATCH_DELIVERY and DELIVERY_COMPLETE. At a Parison instance with a configured stream: a ledger count that arrives is entered for its block; a report for a usable position that nobody holds is kept; an answer's reports are kept as fetched. A batch of this assembler whose places are all known and whose payloads are here is packed and added to the batches. Outside PACED, the first part of a shard whose earlier batches are delivered, whose samples are durable and whose credit suffices is sent, and when its header's write is complete (b, k) is recorded as delivered. (Derived: R209, R212, R213, R216, R219, R220, R221, R560) -/
def Obligations.BatchesOfAStream : Prop :=
  ∀ (s : State) (code : BitVec 8), engIs 5 code.toNat = true →
    let c := code.toNat
    let x := streamAt s c
    (x.cfg.b ≠ 0 →
      (∀ e β n, ∃ t, exec (.reportForward code (.count e β n)) s = .next t ∧ ((e, β), n) ∈ (streamAt t c).ledger ∧
        ∀ l ∈ (streamAt t c).ledger, l.1 = (e, β) → l.2 = n) ∧
      (∀ r : Bytes, x.halted = none → (∀ i ∈ jobStreams s x.job, kvGet i.2.reports (posKey x.cfg (rEpoch (sub r 0 64)) (rPos (sub r 0 64))) = none) →
        posUsable s x (rEpoch (sub r 0 64)) (rPos (sub r 0 64)) = true →
        (reportTake s c { bytes := sub r 0 64, tag := x.tag, priv := x.priv, ttb := x.ttb, pkr0 := x.pkr0, pkr1 := x.pkr1, tile := x.tile, sw := x.sw, job := x.job }).1 = stOk ∧
        ∃ t y, exec (.reportForward code (.report r)) s = .next t ∧
          kvGet (streamAt t c).reports (posKey x.cfg (rEpoch (sub r 0 64)) (rPos (sub r 0 64))) = some y ∧ y.bytes = sub r 0 64) ∧
      (∀ rs, ∃ t, exec (.reportForward code (.answer rs)) s = .next t ∧
        ∀ r ∈ rs, (kvGet (streamAt t c).fetched (posKey x.cfg (rEpoch r) (rPos r))).isSome = true) ∧
      (∀ a e β lo hi die route, assemblerOf x.cfg a = .inr (route, die) →
        exec (.reportForward code (.request a e β lo hi)) s =
          .next (send s (.stream route die (.answer ((((blockAccepted x e β).drop lo).take (hi + 1 - lo)).map fun r => r.2.bytes)))))) ∧
    (∀ (b : Word) (places : List Place) (pays : List (Place × Bytes)),
      let l := batchList s c b.toNat
      let p := payloads l.2 c b.toNat places
      let rs := places.filterMap (·.2)
      let sh := packBatch (rs.foldl (fun s r => payloadFree s c r) p.2) x.cfg b.toNat pays
      engWorks s c = true → x.opened = true → x.halted = none → assemblerOf x.cfg (b.toNat % x.cfg.a) = .inl c → x.cfg.first ≤ b.toNat →
      (∀ y ∈ x.batches, y.b ≠ b.toNat) → allDelivered x b.toNat = false → l.1 = some places → p.1 = some (stOk, pays) →
      allDelivered (streamAt sh.2 c) b.toNat = false → (∀ j, jobOf s x.job = some j → j.paced = false) →
      ∃ t, exec (.batchMakeup code b) s = .next t ∧
        (streamAt t c).batches = (streamAt sh.2 c).batches ++ [{ b := b.toNat, shards := sh.1, release := 0, positions := rs.map fun r => rPos r.bytes }]) ∧
    (∀ (b : Word) (k : Nat) (y : Batch) (h : Shard), (x.batches.find? fun y => y.b = b.toNat) = some y → y.shards[k]? = some h →
      engWorks s c = true → x.halted = none → x.delivered.contains (b.toNat, k) = false →
      ((jobStreams s x.job).all fun i => i.2.batches.all fun z => decide (b.toNat ≤ z.b) || i.2.delivered.contains (z.b, k)) = true →
      (x.sending.find? fun q => q.b = b.toNat && q.k = k) = none → (∀ j, jobOf s x.job = some j → j.paced = false) →
      (batchDurable s x y).1 = true →
      let r := creditOk (batchDurable s x y).2 c b.toNat k
      (r.1 = none → r.2.1 = true → exec (.batchDelivery code b k) s = .next (shardSend r.2.2 c h { b := b.toNat, k := k, release := 0 })) ∧
      (r.1 = none → r.2.1 = false → exec (.batchDelivery code b k) s = .next r.2.2)) ∧
    (∀ (b : Word) (k : Nat) (q : Sending) (y : Batch) (h : Shard), (x.sending.find? fun q => q.b = b.toNat && q.k = k) = some q →
      (x.batches.find? fun y => y.b = b.toNat) = some y → y.shards[k]? = some h → q.sink = none → q.phase = 1 → q.release ≤ s.pace.tick.toNat →
      x.closing = none → s.flt.lsState.toNat < 2 → (∀ j, jobOf s x.job = some j → j.replay = none) →
      ∃ t, exec (.deliveryComplete code b k 0) s = .next t ∧ (streamAt t c).delivered = x.delivered ++ [(b.toNat, k)] ∧
        ∀ z ∈ (streamAt t c).sending, ¬ (z.b = b.toNat ∧ z.k = k))

/-- WRITE, WRITE_IMM, READ_REQ, FETCH_ADD, CMP_SWAP and COUNTER_ADD packets at a responder. A packet that arrives for another state, transport or CEPOCH is dropped silently; a duplicate is acknowledged, or a kept atomic result resent; one beyond the window is answered NAK SEQUENCE_ERROR; a new one whose checks fail is answered with their status. A new WRITE that opens its message places its bytes at the region offset in HBM and nothing else; WRITE_IMM of a whole message also adds 1 where NMODE says so; READ_REQ is answered with the bytes of the region; an untagged atomic is applied once, its old value kept with its PSN; COUNTER_ADD adds to its counter. (Derived: R52, R326, R330, R332, R341, R342, R343, R344, R363, R369) -/
def Obligations.RequestsOfAResponder : Prop :=
  (∀ (cum psn : BitVec 32) (recvd : List (BitVec 32)),
    let d := (psn - cum).toNat
    (psnClass cum recvd psn = .new ↔ d < 1024 ∧ psn ∉ recvd) ∧
    (psnClass cum recvd psn = .dup ↔ (d < 1024 ∧ psn ∈ recvd) ∨ 2 ^ 32 - 2 ^ 23 ≤ d) ∧
    (psnClass cum recvd psn = .beyond ↔ 1024 ≤ d ∧ d < 2 ^ 32 - 2 ^ 23)) ∧
  (∀ (s : State) (p : Pkt), Arrives s p = true → p.type ∈ ([1, 2, 3, 5, 6, 8] : List (BitVec 8)) →
    let n := p.dqpn.toNat
    let q := qpGet s n
    let s0 := arrived s p
    let s1 := frontTake s0 n p
    let s2 := qpUpd s1 n fun q => { q with lastWork := s1.now }
    let instr : Instr := if p.type = 1 then .writePacket p else if p.type = 2 then .writeImmPacket p else if p.type = 3 then .readReqPacket p
      else if p.type = 5 then .fetchAddPacket p else if p.type = 6 then .cmpSwapPacket p else .counterAddPacket p
    let kind : ReqKind := if p.type = 1 then { right := 1, reads := false, writes := true } else if p.type = 2 then { right := 1, reads := false, writes := true, imm := true }
      else if p.type = 3 then { right := 0, reads := true, writes := false } else if p.type = 8 then { right := 3, reads := false, writes := false, align := 64 }
      else { right := 2, reads := true, writes := true, align := 8 }
    let len := if p.type = 1 ∨ p.type = 2 then p.payload.length else if p.type = 3 then p.mlen.toNat else 8
    let check := reqCheck s2 (qpGet s2 n) p.key p.offset.toNat len kind (offersWait q)
    let fits := (p.type = 1 ∨ p.type = 2 → p.mpos.toNat + len ≤ p.mlen.toNat)
    ((q.transport ≠ 1 ∨ q.state ≠ .ready ∨ p.cepoch ≠ q.cepoch) → exec instr s = .next s0) ∧
    (q.transport = 1 → q.state = .ready → p.cepoch = q.cepoch →
      (psnClass q.cum q.recvd p.psn = .beyond → exec instr s = .next (sendNak s1 n p stSequenceError)) ∧
      (psnClass q.cum q.recvd p.psn = .dup →
        ((p.type ≠ 5 ∧ p.type ≠ 6) ∨ (∀ e ∈ q.atomics, e.1 ≠ p.psn) → exec instr s = .next (promptAck s1 n p true)) ∧
        (∀ e, (p.type = 5 ∨ p.type = 6) → (q.atomics.find? fun e => e.1 = p.psn) = some e → exec instr s = .next (xmit s1 n { e.2 with flags := e.2.flags ||| 2 }))) ∧
      (psnClass q.cum q.recvd p.psn = .new → q.msgs = [] →
        ((p.type = 1 ∨ p.type = 2) → p.mlen.toNat < p.mpos.toNat + len → exec instr s = .next (reqNak s2 n p stSequenceError)) ∧
        (∀ st, fits → check = .nak st → exec instr s = .next (reqNak s2 n p st)) ∧
        (∀ ring va, fits → check = .wait ring va → exec instr s = .next (reqFail s2 n p (.wait ring va) (decide (p.type ≠ 3)))) ∧
        (∀ i r pa f, fits → check = .ok i r [(pa, len)] → resolve s2 pa = .hbm f → pa % 4096 + len ≤ 4096 → s.hbmErr = [] → pTagged p = false → jobOf s 0xFFFF = none →
          (p.type = 1 →
            ∃ t, exec instr s = .next t ∧ (∀ k < len, tabGet 0 t.hbm (f + k) = p.payload.getD k 0) ∧
              (∀ a, a < f ∨ f + len ≤ a → tabGet 0 t.hbm a = tabGet 0 s.hbm a) ∧ t.ts = s.ts ∧ t.ctrs = s.ctrs ∧ t.adds = s.adds) ∧
          (p.type = 2 → r.nmode = 1 → p.mlen.toNat = len → p.msn = q.nextNotify →
            ∃ t, exec instr s = .next t ∧ (∀ k < len, tabGet 0 t.hbm (f + k) = p.payload.getD k 0) ∧
              (∀ a, a < f ∨ f + len ≤ a → tabGet 0 t.hbm a = tabGet 0 s.hbm a) ∧ t.ts = s.ts ∧
              ctrGet t r.nctr.toNat = ctrGet s r.nctr.toNat + 1 ∧ (∀ k, k ≠ r.nctr.toNat → ctrGet t k = ctrGet s k)) ∧
          (p.type = 3 → q.rspJobs = [] → q.rspFlights = [] → len ≤ 2 ^ q.mtuLog2 →
            ∃ t, ∃ x ∈ (qpGet t n).rspFlights, exec instr s = .next t ∧ x.pkt.type = 4 ∧ x.pkt.psn = q.rspNext ∧ x.pkt.msn = p.msn ∧
              x.pkt.payload = (List.range len).map (fun k => tabGet 0 s.hbm (f + k)) ∧ t.hbm = s.hbm ∧ t.ts = s.ts ∧ t.ctrs = s.ctrs) ∧
          (p.type = 5 ∨ p.type = 6 →
            let old : Word := BitVec.ofNat 64 (memNat (memSlice s.hbm f 8) 0 8)
            let new : Word := if p.type = 5 then old + p.value else if old = BitVec.ofNat 64 (leNat (sub p.payload 0 8)) then p.value else old
            ∃ t, exec instr s = .next t ∧ (∀ k < 8, tabGet 0 t.hbm (f + k) = (new >>> (8 * k)).setWidth 8) ∧
              (∀ a, a < f ∨ f + 8 ≤ a → tabGet 0 t.hbm a = tabGet 0 s.hbm a) ∧ t.ts = s.ts ∧ t.ctrs = s.ctrs ∧
              ∃ e ∈ (qpGet t n).atomics, e.1 = p.psn ∧ e.2.type = 7 ∧ e.2.msn = p.msn ∧ e.2.value = old)) ∧
        (∀ i r ps, p.type = 8 → check = .ok i r ps → pTagged p = false →
          let k := (r.base + p.offset.toNat - 0x0F0000000000) / 64
          ∃ t, exec instr s = .next t ∧ ctrGet t k = ctrGet s k + p.value ∧ (∀ j, j ≠ k → ctrGet t j = ctrGet s j) ∧ t.hbm = s.hbm ∧ t.ts = s.ts ∧ t.adds = s.adds))))

/-- The responder's checks in their order. A key whose index is not registered or outside the table, or whose GEN or binding differs, is KEY_MISMATCH; else a missing right, WRITE_IMM with NMODE zero, or ODP on a connection that does not offer it, is RIGHTS_DENIED; else a range past LENGTH, or over a hole of a PHYS region, is ADDRESS_OUT_OF_BOUNDS; else an offset not a multiple of its alignment is MISALIGNED; else translation decides: a page not present is FAULT_WAIT with ODP and PAGE_NOT_PRESENT without. (Derived: R326, R350, R89) -/
def Obligations.ChecksOfARequest : Prop :=
  ∀ (s : State) (q : Qp) (key : BitVec 32) (off len : Nat) (k : ReqKind) (odp : Bool),
    let i := key.toNat / 256
    let r := regionGet s i
    let x := reqCheck s q key off len k odp
    let known := r.registered = true ∧ r.gen.toNat = key.toNat % 256 ∧ r.job = q.job ∧ i < 2 ^ s.xp.mrtLog2.toNat
    let allowed := r.rights.getLsbD k.right = true ∧ (k.imm = true → r.nmode ≠ 0) ∧ (regionOdp r = true → odp = true)
    let inside := off + len ≤ r.length ∧ (regionPhys r = true → populated s (r.base + off) len = true)
    (¬ known → x = .nak stKeyMismatch) ∧
    (known → ¬ allowed → x = .nak stRightsDenied) ∧
    (known → allowed → ¬ inside → x = .nak stOutOfBounds) ∧
    (known → allowed → inside → off % k.align ≠ 0 → x = .nak stMisaligned) ∧
    (known → allowed → inside → off % k.align = 0 → k.reads ≠ k.writes →
      ∀ a, a = (if k.reads then Acc.read else Acc.write) →
        (∀ va, regionXl s r off len a = .bad va (.fault stPageNotPresent) → x = if regionOdp r then .wait r.fring.toNat va else .nak stPageNotPresent) ∧
        (∀ va, regionXl s r off len a = .bad va (.fault stTableMalformed) → x = .nak stTableMalformed) ∧
        (∀ va st, regionXl s r off len a = .bad va (.deny st) → x = .nak st) ∧
        (∀ ps, regionXl s r off len a = .ok ps → regionExc s r ps a = none → x = .ok i r ps)) ∧
    (∀ j y ps, x = .ok j y ps → known ∧ allowed ∧ inside ∧ off % k.align = 0 ∧ j = i ∧ y = r)

/-- ACK, NAK, FAULT_WAIT, FRONTIER, READ_RESP and ATOMIC_RESP packets. At a standing connection of the packet's CEPOCH: an ACK leaves no acknowledged packet in flight and completes with success the writes and counter adds whose packets are all acknowledged; a NAK of a protection violation freezes the poster and any other fails the work request, the packet leaving flight, except SEQUENCE_ERROR, which fails an outstanding one with its queue pair; FAULT_WAIT holds its packet for the delay, from the first on; FRONTIER raises the frontier input; READ_RESP places its bytes and completes the READ at its last byte, ATOMIC_RESP delivers the old value, and neither is acknowledged where LOCAL does not translate. A packet of another CEPOCH changes nothing. (Derived: R95, R327, R330, R335, R336, R340, R341, R343, R348) -/
def Obligations.ResponsesAndAcknowledgements : Prop :=
  ∀ (s : State) (p : Pkt), Arrives s p = true →
    let n := p.dqpn.toNat
    let q := qpGet s n
    let s0 := arrived s p
    let alive := q.state = .ready ∨ q.state = .stalled
    (p.type = 0x10 → (p.cepoch ≠ q.cepoch ∨ ¬ alive) → exec (.ackPacket p) s = .next s0) ∧
    (p.type = 0x10 → alive → p.cepoch = q.cepoch → p.payload.length = 48 → q.transport = 0 →
      let bits := subNat p.payload 0 32
      let t := ackTake s0 n false p
      exec (.ackPacket p) s = .next (pump t n) ∧ (∀ f ∈ (qpGet t n).flights, psnAcked p.psn bits f.pkt.psn = false) ∧
      (∀ w ∈ q.sq, w.started = true → wrIsRead w = false → wrMore w = false → (∀ f ∈ q.flights, f.ord = w.ord → psnAcked p.psn bits f.pkt.psn = true) →
        ∀ x ∈ (qpGet t n).sq, x.ord ≠ w.ord)) ∧
    (p.type = 0x10 → alive → p.cepoch = q.cepoch → p.payload.length = 48 → q.transport = 1 → exec (.ackPacket p) s = .next (rspRun (ackTake s0 n true p) n)) ∧
    (∀ (cum psn : BitVec 32) (bits : Nat),
      psnAcked cum bits psn = true ↔ (2 ^ 31 ≤ (psn - cum).toNat ∨ ∃ i < 256, bits.testBit i = true ∧ psn = cum + 1 + BitVec.ofNat 32 i)) ∧
    (p.type = 0x11 → alive → p.cepoch = q.cepoch → q.transport = 0 →
      let st : Status := p.aux.setWidth 16
      let s1 := qpUpd s0 n fun q => { q with flights := q.flights.filter fun f => f.pkt.psn ≠ p.psn }
      (st = stSequenceError → (∀ f ∈ q.flights, f.pkt.psn ≠ p.psn) → exec (.nakPacket p) s = .next s0) ∧
      (∀ f, st = stSequenceError → (q.flights.find? fun f => f.pkt.psn = p.psn) = some f →
        ∃ t, exec (.nakPacket p) s = .next t ∧ t = qpFail s0 n (fun w => w.ord = f.ord) stSequenceError p.psn ∧ (qpGet t n).flights = [] ∧ (qpGet t n).sq = [] ∧ (qpGet t n).state = .error) ∧
      (∀ w, st ≠ stSequenceError → (q.sq.find? fun w => w.started && w.msn = p.msn) = some w →
        exec (.nakPacket p) s = .next (pump (if st = stKeyMismatch ∨ st = stRightsDenied ∨ st = stPkeyDenied ∨ st = stOutOfBounds then wrViolation s1 n w st else wrComplete s1 n w st 0) n))) ∧
    (p.type = 0x12 → alive → p.cepoch = q.cepoch → q.transport = 0 → 0x11 ≤ q.version.toNat →
      ∃ t, exec (.faultWaitPacket p) s = .next t ∧ t.hbm = s.hbm ∧ t.out = s.out ∧ (qpGet t n).flights.length = q.flights.length ∧
        ∀ (k : Nat) (f g : Flight), q.flights[k]? = some f → (qpGet t n).flights[k]? = some g →
          (f.pkt.psn ≠ p.psn → g = f) ∧
          (f.pkt.psn = p.psn → g.pkt = f.pkt ∧ g.waitUntil = some (s.now + BitVec.ofNat 64 (p.aux.toNat / 65536 * 1000)) ∧
            g.waitFirst = some (f.waitFirst.getD s.now))) ∧
    (p.type = 0x13 → ctlOk p 0 = true → p.tag = 0 → alive → p.cepoch = q.cepoch → q.transport.toNat < 2 → q.rspJobs = [] →
      ∃ t, exec (.frontierPacket p) s = .next t ∧ (qpGet t n).recvFrontier.toNat = max q.recvFrontier.toNat p.frontier.toNat ∧ t.hbm = s.hbm ∧ t.ctrs = s.ctrs) ∧
    (q.transport = 0 → alive → p.cepoch = q.cepoch → psnClass q.rspCum q.rspRecvd p.psn = .dup →
      (p.type = 4 → exec (.readRespPacket p) s = .next (promptAck s0 n p true)) ∧ (p.type = 7 → exec (.atomicRespPacket p) s = .next (promptAck s0 n p true))) ∧
    (q.transport = 0 → alive → p.cepoch = q.cepoch → psnClass q.rspCum q.rspRecvd p.psn = .new →
      (∀ w s1, p.type = 4 → (q.sq.find? fun w => w.started && w.opcode = 3 && w.msn = p.msn) = some w →
        p.mpos.toNat + p.payload.length ≤ w.length → p.mlen.toNat = w.length → localPlace s0 n w p.mpos.toNat p.payload = some (stOk, s1) →
        let s2 := ackNew (rspMark s1 n p.psn) n p
        (w.length ≤ w.placed + p.payload.length → exec (.readRespPacket p) s = .next (pump (wrComplete s2 n w stOk 0) n)) ∧
        (w.placed + p.payload.length < w.length → ∃ t, exec (.readRespPacket p) s = .next t ∧ t.hbm = s2.hbm ∧
          ∀ x ∈ (qpGet t n).sq, x.ord = w.ord → x.placed = w.placed + p.payload.length)) ∧
      (∀ w va st, p.type = 4 → (q.sq.find? fun w => w.started && w.opcode = 3 && w.msn = p.msn) = some w →
        p.mpos.toNat + p.payload.length ≤ w.length → p.mlen.toNat = w.length → w.sink = none → w.win = none →
        wrPieces s0 w p.mpos.toNat p.payload.length .write = .fault va st →
        ∃ t, exec (.readRespPacket p) s = .next t ∧ (qpGet t n).state = .stalled ∧ (qpGet t n).fault = some (w.ord, st) ∧
          (qpGet t n).rspCum = q.rspCum ∧ (qpGet t n).rspRecvd = q.rspRecvd ∧ t.out = s.out) ∧
      (∀ w id, p.type = 7 → (q.sq.find? fun w => w.started && (w.opcode = 4 || w.opcode = 5) && w.msn = p.msn) = some w → w.op = some id →
        ((kvGet s.ops id).any fun o => o.kind = .qpost) = false →
        exec (.atomicRespPacket p) s = .next (pump (ackNew (rspMark (wrComplete s0 n w stOk p.value) n p.psn) n p) n)) ∧
      (∀ w id s1, p.type = 7 → (q.sq.find? fun w => w.started && (w.opcode = 4 || w.opcode = 5) && w.msn = p.msn) = some w → w.op = some id →
        ((kvGet s.ops id).any fun o => o.kind = .qpost) = true → localPlace s0 n w 0 (leBytes 8 p.value.toNat) = some (stOk, s1) →
        exec (.atomicRespPacket p) s = .next (pump (ackNew (rspMark (wrComplete s1 n w stOk p.value) n p.psn) n p) n))) ∧
    (∀ (w : Wreq) (pa f : Nat), w.sink = none → w.win = none → wrPieces s0 w p.mpos.toNat p.payload.length .write = .ok [(pa, p.payload.length)] →
      resolve s0 pa = .hbm f → pa % 4096 + p.payload.length ≤ 4096 → s.hbmErr = [] →
      ∃ t, localPlace s0 n w p.mpos.toNat p.payload = some (stOk, t) ∧ (∀ k < p.payload.length, tabGet 0 t.hbm (f + k) = p.payload.getD k 0) ∧
        ∀ a, a < f ∨ f + p.payload.length ≤ a → tabGet 0 t.hbm a = tabGet 0 s.hbm a)

/-- How a queue pair connects, closes and is probed, and when a work request starts. The first work request of an IDLE queue pair with a neighbour sends CONNECT_REQ with its QPN, service, versions, MTU, paths and new CEPOCH; one on a queue pair that is not created, failed or draining completes QP_STATE_INVALID; on a READY one it starts with the next MSN. CONNECT_REQ to a LISTEN queue pair of the service makes it READY at the highest common version with the lower MTU and raises CONN_ACCEPTED, and is refused otherwise; CONNECT_RESP makes the requester READY or moves it to ERROR; CLOSE and idle teardown end a quiet connection with CONN_CLOSED; PROBE is answered with its time, and PROBE_RESP restores its path; an unanswered CONNECT_REQ goes again up to RETRY_MAX times. (Derived: R319, R329, R346, R347, R348, R349, R352, R357) -/
def Obligations.Connections : Prop :=
  (∀ (s : State) (qpn : BitVec 20) (w : Wreq),
    let n := qpn.toNat
    let q := qpGet s n
    let s1 := qpResident s n
    (q.sq.find? fun w => !w.started) = some w → batchHeld s w.job (tagBatch w.tag).toNat = false →
    ((q.state = .free ∨ q.state = .error ∨ q.state = .draining) → exec (.workRequestStart qpn) s = .next (wrComplete s n w stQpStateInvalid 0)) ∧
    (∀ hop, q.state = .idle → q.transport ≠ 1 → q.resident = true → (neighFind s1 q.peerIp).1 = some hop → (portGet s q.port.toNat).state = 2 →
      (portGet s q.port.toNat).paused = [] →
      ∃ t pk, exec (.workRequestStart qpn) s = .next t ∧ (qpGet t n).state = .connecting ∧ (qpGet t n).cepoch = q.cepoch + 1 ∧ (qpGet t n).attempts = 1 ∧
        (qpGet t n).sq = q.sq ∧ t.out = s.out ++ [.frerak n q.peerIp pk] ∧ pk.type = 0x20 ∧ pk.dqpn = 0 ∧ pktGood pk = true ∧
        pk.payload = leBytes 4 n ++ leBytes 4 q.service.toNat ++ [0x10, 0x20, BitVec.ofNat 8 q.mtuCfg, BitVec.ofNat 8 q.pathsCfg, 1, 0] ++ leBytes 2 (q.cepoch + 1).toNat ++ zeros 16) ∧
    (q.state = .ready → q.transport = 0 → q.resident = true → 0x20 ≤ q.version.toNat → wrBroken s1 w = stOk → wrWaits s1 (qpGet s1 n) w = false → wrHeld s1 w = false → w.flags.getLsbD 1 = false →
      exec (.workRequestStart qpn) s = .next (pump (qpUpd s1 n fun x => { x with
        nextMsn := x.nextMsn + 1, lastWork := s1.now, sq := x.sq.map fun y => if y.ord = w.ord then { y with started := true, msn := q.nextMsn } else y }) n))) ∧
  (∀ (s : State) (p : Pkt), (portGet s p.port.toNat).state = 2 → pktGood p = true → p.type = 0x20 →
    let s0 := portCount (portCount s p.port.toNat 2 1) p.port.toNat 3 (frameLen p.srcIp false ((pktBody p).length + 4))
    let fine := ctlOk p 32 = true ∧ p.dqpn = 0 ∧ payZero p 13 14 = true ∧ payZero p 16 32 = true ∧ subNat p.payload 0 4 < 2 ^ 20 ∧ subNat p.payload 14 2 < 2 ^ 12 ∧
      10 ≤ subNat p.payload 10 1 ∧ subNat p.payload 10 1 ≤ 12 ∧ 1 ≤ subNat p.payload 11 1 ∧ subNat p.payload 11 1 ≤ 64
    (¬ fine → exec (.connectReqPacket p) s = .next s0) ∧
    (fine → (∀ e ∈ s.qps, qpConnected e.2 = false) →
      ((∀ e ∈ s.qps, e.2.state = .listen → e.2.service.toNat ≠ subNat p.payload 4 4) → exec (.connectReqPacket p) s = .next (connectRefuse s0 p stServiceRefused)) ∧
      (∀ e, (s.qps.find? fun e => e.2.state = .listen && e.2.service = BitVec.ofNat 32 (subNat p.payload 4 4)) = some e → kvGet s.qps e.1 = some e.2 →
        (versionPick (p.payload.getD 8 0) (p.payload.getD 9 0) = none → exec (.connectReqPacket p) s = .next (connectRefuse s0 p stVersionUnsupported)) ∧
        (∀ v, versionPick (p.payload.getD 8 0) (p.payload.getD 9 0) = some v →
          ∃ t, exec (.connectReqPacket p) s = .next t ∧
            let y := qpGet t e.1
            y.state = .ready ∧ y.version = v ∧ y.peerQpn.toNat = subNat p.payload 0 4 ∧ y.peerCepoch.toNat = subNat p.payload 14 2 ∧ y.cepoch = e.2.cepoch + 1 ∧
            y.peerIp = p.srcIp ∧ y.mtuLog2 = min (subNat p.payload 10 1) e.2.mtuCfg ∧ y.paths = (if v = 0x10 then 1 else min (subNat p.payload 11 1) e.2.pathsCfg) ∧
            y.cum = e.2.cum ∧ ∃ z ∈ t.evq, z.type = 7 ∧ z.subject = BitVec.ofNat 32 e.1)))) ∧
  (∀ lo hi v, versionPick lo hi = some v ↔ v ∈ ([0x10, 0x11, 0x20] : List (BitVec 8)) ∧ lo.toNat ≤ v.toNat ∧ v.toNat ≤ hi.toNat ∧
    ∀ u ∈ ([0x10, 0x11, 0x20] : List (BitVec 8)), lo.toNat ≤ u.toNat → u.toNat ≤ hi.toNat → u.toNat ≤ v.toNat) ∧
  (∀ (s : State) (p : Pkt), Arrives s p = true →
    let n := p.dqpn.toNat
    let q := qpGet s n
    let s0 := arrived s p
    let st : Status := p.aux.setWidth 16
    (p.type = 0x21 → ctlOk p 32 = true → payZero p 13 14 = true → payZero p 16 32 = true → subNat p.payload 14 2 < 2 ^ 12 → q.state = .connecting → p.cepoch = q.cepoch →
      subNat p.payload 4 4 = q.service.toNat →
      ((st = stServiceRefused ∨ st = stVersionUnsupported) → subNat p.payload 0 4 = 0 → payZero p 8 9 = true → exec (.connectRespPacket p) s = .next (qpFail s0 n (fun _ => true) st 0)) ∧
      (st = stOk → subNat p.payload 0 4 < 2 ^ 20 → p.payload.getD 8 0 ∈ ([0x10, 0x11, 0x20] : List (BitVec 8)) → 10 ≤ subNat p.payload 10 1 → subNat p.payload 10 1 ≤ q.mtuCfg →
        1 ≤ subNat p.payload 11 1 → subNat p.payload 11 1 ≤ q.pathsCfg →
        ∃ t, exec (.connectRespPacket p) s = .next t ∧
          let y := qpGet t n
          y.state = .ready ∧ y.version = p.payload.getD 8 0 ∧ y.peerQpn.toNat = subNat p.payload 0 4 ∧ y.peerCepoch.toNat = subNat p.payload 14 2 ∧ y.cepoch = q.cepoch ∧
          y.mtuLog2 = subNat p.payload 10 1 ∧ y.paths = subNat p.payload 11 1 ∧ y.sq = q.sq ∧ (∀ m, m ≠ n → (qpGet t m).state = (qpGet s m).state))) ∧
    (p.type = 0x22 → ctlOk p 8 = true → payZero p 2 8 = true → 1 ≤ subNat p.payload 0 2 → subNat p.payload 0 2 ≤ 4 → qpConnected q = true → p.cepoch = q.cepoch →
      ((q.sq.any fun w => w.started) = true → exec (.closePacket p) s = .next (qpFail (connClosed s0 n) n (fun _ => true) stRemoteAborted 0)) ∧
      ((q.sq.any fun w => w.started) = false → ∃ t, exec (.closePacket p) s = .next t ∧ (qpGet t n).state = (if q.transport = 1 then .listen else .idle) ∧
        (qpGet t n).flights = [] ∧ (qpGet t n).nextPsn = 0 ∧ (qpGet t n).cum = 0 ∧ (qpGet t n).cepoch = q.cepoch ∧ (qpGet t n).sq = q.sq ∧ ∃ z ∈ t.evq, z.type = 8 ∧ z.subject = BitVec.ofNat 32 n)) ∧
    (p.type = 0x23 → ctlOk p 0 = true → qpConnected q = true → p.cepoch = q.cepoch →
      exec (.probePacket p) s = .next (qpXmit s0 n { pkt0 with type := 0x24, path := p.path, payload := leBytes 8 p.txtime.toNat })) ∧
    (p.type = 0x24 → ctlOk p 8 = true → qpConnected q = true → p.cepoch = q.cepoch → p.path.toNat < q.paths → (pathGet q p.path.toNat).live = false →
      ∃ t, exec (.probeRespPacket p) s = .next (pump t n) ∧ (∃ z ∈ t.evq, z.type = 5 ∧ z.subject = BitVec.ofNat 32 n) ∧
        (p.path.toNat < q.pathTab.length → (pathGet (qpGet t n) p.path.toNat).live = true))) ∧
  (∀ (s : State) (qpn : BitVec 20),
    let n := qpn.toNat
    let q := qpGet s n
    (q.state = .connecting → q.attempts < s.xp.retryMax.toNat →
      exec (.connectRetry qpn) s = .next (connectSend (qpUpd s n fun q => { q with attempts := q.attempts + 1, lastTry := s.now }) n)) ∧
    (q.state = .connecting → s.xp.retryMax.toNat ≤ q.attempts → exec (.connectRetry qpn) s = .next (qpFail s n (fun _ => true) stPeerUnreachable 0)) ∧
    (q.state = .ready → q.transport.toNat < 2 → qpQuiet q = true → strictJob s q.job = false → s.xp.idle ≠ 0 →
      ∃ t, exec (.idleTeardown qpn) s = .next t ∧ (qpGet t n).state = (if q.transport = 1 then .listen else .idle) ∧ (∃ z ∈ t.evq, z.type = 8 ∧ z.subject = BitVec.ofNat 32 n) ∧
        (qpGet t n).cepoch = q.cepoch ∧ t.hbm = s.hbm) ∧
    ((strictJob s q.job = true ∨ s.xp.idle = 0) → exec (.idleTeardown qpn) s = .next s))

/-- The transport's timers, context fetches and held packets. ACK_TIMER of a live queue pair with an acknowledgement due sends it, cumulative PSN, bitmap, echo and hold as the received sequence stands, and nothing else is due then; FRONTIER_TIMER of a 2.0 requester whose frontier has risen sends a FRONTIER packet; RTO_EXPIRY sends the oldest unheld packet of the path again with RETRANSMIT set, or fails the queue pair PEER_UNREACHABLE once RETRY_MAX retransmissions are spent, and the third expiry in a row fails the path; PROBE_TIMER probes a failed path; FAULT_WAIT_RESEND sends the held packet and every later one again; REMOTE_WAIT_TIMEOUT fails the work request waiting and the queue pair; QP_CONTEXT_FETCH makes a queue pair resident and handles what it held in order, and QP_HOLD_EXPIRY drops that. (Derived: R318, R335, R340, R343, R345, R352) -/
def Obligations.TransportTimers : Prop :=
  ∀ (s : State) (qpn : BitVec 20),
    let n := qpn.toNat
    let q := qpGet s n
    let alive := q.state = .ready ∨ q.state = .stalled
    (∀ at_ echo path, alive → q.ackDue = some (at_, echo, path) → ∃ t, exec (.ackTimer qpn) s = .next t ∧ (qpGet t n).ackDue = none ∧ t.hbm = s.hbm ∧
      (q.transport = 1 → q.withheld = [] → (portGet s q.port.toNat).state = 2 → (portGet s q.port.toNat).paused = [] → q.nextHop.isSome = true →
        ∃ pk, t.out = s.out ++ [.frerak n q.peerIp pk] ∧ pk.type = 0x10 ∧ pk.psn = q.cum ∧ pk.path = path ∧ pk.dqpn = q.peerQpn.setWidth 20 ∧ pk.cepoch = q.peerCepoch ∧
          pk.payload.length = 48 ∧ (∀ i < 256, (subNat pk.payload 0 32).testBit i = true ↔ q.cum + 1 + BitVec.ofNat 32 i ∈ q.recvd) ∧
          subNat pk.payload 32 8 = echo.toNat ∧ subNat pk.payload 40 4 = (s.now - at_).toNat % 2 ^ 32)) ∧
    ((¬ alive ∨ q.ackDue = none) → exec (.ackTimer qpn) s = .next s) ∧
    (q.state = .ready → q.transport = 0 → 0x20 ≤ q.version.toNat → q.sentFrontier.toNat < (qpFront s q).toNat →
      exec (.frontierTimer qpn) s = .next (qpXmit s n { pkt0 with type := 0x13, flags := 1 }) ∧
      (q.nextHop.isSome = true → ∃ t, exec (.frontierTimer qpn) s = .next t ∧ (qpGet t n).sentFrontier = qpFront s q)) ∧
    ((qpFront s q).toNat ≤ q.sentFrontier.toNat → exec (.frontierTimer qpn) s = .next s) ∧
    (∀ (k : Nat) (f : Flight), alive → q.transport = 0 → (q.flights.find? fun f => f.path = k && f.waitUntil.isNone) = some f →
      k < q.pathTab.length →
      (f.retries < s.xp.retryMax.toNat →
        ∃ t g, exec (.rtoExpiry qpn k) s = .next t ∧ g ∈ (qpGet t n).flights ∧ g.pkt = { f.pkt with flags := f.pkt.flags ||| 2, path := g.pkt.path } ∧
          g.ord = f.ord ∧ g.retries = f.retries + 1 ∧ (qpGet t n).flights.length = q.flights.length ∧
          (pathGet (qpGet t n) k).expiries = (pathGet q k).expiries + 1 ∧
          (pathGet (qpGet t n) k).live = ((pathGet q k).live && decide ((pathGet q k).expiries + 1 < 3)) ∧
          ((pathGet q k).live = true → 3 ≤ (pathGet q k).expiries + 1 → ∃ z ∈ t.evq, z.type = 4 ∧ z.subject = BitVec.ofNat 32 n)) ∧
      (s.xp.retryMax.toNat ≤ f.retries →
        ∃ t, exec (.rtoExpiry qpn k) s = .next t ∧ (qpGet t n).state = .error ∧ (qpGet t n).sq = [] ∧ (qpGet t n).flights = [] ∧
          ∃ z ∈ t.evq, z.type = 6 ∧ z.status = stPeerUnreachable ∧ z.subject = BitVec.ofNat 32 n)) ∧
    (∀ k, (∀ f ∈ q.flights ++ q.rspFlights, f.path = k → f.waitUntil.isSome = true) → exec (.rtoExpiry qpn k) s = .next s) ∧
    (∀ k, alive → k < q.paths → (pathGet q k).live = false →
      exec (.probeTimer qpn k) s = .next (qpXmit (qpUpd s n fun q => { q with pathTab := listSet q.pathTab k { pathGet q k with probed := s.now } }) n
        { pkt0 with type := 0x23, path := BitVec.ofNat 8 k })) ∧
    (∀ k, (pathGet q k).live = true → exec (.probeTimer qpn k) s = .next s) ∧
    (∀ pre f post, alive → q.flights = pre ++ f :: post → (∀ g ∈ pre, g.waitUntil = none) → f.waitUntil.isSome = true →
      exec (.faultWaitResend qpn) s = .next (flightsResend s n false (f :: post) false) ∧
      ((q.flights.map (·.pkt.psn)).Nodup → ∃ t, exec (.faultWaitResend qpn) s = .next t ∧ (∀ g ∈ (qpGet t n).flights, g.waitUntil = none) ∧
        (qpGet t n).flights.map (fun g => (g.pkt.psn, g.retries)) = q.flights.map (fun g => (g.pkt.psn, g.retries)))) ∧
    (∀ f, alive → (q.flights.find? fun f => f.waitFirst.isSome) = some f →
      exec (.remoteWaitTimeout qpn) s = .next (qpFail s n (fun w => w.ord = f.ord) stRemoteWaitTimeout f.pkt.psn)) ∧
    (q.state ≠ .free → q.resident = false →
      let s1 := qpResident (qpUpd s n fun q => { q with heldPkts := [], heldRoce := [] }) n
      exec (.qpContextFetch qpn) s = .next (q.heldRoce.foldl roceHandle (q.heldPkts.foldl pktHandle s1)) ∧
      (qpGet s1 n).resident = true ∧ (qpGet s1 n).state = q.state ∧ (s1.qps.filter fun e => e.2.resident).length ≤ max 16384 (s.qps.filter fun e => e.2.resident).length) ∧
    (∀ at_, q.holdSince = some at_ → ∃ t, exec (.qpHoldExpiry qpn) s = .next t ∧ (qpGet t n).heldPkts = [] ∧ (qpGet t n).heldRoce = [] ∧ (qpGet t n).holdSince = none ∧
      (qpGet t n).state = q.state ∧ (qpGet t n).cum = q.cum ∧ t.out = s.out ∧ t.hbm = s.hbm)

/-- The transport commands of XP_CMD. GO with the row's OP in a readable block, while not BUSY, completes the command: MR_REGISTER enters the region, advances its GEN and returns the key, or completes MR_INDEX_BUSY; MR_DEREGISTER stops the index at once and stays BUSY until MR_DEREGISTER_DRAINED finds no work that passed its check; QP_CREATE makes a FREE queue pair IDLE, LISTEN or, for RoCE v2, READY with its PSNs, or completes QP_IN_USE; QP_DESTROY flushes and drains, QP_DRAIN_DONE frees; QP_RESET flushes and returns to rest; QP_RESUME returns a STALLED one to READY; RING_SET writes the entry. A block out of range completes COMMAND_INVALID and changes nothing else; a GO while BUSY is ignored. (Derived: R319, R323, R324, R325, R336, R356, R358, R359) -/
def Obligations.TransportCommands : Prop :=
  (∀ (s : State) (b : Bytes) (op : Nat), 1 ≤ op → op ≤ 7 →
    let instr : Instr := if op = 1 then .mrRegister else if op = 2 then .mrDeregister else if op = 3 then .qpCreate else if op = 4 then .qpDestroy
      else if op = 5 then .qpResume else if op = 6 then .qpReset else .ringSet
    (s.xp.busy = true → exec instr s = .next s) ∧
    (∀ m s1, s.xp.busy = false → inHbm s (xpBlock s) 128 = true → physRead s (xpBlock s) 128 = (stOk, m, s1) → memBytes m 0 128 = b → (b.getD 0 0).toNat = op →
      (∃ t, exec instr s = .next t ∧ (t.xp.busy = true ↔ op = 2 ∧ t.xp.cur = 2)) ∧
      (op = 1 → mrOk s1 b = false → exec instr s = .next { s1 with xp := { s1.xp with busy := false, status := stCommandInvalid, result := 0, cur := 0, curArg := 0 } }) ∧
      (op = 1 → mrOk s1 b = true →
        let i := subNat b 4 4
        let r := regionGet s1 i
        ((r.registered = true ∨ r.draining = true ∨ mrFresh s1 r = true) → ∃ t, exec instr s = .next t ∧ t.xp.status = stMrIndexBusy ∧ t.regions = s1.regions) ∧
        (r.registered = false → r.draining = false → mrFresh s1 r = false →
          ∃ t, exec instr s = .next t ∧ t.xp.status = stOk ∧ t.xp.result.toNat = i % 2 ^ 24 * 256 + (r.gen + 1).toNat ∧ (∀ j, j ≠ i → regionGet t j = regionGet s1 j) ∧
            let y := regionGet t i
            y.registered = true ∧ y.gen = r.gen + 1 ∧ y.base = subNat b 8 8 ∧ y.length = subNat b 0x10 8 ∧ y.rights.toNat = subNat b 0x18 1 ∧ y.nmode.toNat = subNat b 0x19 1 ∧
            y.nring.toNat = subNat b 0x1A 2 ∧ y.nctr.toNat = subNat b 0x1C 4 ∧ y.fring.toNat = subNat b 0x20 2 ∧ y.ttb = subNat b 0x28 8 ∧ y.pkr0.toNat = subNat b 0x30 8 ∧
            y.job.toNat = subNat b 2 2 ∧ t.hbm = s1.hbm ∧ t.qps = s1.qps)) ∧
      (op = 2 → blkZero b 1 4 = true → blkZero b 8 0x80 = true → subNat b 4 4 / 256 < 2 ^ s1.xp.mrtLog2.toNat →
        let i := subNat b 4 4 / 256
        let r := regionGet s1 i
        r.registered = true → r.gen.toNat = subNat b 4 4 % 256 →
        ∃ t, exec instr s = .next t ∧ t.xp.busy = true ∧ regionGet t i = { r with registered := false, draining := true } ∧ (∀ j, j ≠ i → regionGet t j = regionGet s1 j) ∧
          (∀ q key off len k odp, key.toNat / 256 = i → reqCheck t q key off len k odp = .nak stKeyMismatch)) ∧
      (op = 3 → qpCreateOk s1 b = true →
        let n := subNat b 4 4
        ((qpGet s1 n).state ≠ .free → ∃ t, exec instr s = .next t ∧ t.xp.status = stQpInUse ∧ t.qps = s1.qps) ∧
        ((qpGet s1 n).state = .free →
          ∃ t, exec instr s = .next t ∧ t.xp.status = stOk ∧ t.xp.result.toNat = n ∧
            let y := qpGet t n
            y.state = (if subNat b 0x0A 1 = 0 then .idle else if subNat b 0x0A 1 = 1 then .listen else .ready) ∧ y.transport.toNat = subNat b 0x0A 1 ∧
            y.job.toNat = subNat b 8 2 ∧ y.mtuLog2 = subNat b 0x0B 1 ∧ y.paths = subNat b 0x0C 1 ∧ y.port.toNat = subNat b 0x0D 1 ∧ y.sqLog2 = subNat b 0x0E 1 ∧
            y.service.toNat = subNat b 0x30 4 ∧ y.fring.toNat = subNat b 0x3C 2 ∧ y.sqBase = subNat b 0x40 8 ∧ y.cepoch = (qpGet s1 n).cepoch ∧ y.sq = [] ∧ y.flights = [] ∧ y.resident = true ∧
            (subNat b 0x0A 1 = 2 → y.nextPsn.toNat = subNat b 0x34 4 ∧ y.cum.toNat = subNat b 0x38 4 ∧ y.peerQpn.toNat = subNat b 0x30 4))) ∧
      (op = 4 → qpBlockOk b false = true →
        let n := subNat b 4 4
        (qpGet s1 n).state ≠ .free → (qpGet s1 n).state ≠ .draining →
        ∃ t, exec instr s = .next t ∧ t.xp.status = stOk ∧ (qpGet t n).state = .draining ∧ (qpGet t n).sq = [] ∧ (qpGet t n).cepoch = (qpGet s1 n).cepoch ∧
          (qpConnected (qpGet s1 n) = true → ∃ z ∈ t.evq, z.type = 8 ∧ z.subject = BitVec.ofNat 32 n)) ∧
      (op = 5 → qpBlockOk b true = true →
        let n := subNat b 4 4
        ((qpGet s1 n).state ≠ .stalled → ∃ t, exec instr s = .next t ∧ t.xp.status = stCommandInvalid ∧ t.qps = s1.qps) ∧
        ((qpGet s1 n).state = .stalled → subNat b 8 1 = 0 →
          ∃ t, exec instr s = .next t ∧ t.xp.status = stOk ∧ qpGet t n = { qpGet s1 n with state := .ready, fault := none }) ∧
        (∀ f w, (qpGet s1 n).state = .stalled → subNat b 8 1 = 1 → (qpGet s1 n).fault = some f → ((qpGet s1 n).sq.find? fun w => w.ord = f.1) = some w →
          exec instr s = .next (xpDone (wrComplete (qpUpd s1 n fun q => { q with state := .ready, fault := none }) n w stLocalFaultAborted 0) stOk 0))) ∧
      (op = 6 → qpBlockOk b false = true →
        let n := subNat b 4 4
        ((qpGet s1 n).state = .connecting ∨ (qpGet s1 n).state = .ready ∨ (qpGet s1 n).state = .stalled ∨ (qpGet s1 n).state = .error) →
        ∃ t, exec instr s = .next t ∧ t.xp.status = stOk ∧ (qpGet t n).state = (if (qpGet s1 n).transport = 1 then .listen else .idle) ∧ (qpGet t n).sq = [] ∧ (qpGet t n).flights = []) ∧
      (∀ f, op = 7 → blkZero b 1 4 = true → subNat b 4 4 < 4096 → blkZero b 8 0x40 = true → subNat (sub b 0x40 64) 9 1 = 0 →
        resolve s1 (ringAddr s1 (subNat b 4 4)) = .hbm f → s1.hbmErr = [] →
        ∃ t, exec instr s = .next t ∧ t.xp.status = stOk ∧ t.regions = s1.regions ∧ t.qps = s1.qps ∧
          (∀ k < 64, tabGet 0 t.hbm (f + k) = (sub b 0x40 16 ++ zeros 24 ++ sub b 0x68 24).getD k 0) ∧ ∀ a, a < f ∨ f + 64 ≤ a → tabGet 0 t.hbm a = tabGet 0 s1.hbm a))) ∧
  (∀ (s : State) (qpn : BitVec 20),
    (s.xp.busy = true → s.xp.cur = 2 → mrBusy s s.xp.curArg = false →
      ∃ t, exec .mrDeregisterDrained s = .next t ∧ t.xp.busy = false ∧ t.xp.status = stOk ∧
        regionGet t s.xp.curArg = { regionGet s s.xp.curArg with draining := false, dereg := some s.now }) ∧
    (mrBusy s s.xp.curArg = true → exec .mrDeregisterDrained s = .next s) ∧
    ((qpGet s qpn.toNat).state = .draining → (qpGet s qpn.toNat).flights = [] → (qpGet s qpn.toNat).rspFlights = [] →
      ∃ t, exec (.qpDrainDone qpn) s = .next t ∧ (qpGet t qpn.toNat).state = .free ∧ (qpGet t qpn.toNat).cepoch = (qpGet s qpn.toNat).cepoch ∧ ∀ m, m ≠ qpn.toNat → qpGet t m = qpGet s m) ∧
    ((qpGet s qpn.toNat).flights ≠ [] → exec (.qpDrainDone qpn) s = .next s))

/-- ROCE_V2_PACKET at a RoCE v2 queue pair (the wire behaviour taken from the InfiniBand standard is the model's, log 46). At a READY resident RoCE v2 queue pair behind an UP port, a request ahead of the expected PSN is answered with a sequence NAK of that PSN, and one behind it again with an acknowledgement or its kept result; the first and only packet of a WRITE at the expected PSN whose checks pass places its bytes in HBM, advances the expected PSN modulo 2 to the 24 and is acknowledged; a failed check is answered with an access NAK; an atomic writes its new value and keeps the old one. An acknowledgement completes writes; an access NAK fails the queue pair and freezes the poster; an RNR NAK holds the packets from its PSN on; a notification of congestion never raises the window. (Derived: R334, R354, R355) -/
def Obligations.RocePackets : Prop :=
  ∀ (s : State) (p : RocePkt),
    let n := p.dqpn.toNat
    let q := qpGet s n
    let s0 := qpResident (portCount (portCount s q.port.toNat 2 1) q.port.toNat 3 (frameLen q.peerIp false (p.payload.length + 16))) n
    let gap := (p.psn.toNat + 2 ^ 24 - q.cum.toNat % 2 ^ 24) % 2 ^ 24
    (portGet s q.port.toNat).state = 2 → q.state = .ready → q.transport = 2 → q.resident = true →
    ((p.op = .write ∨ p.op = .writeImm ∨ p.op = .readReq ∨ p.op = .fetchAdd ∨ p.op = .cmpSwap) →
      (0 < gap → gap < 2 ^ 23 → exec (.roceV2Packet p) s = .next (roceSay s0 n .nakSeq q.cum)) ∧
      ((p.op = .write ∨ p.op = .writeImm) → 2 ^ 23 ≤ gap → exec (.roceV2Packet p) s = .next (roceAck s0 n)) ∧
      (∀ e, (p.op = .fetchAdd ∨ p.op = .cmpSwap) → 2 ^ 23 ≤ gap → (q.atomics.find? fun e => e.1 = p.psn.setWidth 32) = some e → exec (.roceV2Packet p) s = .next (xmit s0 n e.2)) ∧
      (∀ st, p.op = .write → gap = 0 → p.first = true → p.dmaLen.toNat = p.payload.length →
        reqCheck s0 (qpGet s0 n) p.rkey p.va.toNat p.payload.length { right := 1, reads := false, writes := true } false = .nak st →
        exec (.roceV2Packet p) s = .next (roceDeny s0 n .nakAccess (p.psn.setWidth 32))) ∧
      (∀ i r pa f, p.op = .write → gap = 0 → p.first = true → p.last = true → p.dmaLen.toNat = p.payload.length →
        reqCheck s0 (qpGet s0 n) p.rkey p.va.toNat p.payload.length { right := 1, reads := false, writes := true } false = .ok i r [(pa, p.payload.length)] →
        resolve s0 pa = .hbm f → pa % 4096 + p.payload.length ≤ 4096 → s.hbmErr = [] →
        ∃ t, exec (.roceV2Packet p) s = .next t ∧ (∀ k < p.payload.length, tabGet 0 t.hbm (f + k) = p.payload.getD k 0) ∧
          (∀ a, a < f ∨ f + p.payload.length ≤ a → tabGet 0 t.hbm a = tabGet 0 s.hbm a) ∧ t.ts = s.ts ∧ t.ctrs = s.ctrs ∧
          (qpGet t n).cum.toNat = (q.cum.toNat + 1) % 2 ^ 24) ∧
      (∀ i r pa f, (p.op = .fetchAdd ∨ p.op = .cmpSwap) → gap = 0 →
        reqCheck s0 (qpGet s0 n) p.rkey p.va.toNat 8 { right := 2, reads := true, writes := true, align := 8 } false = .ok i r [(pa, 8)] →
        resolve s0 pa = .hbm f → pa % 8 = 0 → s.hbmErr = [] → jobOf s 0xFFFF = none →
        let old : Word := BitVec.ofNat 64 (memNat (memSlice s.hbm f 8) 0 8)
        let new : Word := if p.op = .fetchAdd then old + p.swapAdd else if old = p.compare then p.swapAdd else old
        ∃ t, exec (.roceV2Packet p) s = .next t ∧ (∀ k < 8, tabGet 0 t.hbm (f + k) = (new >>> (8 * k)).setWidth 8) ∧
          (∀ a, a < f ∨ f + 8 ≤ a → tabGet 0 t.hbm a = tabGet 0 s.hbm a) ∧ (qpGet t n).cum.toNat = (q.cum.toNat + 1) % 2 ^ 24 ∧
          ∃ e ∈ (qpGet t n).atomics, e.1 = p.psn.setWidth 32 ∧ e.2.value = old)) ∧
    (p.op = .ack → exec (.roceV2Packet p) s = .next (pump (roceAcked s0 n (p.psn.setWidth 32) true) n) ∧
      ∀ w ∈ q.sq, w.started = true → wrIsRead w = false → wrMore w = false →
        (∀ f ∈ q.flights, f.ord = w.ord → psnGap q f.pkt.psn (p.psn.setWidth 32) < 2 ^ 23 ∧ ∀ x ∈ q.sq, x.ord = w.ord → wrIsRead x = false) →
        ∀ x ∈ (qpGet (roceAcked s0 n (p.psn.setWidth 32) true) n).sq, x.ord ≠ w.ord) ∧
    (p.op = .readResp → exec (.roceV2Packet p) s = .next (pump (roceReadResp s0 n p) n)) ∧
    (p.op = .atomicResp → exec (.roceV2Packet p) s = .next (pump (roceAtomicResp s0 n p) n)) ∧
    (p.op = .nakSeq → exec (.roceV2Packet p) s = .next (pump (roceBack s0 n (p.psn.setWidth 32)) n)) ∧
    ((p.op = .nakAccess ∨ p.op = .nakOp) → (roceFlight (roceAcked s0 n (p.psn.setWidth 32) false) n (p.psn.setWidth 32)).isSome = true →
      ∃ t, exec (.roceV2Packet p) s = .next t ∧ (qpGet t n).state = .error ∧ (qpGet t n).sq = [] ∧ (qpGet t n).flights = []) ∧
    (p.op = .rnr → ∃ t, exec (.roceV2Packet p) s = .next t ∧ ∀ f ∈ (qpGet t n).flights, psnGap q (p.psn.setWidth 32) f.pkt.psn < 2 ^ 23 → f.waitUntil = some s.now) ∧
    (p.op = .cnp → 0 < q.pathTab.length → ∃ t, exec (.roceV2Packet p) s = .next t ∧ (pathGet (qpGet t n) 0).window ≤ (pathGet q 0).window ∧
      (4096 ≤ (pathGet q 0).window → 4096 ≤ (pathGet (qpGet t n) 0).window) ∧ t.hbm = s.hbm ∧ t.out = s.out)

/-- A Frerak packet read back from the bytes it stands as on the wire. For every packet, of any header, tag header, payload and CRC, whose tag header fields are zero where TAGGED is clear, reading the bytes of its header, tag header, payload and little-endian CRC gives back the packet, every field at its value. The header is 56 bytes and the tag header 32; a shorter string is no packet; and of two packets with one byte string, every field is equal. (Derived: R338, R339, R340, R2) -/
def Obligations.PacketsReadBack : Prop :=
  (∀ p : Pkt, (pTagged p = false → p.tag = 0 ∧ p.frontier = 0) →
    pktParse (pktBody p ++ leBytes 4 p.crc.toNat) p.srcIp p.hop p.port = some p ∧ (pktHeader p).length = 56 ∧
    (pktBody p).length = 56 + (if pTagged p then 32 else 0) + p.payload.length) ∧
  (∀ (b : Bytes) (ip : BitVec 128) (hop : BitVec 8) (port : BitVec 7), b.length < 60 → pktParse b ip hop port = none) ∧
  (∀ p q : Pkt, (pTagged p = false → p.tag = 0 ∧ p.frontier = 0) → (pTagged q = false → q.tag = 0 ∧ q.frontier = 0) →
    pktBody p ++ leBytes 4 p.crc.toNat = pktBody q ++ leBytes 4 q.crc.toNat → p.srcIp = q.srcIp → p.hop = q.hop → p.port = q.port → p = q)

/-- QUIESCE, RESUME, FREEZE, UNFREEZE, RESET, a UCB_CMD write that starts none, and the end of a quiesce. A command write that R36 discards sets COLLIDE and changes nothing else; a code that is no command only stores TIMEOUT. Else, on a device, die, cluster or tile: QUIESCE and RESET of a unit not frozen make every ready, running or quiescing unit of the subtree QUIESCING and BUSY begins; RESUME makes each QUIESCED one RUNNING or READY; FREEZE makes every node and every tile not failed, retired or off FROZEN; UNFREEZE makes the frozen ones QUIESCED; RESET of a frozen unit makes every present unit READY and empties a tile, its store zero. QUIESCE_DRAINED, once nothing is in flight, ends a QUIESCE in QUIESCED with success and a RESET in READY; QUIESCE_TIMEOUT ends them with QUIESCE_TIMEOUT, a QUIESCE in RUNNING. A block reset ends with its engine's queue empty. A group's command is started on it. (Derived: R33, R35, R36, R38, R473, R475, R510, R511) -/
def Obligations.UnitCommands : Prop :=
  (∀ (s : State) (u : BitVec 12) (timeout : BitVec 16) (cmd kind : Nat), 1 ≤ cmd → cmd ≤ 5 → ucbKind s u.toNat = some kind →
    let n := u.toNat
    let x := unitGet s n
    let instr : Instr := if cmd = 1 then .quiesce u timeout else if cmd = 2 then .resume u timeout else if cmd = 3 then .freeze u timeout
      else if cmd = 4 then .unfreeze u timeout else .reset u timeout
    (kind = 5 → exec instr s = .next s) ∧
    (kind = 4 → x.busy = true → exec instr s = .next (unitSet s n { x with collide := true })) ∧
    (kind = 4 → x.busy = false → exec instr s = .next (groupStart s (n - 2048) cmd timeout)) ∧
    (kind < 4 → ucbCollides s n cmd = true → exec instr s = .next (unitSet s n { x with collide := true })) ∧
    (kind < 4 → ucbCollides s n cmd = false →
      (cmd = 1 ∨ (cmd = 5 ∧ x.st ≠ .frozen) →
        ∃ t, exec instr s = .next t ∧ (unitGet t n).busy = true ∧ (unitGet t n).cmd.toNat = cmd ∧ (unitGet t n).timeout = timeout ∧ (unitGet t n).since = s.now ∧
          (∀ v ∈ unitsUnder n, (unitGet t v).st = if uActive (unitGet s v).st then .quiescing else (unitGet s v).st) ∧
          (∀ v, v ∉ unitsUnder n → v ≠ n → unitGet t v = unitGet s v) ∧ t.tiles = s.tiles ∧ t.hbm = s.hbm ∧ t.ts = s.ts) ∧
      (cmd = 2 → (∀ L ∈ tilesUnder n, (tileGet s L).frozen = [] ∧ (tileGet s L).runq = []) →
        ∃ t, exec instr s = .next t ∧ (unitGet t n).busy = false ∧ (unitGet t n).last = 2 ∧ (unitGet t n).status = stOk ∧
          (∀ v ∈ unitsUnder n, (unitGet t v).st = if (unitGet s v).st = .quiesced then (if unitRuns s v then .running else .ready) else (unitGet s v).st) ∧
          t.hbm = s.hbm ∧ t.ts = s.ts) ∧
      (cmd = 3 → ∃ t, exec instr s = .next t ∧ (unitGet t n).busy = false ∧ (unitGet t n).last = 3 ∧ (unitGet t n).status = stOk ∧
        (∀ v ∈ nodesUnder n, (unitGet t v).st = .frozen) ∧
        (∀ L ∈ tilesUnder n, (unitGet s (tileUcb L)).st ≠ .failed → (unitGet s (tileUcb L)).st ≠ .retired → (unitGet s (tileUcb L)).st ≠ .off → (unitGet t (tileUcb L)).st = .frozen)) ∧
      (cmd = 4 → ∃ t, exec instr s = .next t ∧ (unitGet t n).busy = false ∧ (unitGet t n).last = 4 ∧ (unitGet t n).status = stOk ∧
        (∀ v ∈ unitsUnder n, (unitGet t v).st = if (unitGet s v).st = .frozen then .quiesced else (unitGet s v).st) ∧
        (∀ v, v ∉ unitsUnder n → v ≠ n → unitGet t v = unitGet s v) ∧ t.tiles = s.tiles) ∧
      (cmd = 5 → x.st = .frozen → ∃ t, exec instr s = .next t ∧ (unitGet t n).busy = false ∧ (unitGet t n).last = 5 ∧ (unitGet t n).status = stOk ∧
        (∀ v ∈ unitsUnder n, (unitGet s v).st ≠ .failed → (unitGet s v).st ≠ .retired → (unitGet s v).st ≠ .off → (unitGet t v).st = .ready) ∧
        (∀ L, n = tileUcb L → L < 768 → backed s L = true → (tileGet t L).hws = [] ∧ (tileGet t L).runq = [] ∧ (tileGet t L).waiting = [] ∧
          ∀ off < 0x300000, tabGet 0 t.ts (tsAddr (slotIdx t L) off) = 0)))) ∧
  (∀ (s : State) (u : BitVec 12) (cmd : BitVec 8) (timeout : BitVec 16) (kind : Nat), ucbKind s u.toNat = some kind → kind < 5 → (cmd = 0 ∨ 5 < cmd.toNat) →
    exec (.ucbCmdNone u cmd timeout) s = .next (unitSet s u.toNat { unitGet s u.toNat with timeout := timeout })) ∧
  (∀ (s : State) (n : Nat), n < 2048 →
    ((unitGet s n).busy = true → (unitGet s n).cmd = 1 →
      (unitDrained s n = true → ∃ t, exec (.quiesceDrained n) s = .next t ∧ (unitGet t n).busy = false ∧ (unitGet t n).last = 1 ∧ (unitGet t n).status = stOk ∧
        ∀ v ∈ unitsUnder n, (unitGet t v).st = if (unitGet s v).st = .quiescing then .quiesced else (unitGet s v).st) ∧
      (∃ t, exec (.quiesceTimeout n) s = .next t ∧ (unitGet t n).busy = false ∧ (unitGet t n).last = 1 ∧ (unitGet t n).status = stQuiesceTimeout ∧
        ∀ v ∈ unitsUnder n, (unitGet t v).st = if (unitGet s v).st = .quiescing then .running else (unitGet s v).st)) ∧
    ((unitGet s n).busy = true → (unitGet s n).cmd = 5 →
      (unitDrained s n = true → exec (.quiesceDrained n) s = .next (ucbDone (unitReset s n) n stOk)) ∧
      exec (.quiesceTimeout n) s = .next (ucbDone (unitReset s n) n stQuiesceTimeout)) ∧
    ((unitGet s n).busy = false → exec (.quiesceDrained n) s = .next s ∧ exec (.quiesceTimeout n) s = .next s) ∧
    (unitDrained s n = false → exec (.quiesceDrained n) s = .next s)) ∧
  (∀ (s : State) (v : Word), s.pwr.brBusy = false → v.getLsbD 8 = true → blkTarget (fld v 0 8).toNat = true → fld v 0 8 ≠ 201 →
    ∃ t, exec (.blkReset v) s = .next t ∧ t.pwr.brBusy = true ∧ t.pwr.brCur = fld v 0 8 ∧ t.pwr.brTimeout = fld v 16 16 ∧ (fld v 0 8).toNat ∈ t.engQuiesce ∧
      t.engines = s.engines ∧ t.hbm = s.hbm) ∧
  (∀ s : State, s.pwr.brBusy = true → s.pwr.brCur.toNat < 198 →
    let c := s.pwr.brCur.toNat
    ((engQueue s c).all (fun d => !d.active) = true →
      ∃ t, exec (.quiesceDrained (0xF000 + c)) s = .next t ∧ t.pwr.brBusy = false ∧ t.pwr.brStatus = stOk ∧ engQueue t c = [] ∧ c ∉ t.engQuiesce) ∧
    (∃ t, exec (.quiesceTimeout (0xF000 + c)) s = .next t ∧ t.pwr.brBusy = false ∧ t.pwr.brStatus = stQuiesceTimeout ∧ engQueue t c = [] ∧ c ∉ t.engQuiesce))

/-- UCB_TROUBLE_CLR, HS_RATE_UPDATE, GROUP_REFRESH and GROUP_COMMAND_FORWARD. UCB_TROUBLE_CLR sets the counters and SAT bits of its mask to zero, a listed cause that counts in the same access leaving 1, and leaves the other counters and, without such a cause, the fault mass as they were. HS_RATE_UPDATE stores the rate. GROUP_REFRESH gives the group the least SPARES, the summed TDC and counters, the SCORE and CONF of the member with the least SCORE, and the time. A group command goes to the next member when one has answered, completes with the first failure when the last has, and with PEER_UNREACHABLE when one does not answer. (Derived: R33, R37, R38, R476, R477) -/
def Obligations.CountersAndGroups : Prop :=
  (∀ (s : State) (u : BitVec 12) (mask same : BitVec 64) (kind : Nat), ucbKind s u.toNat = some kind → kind ≠ 4 →
    let key := siliconKey s u.toNat
    ∃ t, exec (.ucbTroubleClr u mask same) s = .next t ∧
      (∀ k < 64, mask.getLsbD k = true →
        tabGet 0 (siliconGet t key).count k = (if same.getLsbD k && troubleCause k then 1 else 0) ∧ (siliconGet t key).sat.getLsbD k = false) ∧
      (∀ k < 64, mask.getLsbD k = false → (same.getLsbD k && troubleCause k) = false →
        tabGet 0 (siliconGet t key).count k = tabGet 0 (siliconGet s key).count k ∧ (siliconGet t key).sat.getLsbD k = (siliconGet s key).sat.getLsbD k) ∧
      (same = 0 → (siliconGet t key).mass = (siliconGet s key).mass ∧ (siliconGet t key).score = (siliconGet s key).score) ∧
      (∀ j, j ≠ key → siliconGet t j = siliconGet s j) ∧ t.units = s.units) ∧
  (∀ (s : State) (u : BitVec 12) (rate : BitVec 16) (kind : Nat), ucbKind s u.toNat = some kind →
    ∃ t, exec (.hsRateUpdate u rate) s = .next t ∧ unitGet t (ucbHome s u.toNat) = { unitGet s (ucbHome s u.toNat) with rate := rate } ∧
      ∀ v, v ≠ ucbHome s u.toNat → unitGet t v = unitGet s v) ∧
  (∀ (s : State) (k : Fin 256) (members : List Member) (g : GroupRec), groupGet s k.val = some g →
    let ms := members.filter (·.answered)
    ∃ t h, exec (.groupRefresh k members) s = .next t ∧ groupGet t k.val = some h ∧ h.refresh = s.now ∧ h.children = g.children ∧ h.st = g.st ∧
      h.tdc = (ms.map (·.tdc)).foldl (· + ·) 0 ∧
      (ms = [] → h.score = g.score ∧ h.conf = g.conf) ∧
      (ms ≠ [] → (∃ m ∈ ms, h.score = m.score ∧ h.conf = m.conf) ∧ (∀ m ∈ ms, h.score.toNat ≤ m.score.toNat) ∧
        (∃ m ∈ ms, h.spares = m.spares) ∧ ∀ m ∈ ms, h.spares.toNat ≤ m.spares.toNat) ∧
      (∀ c, (∀ m ∈ ms, (m.counts.map (·.1)).Nodup) →
        (tabGet 0 h.counts c).toNat = min 0xFFFF ((ms.map fun m => (tabGet 0 m.counts c).toNat).sum)) ∧
      ∀ j, j ≠ k.val → groupGet t j = groupGet s j) ∧
  (∀ (s : State) (k : Fin 256) (g : GroupRec) (e : Word) (st : Status), groupGet s k.val = some g → (unitGet s (2048 + k.val)).busy = true →
    g.children[g.next]? = some e → localChild s e = none →
    let f := if g.firstFail = 0 then st else g.firstFail
    let s1 := groupUpd s k.val fun g => { g with next := g.next + 1, firstFail := f }
    (g.next + 1 < g.children.length → exec (.groupCommandForward k (some st)) s = .next (groupSend s1 k.val)) ∧
    (g.next + 1 = g.children.length →
      ∃ t, exec (.groupCommandForward k (some st)) s = .next t ∧ (unitGet t (2048 + k.val)).busy = false ∧ (unitGet t (2048 + k.val)).status = f ∧
        (unitGet t (2048 + k.val)).last = (unitGet s (2048 + k.val)).cmd) ∧
    (∃ t, exec (.groupCommandForward k none) s = .next t ∧ (unitGet t (2048 + k.val)).busy = false ∧ (unitGet t (2048 + k.val)).status = stPeerUnreachable)) ∧
  (∀ (s : State) (k : Fin 256) (answer : Option Status) (g : GroupRec) (e : Word) (u : Nat), groupGet s k.val = some g → g.children[g.next]? = some e → localChild s e = some u →
    ((unitGet s u).busy = true → exec (.groupCommandForward k answer) s = .next s) ∧
    ((unitGet s (2048 + k.val)).busy = true → (unitGet s u).busy = false → g.next + 1 = g.children.length →
      ∃ t, exec (.groupCommandForward k answer) s = .next t ∧ (unitGet t (2048 + k.val)).busy = false ∧
        (unitGet t (2048 + k.val)).status = if g.firstFail = 0 then (unitGet s u).status else g.firstFail))

/-- Ports: enabling, training, losing lock and the degradation window. PORT_ENABLE of a valid configuration on a disabled port stores it and enters TRAINING with reason 1; an invalid one, or another configuration on an enabled port, sets REFUSED and changes nothing else. PORT_DISABLE takes the port OFF, RETRAIN and LOSS_OF_LOCK take an UP port to TRAINING; a port that leaves UP drops its queued frames and pauses, counts LINK_DOWNS and raises PORT_DOWN. PORT_TRAINING_DONE brings a training port UP with PORT_UP unless its pads are held; TRAINING_RETRY counts TRAIN_FAILS. FEC_WINDOW_END adds the window to the counters and raises LINK_DEGRADED on entering the degraded state only. No other port changes. (Derived: R382, R384, R385, R386, R388, R389, R398) -/
def Obligations.PortLinks : Prop :=
  ∀ (s : State) (p : Fin 96),
    let n := p.val
    let x := portGet s n
    let others := fun (t : State) => (∀ j, j ≠ n → portGet t j = portGet s j) ∧ t.hbm = s.hbm ∧ t.out = s.out
    let down := fun (t : State) (st : BitVec 2) (reason : BitVec 8) => (portGet t n).state = st ∧ (portGet t n).txq = [] ∧ (portGet t n).paused = [] ∧ (portGet t n).pausing = 0 ∧
      (portGet t n).reason = reason ∧ tabGet 0 (portGet t n).cnt 15 = tabGet 0 x.cnt 15 + 1 ∧ (∃ e ∈ t.evq, e.type = 2 ∧ e.subject = BitVec.ofNat 32 n) ∧ others t
    (∀ v : Word,
      let lanes : BitVec 4 := fld v 0 4
      let rate : BitVec 2 := fld v 4 2
      let ok := portCfgOk s n lanes.toNat rate.toNat
      ((ok = false ∨ (x.en = true ∧ (lanes ≠ x.lanes ∨ rate ≠ x.rate ∨ v.getLsbD 7 ≠ x.medium))) → exec (.portEnable p v) s = .next (portSet s n { x with refused := true })) ∧
      (ok = true → x.en = false →
        exec (.portEnable p v) s = .next (portSet s n { x with
          lanes := lanes, rate := rate, en := true, medium := v.getLsbD 7, pfcEn := fld v 8 8, state := 1, reason := 1, degraded := false })) ∧
      (ok = true ↔ (lanes = 1 ∨ lanes = 2 ∨ lanes = 4 ∨ lanes = 8) ∧ (rate = 1 ∨ rate = 2) ∧ n % lanes.toNat = 0 ∧ n + lanes.toNat ≤ 96 ∧
        ∀ e ∈ s.ports, e.1 ≠ n → e.2.en = true → e.1 + e.2.lanes.toNat ≤ n ∨ n + lanes.toNat ≤ e.1)) ∧
    (x.en = true → x.state = 2 → ∃ t, exec (.portDisable p) s = .next t ∧ (portGet t n).en = false ∧ down t 0 2) ∧
    (x.en = true → x.state ≠ 2 → ∃ t, exec (.portDisable p) s = .next t ∧ (portGet t n).en = false ∧ (portGet t n).state = 0 ∧ t.evq = s.evq ∧ others t) ∧
    (x.state = 2 → (∃ t, exec (.retrain p) s = .next t ∧ (portGet t n).en = x.en ∧ down t 1 4) ∧ ∃ t, exec (.lossOfLock p) s = .next t ∧ (portGet t n).en = x.en ∧ down t 1 3) ∧
    (x.state ≠ 2 → exec (.retrain p) s = .next s ∧ exec (.lossOfLock p) s = .next s) ∧
    (x.state = 1 → s.pwr.holdEth = false →
      (∃ t, exec (.portTrainingDone p) s = .next t ∧ portGet t n = { x with state := 2 } ∧ (∃ e ∈ t.evq, e.type = 1 ∧ e.subject = BitVec.ofNat 32 n) ∧ others t) ∧
      (∃ t, exec (.trainingRetry p) s = .next t ∧ (portGet t n).state = 1 ∧ tabGet 0 (portGet t n).cnt 13 = tabGet 0 x.cnt 13 + 1 ∧ others t)) ∧
    ((x.state ≠ 1 ∨ s.pwr.holdEth = true) → exec (.portTrainingDone p) s = .next s ∧ exec (.trainingRetry p) s = .next s) ∧
    (∀ cw sym unc : BitVec 32, (x.state = 0 → exec (.fecWindowEnd p cw sym unc) s = .next s) ∧
      (x.state ≠ 0 → ∃ t, exec (.fecWindowEnd p cw sym unc) s = .next t ∧ others t ∧
        let y := portGet t n
        y.lastSym = sym ∧ y.lastUnc = unc ∧ y.state = x.state ∧
        tabGet 0 y.cnt 6 = tabGet 0 x.cnt 6 + cw.setWidth 48 ∧ tabGet 0 y.cnt 7 = tabGet 0 x.cnt 7 + sym.setWidth 48 ∧ tabGet 0 y.cnt 8 = tabGet 0 x.cnt 8 + unc.setWidth 48 ∧
        (y.degraded = true ↔ (x.symThresh ≠ 0 ∧ x.symThresh.toNat ≤ sym.toNat) ∨ (x.uncThresh ≠ 0 ∧ x.uncThresh.toNat ≤ unc.toNat)) ∧
        (y.degraded = true → x.degraded = false → ∃ e ∈ t.evq, e.type = 3 ∧ e.subject = BitVec.ofNat 32 n) ∧
        ((y.degraded = false ∨ x.degraded = true) → ∀ e ∈ t.evq, e.type = 3 → e ∈ s.evq)))

/-- FRAME_RECEIVED, the PFC rows and PFC_PAUSE_EXPIRY (the frame layouts are the model's, log 46). A frame at a port that is not UP, or for another address, is dropped; one with a wrong FCS is counted. A frame of no UDP datagram goes into the management ring with its time, port and length where the ring is enabled and has room, and is counted as dropped otherwise; one to the Frerak port is handled as its packet. A received PFC frame stops each enabled priority it names for its quanta, and a zero time releases it; the expiry sends what waited. PFC_REPEAT asks the peer to stop from XOFF on and again until XON, and then releases it. (Derived: R386, R390, R392, R397, R398) -/
def Obligations.FramesAndPauses : Prop :=
  (∀ (s : State) (p : Fin 96) (f : Bytes) (fcs : Bool) (at_ : Word),
    let n := p.val
    let s1 := portCount (portCount s n 2 1) n 3 (f.length + 4)
    ((portGet s n).state ≠ 2 → exec (.frameReceived p f fcs at_) s = .next s) ∧
    ((portGet s n).state = 2 → fcs = false → ∃ t, exec (.frameReceived p f fcs at_) s = .next t ∧ tabGet 0 (portGet t n).cnt 9 = tabGet 0 (portGet s n).cnt 9 + 1 ∧ t.hbm = s.hbm ∧ t.out = s.out) ∧
    ((portGet s n).state = 2 → frameMine s n f = false → fcs = true → exec (.frameReceived p f fcs at_) s = .next s) ∧
    ((portGet s n).state = 2 → frameMine s n f = true → fcs = true →
      (isPfc f = true → exec (.frameReceived p f fcs at_) s = .next (pfcReceive s1 n f)) ∧
      (∀ u k, isPfc f = false → frameUdp f = some u → (frameType f).1 ≠ 0x88F7 → u.dport = s.xp.dport.toNat → u.dport ≠ 319 → u.dport ≠ 320 →
        pktParse u.payload u.srcIp u.hop (BitVec.ofNat 7 n) = some k → exec (.frameReceived p f fcs at_) s = .next (pktHandle s1 k)) ∧
      (isPfc f = false → frameUdp f = none →
        let pa := s.mgmt.ringBase.toNat * 16384 + 16384 * (s.mgmt.head.toNat % 2 ^ s.mgmt.ringSize.toNat)
        ((s.mgmt.ringEn = false ∨ 2 ^ s.mgmt.ringSize.toNat ≤ (s.mgmt.head - s.mgmt.tail).toNat) →
          ∃ t, exec (.frameReceived p f fcs at_) s = .next t ∧ tabGet 0 (portGet t n).cnt 10 = tabGet 0 (portGet s n).cnt 10 + 1 ∧ t.mgmt = s.mgmt ∧ t.hbm = s.hbm) ∧
        (∀ a, s.mgmt.ringEn = true → (s.mgmt.head - s.mgmt.tail).toNat < 2 ^ s.mgmt.ringSize.toNat → inHbm s pa 16384 = true → resolve s pa = .hbm a → s.hbmErr = [] → f.length ≤ 4032 →
          ∃ t, exec (.frameReceived p f fcs at_) s = .next t ∧ t.mgmt = { s.mgmt with head := s.mgmt.head + 1 } ∧
            tabGet 0 (portGet t n).cnt 5 = tabGet 0 (portGet s n).cnt 5 + 1 ∧
            (∀ k < 9, tabGet 0 t.hbm (a + k) = (leBytes 8 at_.toNat ++ [BitVec.ofNat 8 n]).getD k 0) ∧
            (∀ k < 2, tabGet 0 t.hbm (a + 10 + k) = (leBytes 2 f.length).getD k 0) ∧
            (∀ k < f.length, tabGet 0 t.hbm (a + 64 + k) = f.getD k 0) ∧
            (∀ b, b < a ∨ a + 64 + f.length ≤ b → tabGet 0 t.hbm b = tabGet 0 s.hbm b))))) ∧
  (∀ (s : State) (p : Fin 96) (f : Bytes), (portGet s p.val).state = 2 → isPfc f = true →
    ∃ t, exec (.pfcFrameReceived p f) s = .next t ∧ tabGet 0 (portGet t p.val).cnt 12 = tabGet 0 (portGet s p.val).cnt 12 + 1 ∧ t.hbm = s.hbm ∧
      ∀ i < 8,
        let named := (beNat (sub f 16 2)).testBit i = true ∧ (portGet s p.val).pfcEn.getLsbD i = true
        let q := beNat (sub f (18 + 2 * i) 2)
        (named → q ≠ 0 → (i, s.now, pauseNs (portGet s p.val) q) ∈ (portGet t p.val).paused) ∧
        (named → q = 0 → ∀ e ∈ (portGet t p.val).paused, e.1 ≠ i) ∧
        (¬ named → ∀ e, e.1 = i → (e ∈ (portGet t p.val).paused ↔ e ∈ (portGet s p.val).paused))) ∧
  (∀ (s : State) (p : Fin 96) (prio : Fin 8) (e : Nat × Word × Nat), (portGet s p.val).state = 2 → ((portGet s p.val).paused.find? fun e => e.1 = prio.val) = some e →
    ∃ t, exec (.pfcPauseExpiry p prio) s = .next t ∧ (∀ y ∈ (portGet t p.val).paused, y.1 ≠ prio.val) ∧ (∀ y ∈ (portGet t p.val).txq, y.1 ≠ prio.val) ∧
      t.out = s.out ++ (((portGet s p.val).txq.filter fun y => y.1 = prio.val).map (·.2)) ∧
      tabGet 0 (portGet t p.val).cnt 4 = tabGet 0 (portGet s p.val).cnt 4 + BitVec.ofNat 48 e.2.2) ∧
  (∀ (s : State) (p : Fin 96) (prio : Fin 8) (occ : Nat),
    let x := portGet s p.val
    let on := x.pausing.getLsbD prio.val
    ((x.state ≠ 2 ∨ x.pfcEn.getLsbD prio.val = false ∨ (on = false ∧ occ < x.xoff.toNat)) → exec (.pfcRepeat p prio occ) s = .next s) ∧
    (x.state = 2 → x.pfcEn.getLsbD prio.val = true →
      (on = true → occ ≤ x.xon.toNat → ∃ t, exec (.pfcRepeat p prio occ) s = .next t ∧ (portGet t p.val).pausing.getLsbD prio.val = false ∧
        t.out = s.out ++ [.frame p.val (pfcFrame s p.val prio.val 0)]) ∧
      ((on = true ∧ x.xon.toNat < occ) ∨ (on = false ∧ x.xoff.toNat ≤ occ) → ∃ t, exec (.pfcRepeat p prio occ) s = .next t ∧ (portGet t p.val).pausing.getLsbD prio.val = true ∧
        t.out = s.out ++ [.frame p.val (pfcFrame s p.val prio.val x.quanta.toNat)])))

/-- PTP_STEP, the management transmitter, and the enabling of the two rings. PTP_STEP of 1 s or more moves the timestamp at once, ends any slew and marks the jump; a smaller one leaves the timestamp and replaces the slew. MGMT_TX_GO stores the port and length; while BUSY, or with a length outside 60 to 9,212, it starts nothing; to a port not UP it reads timestamp zero; else it is BUSY with that frame, which MGMT_TX_DONE sends with its timestamp, BUSY clear. Enabling the management ring zeroes HEAD and TAIL, enabling the slip journal zeroes HEAD, TAIL and LOST, and writing EN again changes nothing. (Derived: R79, R396, R397, R539) -/
def Obligations.TimeAndRings : Prop :=
  (∀ (s : State) (step : BitVec 64),
    (1000000000 ≤ step.toInt → exec (.ptpStep step) s = .next { s with now := s.now + step, ptpSlew := 0, ptpJump := some (s.now + step) }) ∧
    (step.toInt < 1000000000 → exec (.ptpStep step) s = .next { s with ptpSlew := step.toInt * 2 ^ 40 })) ∧
  (∀ (s : State) (v : Word),
    let p : BitVec 7 := fld v 0 7
    let n : BitVec 14 := fld v 16 14
    let m := { s.mgmt with txPort := p, txLen := n }
    ((s.mgmt.busy = true ∨ n.toNat < 60 ∨ 9212 < n.toNat) → exec (.mgmtTxGo v) s = .next { s with mgmt := m }) ∧
    (s.mgmt.busy = false → 60 ≤ n.toNat → n.toNat ≤ 9212 →
      ((portGet s p.toNat).state ≠ 2 → exec (.mgmtTxGo v) s = .next { s with mgmt := { m with txTs := 0 } }) ∧
      ((portGet s p.toNat).state = 2 → exec (.mgmtTxGo v) s = .next { s with mgmt := { m with busy := true, cur := (p.toNat, n.toNat, s.mgmt.txAddr.toNat * 64) } }))) ∧
  (∀ (s : State) (at_ : Word) (p n pa : Nat), s.mgmt.cur = (p, n, pa) →
    (s.mgmt.busy = false → exec (.mgmtTxDone at_) s = .next s) ∧
    (∀ f, s.mgmt.busy = true → inHbm s pa n = true → resolve s pa = .hbm f → pa % 4096 + n ≤ 4096 → 1 ≤ n → s.hbmErr = [] → (portGet s p).state = 2 → (∀ e ∈ (portGet s p).paused, e.1 ≠ 8) →
      ∃ t, exec (.mgmtTxDone at_) s = .next t ∧ t.mgmt.busy = false ∧ t.mgmt.txTs = at_ ∧ t.hbm = s.hbm ∧
        t.out = s.out ++ [.frame p ((List.range n).map fun k => tabGet 0 s.hbm (f + k))]) ∧
    (s.mgmt.busy = true → inHbm s pa n = false →
      ∃ t, exec (.mgmtTxDone at_) s = .next t ∧ t.mgmt.busy = false ∧ t.mgmt.txTs = 0 ∧ t.out = s.out ∧ ∃ e ∈ t.evq, e.type = 9 ∧ e.status = stOutOfBounds)) ∧
  (∀ s : State,
    (s.mgmt.ringEn = false → exec .mgmtRingEnable s = .next { s with mgmt := { s.mgmt with ringEn := true, head := 0, tail := 0 } }) ∧
    (s.mgmt.ringEn = true → exec .mgmtRingEnable s = .next s) ∧
    (s.pace.ringEn = false → exec .slipRingEnable s = .next { s with pace := { s.pace with ringEn := true, ringHead := 0, ringTail := 0, ringLost := 0 } }) ∧
    (s.pace.ringEn = true → exec .slipRingEnable s = .next s))

/-- Reads, programs and erases of the flash arrays that end, and a target that falls silent. With the NAND pads free: a read that decodes has the codeword's data, one that does not goes one step up the ladder, and past the last step it ends MEDIA_UNCORRECTABLE, the unit marked for refresh from the first step past the retries. A good program stores its codewords, enters a record and maps its logical unit to them, unless a newer write has moved a relocated unit; a failed one makes its unit retire-pending with DEVICE_ERROR, and is programmed on another LUN where one takes it. A good erase empties the unit, raises its erase count and frees it; a failed one retires it. TARGET_TIMEOUT marks the target failed, fails its reads, retires its units and takes them off the spares. Held pads, or nothing asked for, change nothing. (Derived: R400, R405, R406, R410, R411, R412, R415, R417, R418) -/
def Obligations.FlashCells : Prop :=
  (∀ (s : State) (loc : Word) (ok : Bool) (bits : Nat),
    let l := loc.toNat % 2 ^ 63
    let u := locUnit l
    let m := s.media
    let quiet := m.wbuf = [] ∧ (m.state = 2 → m.spareMin.toNat < m.spareLeft.toNat)
    (s.pwr.holdNand = true → exec (.nandReadDone loc ok bits) s = .next s ∧ exec (.nandProgramDone loc ok) s = .next s ∧ exec (.nandEraseDone loc ok) s = .next s) ∧
    ((∀ r ∈ m.reads, r.loc = l → r.result.isSome = true) → exec (.nandReadDone loc ok bits) s = .next s) ∧
    ((∀ p ∈ m.progs, p.loc ≠ l) → exec (.nandProgramDone loc ok) s = .next s) ∧
    (u ∉ m.erases → exec (.nandEraseDone loc ok) s = .next s) ∧
    (∀ r, s.pwr.holdNand = false → quiet → (m.reads.find? fun r => r.loc = l && r.result.isNone) = some r →
      ∃ t, ∃ x ∈ t.media.reads, exec (.nandReadDone loc ok bits) s = .next t ∧ x.loc = l ∧
        (∀ c, ok = true → kvGet m.nand l = some c → x.result = some (stOk, c.data)) ∧
        ((ok = false ∨ kvGet m.nand l = none) → r.step < m.retries + 2 → x.result = none ∧ x.step = r.step + 1) ∧
        ((ok = false ∨ kvGet m.nand l = none) → m.retries + 2 ≤ r.step → x.result = some (stMediaUnc, [])) ∧
        (m.state ≠ 3 → (m.retries + 1 ≤ r.step ∨ (ok = true ∧ (kvGet m.nand l).isSome = true ∧ m.refreshBits.toNat < bits)) → (euGet t.media u).refresh = true) ∧
        (∀ y ∈ m.reads, y.loc ≠ l → y ∈ t.media.reads) ∧ t.media.nand = m.nand ∧ t.media.mapUnits = m.mapUnits ∧ t.media.mapStrands = m.mapStrands ∧ t.hbm = s.hbm) ∧
    (∀ p, s.pwr.holdNand = false → quiet → (m.progs.find? fun p => p.loc = l) = some p →
      let x := (p.strand, p.num)
      let n := if p.strand then 64 else 1
      let cells := (List.range n).map fun i => locAt m u (locNum m l + i)
      (ok = true → cells.Nodup →
        ∃ t, exec (.nandProgramDone loc ok) s = .next t ∧ (∀ q ∈ t.media.progs, q.loc ≠ l) ∧ t.media.erases = m.erases ∧ t.hbm = s.hbm ∧
          (∀ i < n, ∃ c, kvGet t.media.nand (locAt m u (locNum m l + i)) = some c ∧ c.data = memSlice p.data (i * 4096) 4096 ∧ c.lba = (logicalLbas m x).1 + i) ∧
          (∀ a, a ∉ cells → kvGet t.media.nand a = kvGet m.nand a) ∧
          ((p.src = none ∨ mapGet m x = p.src) → mapGet t.media x = some l ∧ ∃ r ∈ t.media.log ++ t.media.logOpen, r.type = 1 ∧ r.logical = logLogical x ∧ r.new = l + 2 ^ 63) ∧
          (p.src ≠ none → mapGet m x ≠ p.src → mapGet t.media x = mapGet m x ∧ t.media.log = m.log) ∧
          (∀ y, y ≠ x → mapGet t.media y = mapGet m y)) ∧
      (ok = false →
        let s1 := nandError { s with media := euSet { m with progs := m.progs.filter fun q => q.loc ≠ l } u { euGet m u with st := .retirePending } } l
        (∃ e ∈ s1.evq, e.type = 9 ∧ e.detail = sub (locWord l) 0 16) ∧ (euGet s1.media u).st = .retirePending ∧
        (∀ m3, progStart s1.media x p.data p.src ((lunRotation s1.media).filter fun q => q ≠ locLun l) = some m3 →
          exec (.nandProgramDone loc ok) s = .next { s1 with media := m3 }))) ∧
    (s.pwr.holdNand = false → u ∈ m.erases → m.wbuf = [] → (m.state = 2 → m.spareMin.toNat + 1 < m.spareLeft.toNat) →
      (ok = true → ∃ t, exec (.nandEraseDone loc ok) s = .next t ∧ u ∉ t.media.erases ∧ euGet t.media u = { ec := (euGet m u).ec + 1 } ∧
        (∀ c ∈ t.media.nand, locUnit c.1 ≠ u) ∧ (∀ c ∈ m.nand, locUnit c.1 ≠ u → c ∈ t.media.nand) ∧ t.media.spareLeft = m.spareLeft ∧
        ∃ r ∈ t.media.log ++ t.media.logOpen, r.type = 3 ∧ r.aux = 0 ∧ r.logical = u + 2 ^ 63) ∧
      (ok = false → ∃ t, exec (.nandEraseDone loc ok) s = .next t ∧ u ∉ t.media.erases ∧ (euGet t.media u).st = .retired ∧ t.media.nand = m.nand ∧
        t.media.spareLeft.toNat = m.spareLeft.toNat - 1 ∧ (∃ e ∈ t.evq, e.type = 9 ∧ e.detail = sub (locWord u) 0 16) ∧
        ∃ r ∈ t.media.log ++ t.media.logOpen, r.type = 3 ∧ r.aux = 4 ∧ r.logical = u + 2 ^ 63))) ∧
  (∀ (s : State) (ch : Fin 64) (tgt : Fin 16),
    let k := 16 * ch.val + tgt.val
    let m := s.media
    ((k ∉ m.usable ∨ k ∈ m.dead) → exec (.targetTimeout ch tgt) s = .next s) ∧
    (k ∈ m.usable → k ∉ m.dead → m.wbuf = [] → (∀ p ∈ m.progs, locTarget p.loc ≠ k) →
      let units := ((List.range (m.luns.toNat + 1)).flatMap fun l => lunUnits m (ch.val + tgt.val * 64 + l * 1024)).filter fun u => (euGet m u).st ≠ .retired
      ∃ t, exec (.targetTimeout ch tgt) s = .next t ∧ t.media.dead = m.dead ++ [k] ∧ (∀ u ∈ units, (euGet t.media u).st = .retired) ∧
        t.media.spareLeft.toNat = m.spareLeft.toNat - units.length ∧ (∀ u ∈ t.media.erases, locTarget u ≠ k) ∧
        (∀ r ∈ t.media.reads, locTarget r.loc = k → r.result.isSome = true) ∧ t.media.nand = m.nand ∧ t.media.progs = m.progs ∧
        ∃ e ∈ t.evq, e.type = 9 ∧ e.detail = sub (locWord (ch.val + tgt.val * 64)) 0 16)) ∧
  (∀ (s : State) (ch : Fin 64), ∃ t, exec (.channelRetrain ch) s = .next t ∧ tabGet 0 t.media.trained ch.val = s.glob.tjMax ∧
    (∀ c, c ≠ ch.val → tabGet 0 t.media.trained c = tabGet 0 s.media.trained c) ∧ t = { s with media := { s.media with trained := t.media.trained } })

/-- LOG_FLUSH_TIMER, GC_COLLECT, MAP_CHECKPOINT, FORMAT, SPARE_MIN_WRITE and MEDIA_RECOVERY. LOG_FLUSH_TIMER makes the open records durable. A checkpoint, once the log has grown by 1 GiB, holds the map as it stands, and replaying it gives that map. GC_COLLECT begins at GC_LOW, takes a victim of the LUN that is closed or retire-pending, and ends at GC_HIGH. FORMAT of valid fields outside recovery, formatting and use clears map, log and data, gives every good unit one more erase, and sets the LBA counts and spares; it is refused otherwise. SPARE_MIN_WRITE of a valid value in READY takes effect, and the media turn READ_ONLY when the spares left do not exceed it. MEDIA_RECOVERY without a target fails; with an anchor and a checkpoint the media come up with the checkpoint's map and the log replayed. (Derived: R409, R411, R413, R414, R416, R417, R419, R420, R421, R423) -/
def Obligations.MapAndRecovery : Prop :=
  (∀ s : State,
    (∃ t, exec .logFlushTimer s = .next t ∧ t.media.log = s.media.log ++ s.media.logOpen ∧ t.media.logOpen = [] ∧ t.media.nand = s.media.nand ∧ t.hbm = s.hbm) ∧
    ((s.media.state ≠ 2 ∨ s.media.log.length - s.media.ckpt.start < 2 ^ 25) → exec .mapCheckpoint s = .next s) ∧
    (s.media.state = 2 → 2 ^ 25 ≤ s.media.log.length - s.media.ckpt.start →
      ∃ t, exec .mapCheckpoint s = .next t ∧ t.media.ckpt.units = s.media.mapUnits ∧ t.media.ckpt.strands = s.media.mapStrands ∧ t.media.ckpt.table = s.media.table ∧
        t.media.anchorSeq = s.media.anchorSeq + 1 ∧ t.media.logOpen = [] ∧ t.media.mapUnits = s.media.mapUnits ∧ t.media.mapStrands = s.media.mapStrands ∧
        t.media.prevCkpt.units = s.media.ckpt.units ∧
        (∃ r, t.media.log[t.media.ckpt.start]? = some r ∧ r.type = 6) ∧ t.media.log.length = t.media.ckpt.start + 1)) ∧
  (∀ (s : State) (lun : Nat),
    ((s.media.state ≠ 2 ∨ lun ∉ mediaLuns s.media) → exec (.gcCollect lun) s = .next s) ∧
    (s.media.state = 2 → lun ∈ mediaLuns s.media →
      (kvGet s.media.gc lun = none → s.media.gcLow.toNat < (lunFree s.media lun).length → exec (.gcCollect lun) s = .next s) ∧
      (kvGet s.media.gc lun = some none → s.media.gcHigh.toNat ≤ (lunFree s.media lun).length →
        ∃ t, exec (.gcCollect lun) s = .next t ∧ kvGet t.media.gc lun = none ∧ t.media.nand = s.media.nand ∧ t.media.table = s.media.table) ∧
      (∀ v, kvGet s.media.gc lun = none → (lunFree s.media lun).length ≤ s.media.gcLow.toNat → gcVictim s lun = some v →
        exec (.gcCollect lun) s = .next (gcStep { s with media := { s.media with gc := kvSet s.media.gc lun (some v) } } lun v)) ∧
      (∀ v, kvGet s.media.gc lun = some (some v) → exec (.gcCollect lun) s = .next (gcStep s lun v)) ∧
      (∀ v, v ∉ s.media.erases → unitLive s.media v = [] → (∀ p ∈ s.media.progs, locUnit p.loc ≠ v ∧ p.src.map locUnit ≠ some v) →
        (∀ r ∈ s.media.reads, r.result.isNone = true → locUnit r.loc ≠ v) → (euGet s.media v).st = .closed →
        let t := gcStep s lun v
        t.media.erases = s.media.erases ++ [v] ∧ t.media.logOpen = [] ∧
          ∃ r ∈ t.media.log, r.type = 4 ∧ r.aux = (euGet s.media v).ec + 1 ∧ r.logical = v + 2 ^ 63)) ∧
    (∀ v, gcVictim s lun = some v → v ∈ lunUnits s.media lun ∧ v ∉ s.media.erases ∧ ((euGet s.media v).st = .closed ∨ (euGet s.media v).st = .retirePending))) ∧
  (∀ (s : State) (v : Word),
    let perm := bitsAt v.toNat 0 4
    let op := bitsAt v.toNat 4 12
    let obj := bitsAt v.toNat 16 24
    let lay := layoutLbas s.media perm op
    let fine := 1 ≤ perm ∧ perm ≤ 10 ∧ op ≤ 500 ∧ 1 ≤ obj ∧ obj ≤ lay.2
    (v.getLsbD 63 = false → ∃ t, exec (.format v) s = .next t ∧ t.media.state = s.media.state ∧ t.media.nand = s.media.nand ∧
      (1 ≤ perm → perm ≤ 10 → t.media.metaPermil.toNat = perm) ∧ (op ≤ 500 → t.media.opPermil.toNat = op) ∧ (1 ≤ obj → obj ≤ lay.2 → t.media.objUnitsReg.toNat = obj)) ∧
    (v.getLsbD 63 = true → (s.media.state = 1 ∨ s.media.state = 5 ∨ storageBusy s = true ∨ (s.jobs.any fun j => !j.inputs.isEmpty) = true ∨ ¬ fine) →
      ∃ t, exec (.format v) s = .next t ∧ t.media.last = stFormatRefused ∧ t.media.state = s.media.state ∧ t.media.nand = s.media.nand ∧ t.media.mapUnits = s.media.mapUnits) ∧
    (v.getLsbD 63 = true → s.media.state ≠ 1 → s.media.state ≠ 5 → storageBusy s = false → (s.jobs.any fun j => !j.inputs.isEmpty) = false → fine →
      ∃ t, exec (.format v) s = .next t ∧ t.media.state = 5 ∧ t.media.nand = [] ∧ t.media.mapUnits = [] ∧ t.media.mapStrands = [] ∧ t.media.log = [] ∧ t.media.logOpen = [] ∧
        t.media.wbuf = [] ∧ t.media.progs = [] ∧ t.media.userLbas = lay.1 ∧ t.media.metaLbas = lay.2 ∧ t.media.objUnits = obj ∧ t.media.formatId = s.media.formatId + 1 ∧
        t.media.formatted = true ∧ t.media.spareLeft = t.media.spareInit ∧
        (∀ lun ∈ mediaLuns { s.media with dead := [] }, ∀ u ∈ lunUnits s.media lun, euGet t.media u = { ec := (euGet s.media u).ec + 1 }) ∧ t.hbm = s.hbm ∧ t.jobs = s.jobs)) ∧
  (∀ (s : State) (v : BitVec 32),
    ((s.media.state ≠ 2 ∨ v = 0 ∨ s.media.spareInit.toNat ≤ v.toNat) → exec (.spareMinWrite v) s = .next s) ∧
    (s.media.state = 2 → v ≠ 0 → v.toNat < s.media.spareInit.toNat →
      ∃ t, exec (.spareMinWrite v) s = .next t ∧ t.media.spareMin = v ∧ t.media.nand = s.media.nand ∧
        (t.media.state = 3 ↔ s.media.spareLeft.toNat ≤ v.toNat ∧ s.media.wbuf = [] ∧ ∀ p ∈ s.media.progs, p.src.isSome = true))) ∧
  (∀ (s : State) (r : MediaFound),
    ((s.media.state ≠ 1 ∧ s.media.state ≠ 5) ∨ s.pwr.holdNand = true ∨ s.pwr.stage.toNat < 7 ∨ s.pwr.asserted = true → exec (.mediaRecovery r) s = .next s) ∧
    ((s.media.state = 1 ∨ s.media.state = 5) → s.pwr.holdNand = false → 7 ≤ s.pwr.stage.toNat → s.pwr.asserted = false → s.host.latchedGo = [] →
      (r.targets = [] → ∃ t, exec (.mediaRecovery r) s = .next t ∧ t.media.state = 4 ∧ t.media.last = stMediaFailed) ∧
      (r.targets ≠ [] → s.media.state = 1 → s.media.formatted = false → r.erased = true → ∃ t, exec (.mediaRecovery r) s = .next t ∧ t.media.state = 0 ∧ t.media.last = stOk) ∧
      (r.targets ≠ [] → s.media.state = 1 → s.media.formatted = true → r.anchor = true → (r.newer = true ∨ r.older = true) →
        let img := if r.newer then s.media.ckpt else s.media.prevCkpt
        let rep := (s.media.log.drop img.start).foldl replayRec { s.media with mapUnits := img.units, mapStrands := img.strands }
        ∃ t, exec (.mediaRecovery r) s = .next t ∧ t.media.state = (if s.media.spareLeft ≤ s.media.spareMin then 3 else 2) ∧ t.media.last = stOk ∧
          t.media.mapUnits = rep.mapUnits ∧ t.media.mapStrands = rep.mapStrands ∧ t.media.ckpt.units = rep.mapUnits ∧ t.media.usable = r.targets ∧ t.media.wbuf = [] ∧
          (∀ u, (euGet t.media u).st ≠ .opened) ∧ t.media.mapBase + t.media.mapSize = max t.media.mapSize (Config.hbmSize / 2 ^ 30)) ∧
      (r.targets ≠ [] → s.media.state = 1 → s.media.formatted = true → (r.anchor = false ∨ (r.newer = false ∧ r.older = false)) →
        ∃ t, exec (.mediaRecovery r) s = .next t ∧ t.media.state = 4 ∧ t.media.last = stMediaFailed)))

/-- HI_DRV_ENABLE, TS_GO, completion, CRING_ENTRY_WRITE, HI_CRING_ENABLE, JOURNAL_MIRROR, SELF_TEST_YIELD and SELF_TEST_RESUME. HI_DRV is accepted exactly when ENABLE is written 1 with a version the device has, from bring-up step 8 on. A GO over a trained link to an ACCEPTED slot sets GO_IGNORED; with the host not accepted the slot is DONE with HOST_NOT_ENABLED and JSN 0; before the journal is up the GO is latched; else the command area is latched, the JSN is JNEXT, JNEXT rises, and the journal has the ACCEPTED entry, or outside PS0 the entry waits and the device wakes. A reserved opcode ends with OPCODE_INVALID. A completion stores results, DONE and, with CRING_EN, a 32-byte ring entry and HEAD plus 1, or the entry waits and FULL is set; the first waiting entry is written once there is room. EN 0 to 1 zeroes HEAD and TAIL and EN 0 discards what waits. The mirror takes the ring and the ceiling. A running self-test yields while other commands are outstanding and resumes without them. (Derived: R430, R432, R433, R434, R435, R443, R444, R446, R447, R448, R512) -/
def Obligations.HostInterface : Prop :=
  (∀ (s : State) (v : Word),
    ∃ t, exec (.hiDrvEnable v) s = .next t ∧ t.host.enable = v.getLsbD 16 ∧ t.host.drvMajor = fld v 0 8 ∧ t.host.drvMinor = fld v 8 8 ∧
      (t.host.accepted = true ↔ v.getLsbD 16 = true ∧ (fld v 0 8).toNat = 1 ∧ (fld v 8 8).toNat = 0 ∧ 7 ≤ s.pwr.stage.toNat ∧ s.pwr.failed = false ∧ s.pwr.asserted = false) ∧
      (t.host.accepted = true → t.host.activeMinor = 0) ∧ t.host.slots = s.host.slots ∧ t.host.journal = s.host.journal ∧ t.hbm = s.hbm) ∧
  (∀ (s : State) (slot : Fin 8192),
    let k := slot.val
    let x := slotGet s k
    let j := s.host.jnext.toNat
    let op := (tabGet 0 x.area 0).toNat
    let e := jrnEntry j k op 1 0 (memNat x.area 4 4) 0 (shake (memBytes x.area 0 64)) s.now.toNat 0
    (s.host.trained = false → exec (.tsGo slot) s = .next s) ∧
    (s.host.trained = true → x.state = 1 → exec (.tsGo slot) s = .next (slotSet s k { x with goIgnored := true })) ∧
    (s.host.trained = true → x.state ≠ 1 → s.host.accepted = false →
      ∃ t, exec (.tsGo slot) s = .next t ∧ (slotGet t k).state = 2 ∧ (slotGet t k).status = stHostNotEnabled ∧ (slotGet t k).jsn = 0 ∧
        t.host.jnext = s.host.jnext ∧ t.host.journal = s.host.journal ∧ ∀ i, i ≠ k → slotGet t i = slotGet s i) ∧
    (s.host.trained = true → x.state ≠ 1 → s.host.accepted = true → journalUp s = false →
      ∃ t, exec (.tsGo slot) s = .next t ∧ k ∈ t.host.latchedGo ∧ t.host.slots = s.host.slots ∧ t.host.jnext = s.host.jnext ∧ t.host.journal = s.host.journal) ∧
    (s.host.trained = true → x.state ≠ 1 → s.host.accepted = true → journalUp s = true →
      ∃ t, exec (.tsGo slot) s = .next t ∧ (slotGet t k).jsn = s.host.jnext ∧ (slotGet t k).latched = x.area ∧ (slotGet t k).area = x.area ∧ t.host.jnext = s.host.jnext + 1 ∧
        (∀ i, i ≠ k → slotGet t i = slotGet s i) ∧
        (inPs0 s = true → hostOp op = true → (slotGet t k).state = 1 ∧ kvGet t.host.journal (jrnPos j) = some e ∧ j ∈ t.host.unmirrored) ∧
        (inPs0 s = true → hostOp op = false → Ended t k stOpcodeInvalid 0 0 ∧
          ∃ e2, kvGet t.host.journal (jrnPos j) = some e2 ∧ subNat e2 0 8 = j ∧ subNat e2 8 2 = k ∧ subNat e2 0xB 1 = 2 ∧ subNat e2 0xC 2 = stOpcodeInvalid.toNat) ∧
        (inPs0 s = false → (slotGet t k).state = 1 ∧ (j, e) ∈ t.host.lateJournal ∧ t.host.journal = s.host.journal ∧ t.pwr.wakeSeen.getLsbD 0 = true))) ∧
  (∀ (s : State) (k : Nat) (st : Status) (r0 r1 : Word), (slotGet s k).state = 1 →
    let x := slotGet s k
    let c := cringGet s (areaNat x 2 1)
    let b := leBytes 8 x.jsn.toNat ++ leBytes 4 (areaNat x 4 4) ++ leBytes 2 k ++ leBytes 2 st.toNat ++ leBytes 8 r0.toNat ++ leBytes 8 r1.toNat
    let t := slotDone s k st r0 r1
    Ended t k st r0 r1 ∧ (∀ i, i ≠ k → slotGet t i = slotGet s i) ∧
    (bitOf (areaNat x 1 1) 0 = false ∨ c.en = false → t.host.crings = s.host.crings ∧ t.hostMem = s.hostMem) ∧
    (bitOf (areaNat x 1 1) 0 = true → c.en = true →
      ((cringFull c = true ∨ c.waiting ≠ []) → (cringGet t (areaNat x 2 1)).waiting = c.waiting ++ [b] ∧ (cringGet t (areaNat x 2 1)).full = true ∧ t.hostMem = s.hostMem) ∧
      (cringFull c = false → c.waiting = [] → (cringGet t (areaNat x 2 1)).head = c.head + 1 ∧
        memBytes t.hostMem (c.addr.toNat * 64 + 32 * (c.head.toNat % 2 ^ c.sizeLog2.toNat)) 32 = b ∧
        (c.sent = true → t.out = s.out) ∧
        (c.sent = false → bitOf (msixDword s (4 * c.vector.toNat + 3)) 0 = true → t.host.pba.getLsbD c.vector.toNat = true ∧ t.out = s.out) ∧
        (c.sent = false → bitOf (msixDword s (4 * c.vector.toNat + 3)) 0 = false → t.out.length = s.out.length + 1)))) ∧
  (∀ (s : State) (ring : Fin 64),
    let c := cringGet s ring.val
    ((c.waiting = [] ∨ cringFull c = true ∨ c.en = false) → exec (.cringEntryWrite ring) s = .next s) ∧
    (∀ e r, c.waiting = e :: r → cringFull c = false → c.en = true →
      ∃ t, exec (.cringEntryWrite ring) s = .next t ∧ (cringGet t ring.val).waiting = r ∧ (cringGet t ring.val).head = c.head + 1 ∧ (cringGet t ring.val).tail = c.tail ∧
        memBytes t.hostMem (c.addr.toNat * 64 + 32 * (c.head.toNat % 2 ^ c.sizeLog2.toNat)) e.length = e ∧ ∀ i, i ≠ ring.val → cringGet t i = cringGet s i)) ∧
  (∀ (s : State) (ring : Fin 64) (v : Word),
    let c := cringGet s ring.val
    ∃ t, exec (.hiCringEnable ring v) s = .next t ∧ (cringGet t ring.val).en = v.getLsbD 5 ∧ (cringGet t ring.val).vector = fld v 8 6 ∧
      (cringGet t ring.val).sizeLog2 = (if 4 ≤ (fld v 0 5).toNat ∧ (fld v 0 5).toNat ≤ 16 then fld v 0 5 else c.sizeLog2) ∧
      (v.getLsbD 5 = true → c.en = false → (cringGet t ring.val).head = 0 ∧ (cringGet t ring.val).tail = 0) ∧
      (v.getLsbD 5 = true → c.en = true → (cringGet t ring.val).head = c.head ∧ (cringGet t ring.val).tail = c.tail) ∧
      (v.getLsbD 5 = true → (cringGet t ring.val).waiting = c.waiting) ∧ (v.getLsbD 5 = false → (cringGet t ring.val).waiting = []) ∧
      (v.getLsbD 14 = true → (cringGet t ring.val).full = false) ∧ (∀ i, i ≠ ring.val → cringGet t i = cringGet s i) ∧ t.host.slots = s.host.slots ∧ t.hostMem = s.hostMem) ∧
  (∀ s : State,
    (mirrorOk s = false → exec .journalMirror s = .next s) ∧
    (mirrorOk s = true → ∃ t, exec .journalMirror s = .next t ∧ t.host.mirror = s.host.journal ∧ t.host.journal = s.host.journal ∧ t.host.ceiling = s.host.jnext + 2 ^ 20 ∧
      jMirror t = s.host.jnext.toNat - 1 ∧ t.host.jnext = s.host.jnext) ∧
    (s.host.test = none → exec .selfTestYield s = .next s ∧ exec .selfTestResume s = .next s) ∧
    (∀ x, s.host.test = some x →
      (testBusy s = true → (∃ t, exec .selfTestYield s = .next t ∧ t.host.test = some { x with yielded := true } ∧ t.host.slots = s.host.slots) ∧ exec .selfTestResume s = .next s) ∧
      (testBusy s = false → exec .selfTestYield s = .next s ∧ ∃ t, exec .selfTestResume s = .next t ∧ t.host.test = some { x with yielded := false } ∧ t.host.slots = s.host.slots)))

/-- READ, WRITE, FLUSH, TRIM, IDENTIFY, SELF_TEST and GET_LOG. A command that is not accepted with its opcode or whose device does not run commands waits; a bad field ends it with FIELD_INVALID and media outside READY and READ_ONLY with MEDIA_NOT_READY. READ waits for overlapping earlier commands and for flash, then gives the destination the contents of each LBA, or the status of the read. WRITE waits for room and puts each block into the write buffer, from which it reads back; with FUA it ends once durable. FLUSH ends once nothing written is outside flash. TRIM unmaps its units and strands and no others, and counts them. IDENTIFY gives its fields at their offsets. GET_LOG gives the items that fit. SELF_TEST starts, is refused while one runs, is aborted, and ends with its phase. LBAs beyond the user space give LBA_RANGE, writes and trims of READ_ONLY media MEDIA_FULL. A test's field limits for GET_LOG counts and the sizes of log items are the model's (log 33 and 8). (Derived: R407, R428, R433, R436, R437, R441, R442, R443, R448) -/
def Obligations.StorageCommands : Prop :=
  ∀ (s : State) (slot : Fin 8192) (failed : Option (BitVec 8)),
    let k := slot.val
    let x := slotGet s k
    let lba := areaNat x 8 8
    let n := areaNat x 0x10 8
    let d := areaNat x 0x18 8
    let len := areaNat x 0x20 8
    let plain := bitOf (areaNat x 1 1) 0 = false ∧ bitOf (areaNat x 1 1) 1 = false ∧ s.host.trained = true
    let fua := bitOf (areaNat x 1 1) 2
    let fine : Nat → Prop := fun op =>
      ((op = 1 ∨ op = 2) → 1 ≤ n ∧ n ≤ 4096 ∧ 4096 * n ≤ len) ∧ (op = 4 → 1 ≤ n ∧ n ≤ 2 ^ 32) ∧ (op = 5 → 4096 ≤ len) ∧ (op = 6 → lba ≤ 2) ∧
      (op = 7 → 1 ≤ areaNat x 0x28 8 ∧ areaNat x 0x28 8 ≤ 65536)
    let inDur : Nat → Bool := fun l => decide (lba ≤ l ∧ l < lba + n)
    (∀ r ∈ [(1, Instr.read slot), (2, .write slot), (3, .flush slot), (4, .trim slot), (5, .identify slot), (6, .selfTest slot failed), (7, .getLog slot)],
      (slotRuns s k r.1 = false → exec r.2 s = .next s) ∧
      (slotRuns s k r.1 = true → (slotFieldsOk s x = false ∨ ¬ fine r.1) → exec r.2 s = .next (slotDone s k stFieldInvalid 0 0)) ∧
      (Runs s k r.1 = true → fine r.1 → s.media.state ≠ 2 → s.media.state ≠ 3 → exec r.2 s = .next (slotDone s k stMediaNotReady 0 0))) ∧
    (mediaUp s = true →
      (Runs s k 1 = true → fine 1 →
        (s.media.userLbas < lba + n → exec (.read slot) s = .next (slotDone s k stLbaRange 0 0)) ∧
        (lba + n ≤ s.media.userLbas → storageWaits s x = true → exec (.read slot) s = .next s) ∧
        (lba + n ≤ s.media.userLbas → storageWaits s x = false →
          ((lbasFetch s (rangeFrom lba n)).1 = none → exec (.read slot) s = .next (lbasFetch s (rangeFrom lba n)).2) ∧
          (∀ data : Nat → Mem, plain → (∀ i < n, lbaFetch s (lba + i) = (some (stOk, data i), s) ∧ ∀ c ∈ data i, c.1 < 4096) →
            ∃ t, exec (.read slot) s = .next t ∧ Ended t k stOk (BitVec.ofNat 64 (4096 * n)) 0 ∧ t.hbm = s.hbm ∧
              (∀ i < n, ∀ b < 4096, tabGet 0 t.hostMem (d + (4096 * i + b)) = tabGet 0 (data i) b) ∧
              ∀ a, (a < d ∨ d + 4096 * n ≤ a) → tabGet 0 t.hostMem a = tabGet 0 s.hostMem a) ∧
          (∀ st m s1, lbasFetch s (rangeFrom lba n) = (some (st, m), s1) → st ≠ stOk →
            exec (.read slot) s = .next (slotDone (lbasDone s1 (rangeFrom lba n)) k st 0 0)))) ∧
      (Runs s k 2 = true → fine 2 → x.phase ≠ 1 →
        (s.media.state = 3 → exec (.write slot) s = .next (slotDone s k stMediaFull 0 0)) ∧
        (s.media.state = 2 → s.media.userLbas < lba + n → exec (.write slot) s = .next (slotDone s k stLbaRange 0 0)) ∧
        (s.media.state = 2 → lba + n ≤ s.media.userLbas →
          ((storageWaits s x = true ∨ wbufRoom s < n) → exec (.write slot) s = .next s) ∧
          (storageWaits s x = false → n ≤ wbufRoom s → bitOf (areaNat x 1 1) 1 = false → s.host.trained = false →
            exec (.write slot) s = .next (slotDone s k stDataAccess 0 0)) ∧
          (storageWaits s x = false → n ≤ wbufRoom s → plain →
            ∃ s1, (∀ i < n, ∃ m, lbaFetch s1 (lba + i) = (some (stOk, m), s1) ∧ ∀ b < 4096, tabGet 0 m b = tabGet 0 s.hostMem (d + (4096 * i + b))) ∧
              (∀ l, inDur l = false → (lbaFetch s1 l).1 = (lbaFetch s l).1) ∧ s1.media.mapUnits = s.media.mapUnits ∧ s1.media.mapStrands = s.media.mapStrands ∧
              s1.host = s.host ∧ s1.hostMem = s.hostMem ∧
              (fua = false → exec (.write slot) s = .next (slotDone (ftlPump s1) k stOk (BitVec.ofNat 64 (4096 * n)) 0)) ∧
              (fua = true →
                let s2 := slotSet (ftlPump s1) k { x with phase := 1 }
                ((durable s2 inDur).1 = false → exec (.write slot) s = .next s2) ∧
                ((durable s2 inDur).1 = true → exec (.write slot) s = .next (slotDone (durable s2 inDur).2 k stOk (BitVec.ofNat 64 (4096 * n)) 0)))))) ∧
      (Runs s k 2 = true → fine 2 → x.phase = 1 →
        ((durable s inDur).1 = false → exec (.write slot) s = .next s) ∧
        ((durable s inDur).1 = true → ∃ t, exec (.write slot) s = .next t ∧ Ended t k stOk (BitVec.ofNat 64 (4096 * n)) 0 ∧ (∀ w ∈ t.media.wbuf, inDur w.1 = false) ∧ t.media.logOpen = [])) ∧
      (Runs s k 3 = true →
        let waits := s.host.slots.any fun e =>
          e.2.state = 1 && e.2.phase ≠ 1 && decide (e.2.jsn.toNat < x.jsn.toNat) && (areaNat e.2 0 1 = 2 || areaNat e.2 0 1 = 4)
        ((waits = true ∨ s.pwr.holdNand = true ∨ s.media.wbuf ≠ [] ∨ ∃ p ∈ s.media.progs, p.src = none) → exec (.flush slot) s = .next s) ∧
        (waits = false → s.pwr.holdNand = false → s.media.wbuf = [] → (∀ p ∈ s.media.progs, p.src ≠ none) →
          ∃ t, exec (.flush slot) s = .next t ∧ Ended t k stOk 0 0 ∧ t.media.log = s.media.log ++ s.media.logOpen ∧ t.media.logOpen = [] ∧
            (mirrorOk s = true → t.host.mirror = s.host.journal))) ∧
      (Runs s k 4 = true → fine 4 →
        (s.media.state = 3 → exec (.trim slot) s = .next (slotDone s k stMediaFull 0 0)) ∧
        (s.media.state = 2 → s.media.userLbas < lba + n → exec (.trim slot) s = .next (slotDone s k stLbaRange 0 0)) ∧
        (s.media.state = 2 → lba + n ≤ s.media.userLbas → storageWaits s x = true → exec (.trim slot) s = .next s) ∧
        (s.media.state = 2 → lba + n ≤ s.media.userLbas → storageWaits s x = false →
          let set := trimSet s.media lba n
          let held : Bool × Nat → Bool := fun y => (mapGet s.media y).isSome || s.media.wbuf.any (fun w => lbaLogical s.media w.1 = y) ||
            s.media.progs.any fun p => p.strand = y.1 && p.num = y.2 && p.src.isNone
          ∃ t, exec (.trim slot) s = .next t ∧ Ended t k stOk (BitVec.ofNat 64 (set.filter held).length) 0 ∧ (∀ y ∈ set, mapGet t.media y = none) ∧
            (∀ y, y ∉ set → mapGet t.media y = mapGet s.media y) ∧ (∀ w, w ∈ t.media.wbuf ↔ w ∈ s.media.wbuf ∧ lbaLogical s.media w.1 ∉ set) ∧
            t.media.nand = s.media.nand ∧ t.hbm = s.hbm)) ∧
      (Runs s k 5 = true → fine 5 →
        (bitOf (areaNat x 1 1) 1 = false → s.host.trained = false → exec (.identify slot) s = .next (slotDone s k stDataAccess 0 0)) ∧
        (plain → ∃ t, exec (.identify slot) s = .next t ∧ Ended t k stOk 0 0 ∧ memBytes t.hostMem d 7 = ascii "SX-9600" ∧ memBytes t.hostMem (d + 0x10) 16 = sub s.glob.serial 0 16 ∧
          memNat t.hostMem (d + 0x20) 8 = s.sec.fwVersion.toNat ∧ memNat t.hostMem (d + 0x28) 8 = (hiCap s).toNat ∧ memNat t.hostMem (d + 0x30) 8 = isaver.toNat ∧
          memNat t.hostMem (d + 0x38) 8 = (mediaCap s.media).toNat ∧ memNat t.hostMem (d + 0x40) 8 = (mediaMeta s.media).toNat ∧
          memNat t.hostMem (d + 0x48) 8 = (mediaSpares s.media).toNat ∧ memNat t.hostMem (d + 0x50) 8 = (mediaStatus s.media).toNat ∧ memNat t.hostMem (d + 0x58) 8 = 4096 ∧
          (∀ i, (7 ≤ i ∧ i < 16) ∨ (0x60 ≤ i ∧ i < 4096) → tabGet 0 t.hostMem (d + i) = 0) ∧
          ∀ a, (a < d ∨ d + 4096 ≤ a) → tabGet 0 t.hostMem a = tabGet 0 s.hostMem a)) ∧
      (Runs s k 6 = true → fine 6 →
        (s.host.test = none → lba = 2 → exec (.selfTest slot failed) s = .next (slotDone s k stOk 0 0)) ∧
        (s.host.test = none → lba ≠ 2 → ∃ t y, exec (.selfTest slot failed) s = .next t ∧ t.host.test = some y ∧ y.slot = k ∧ y.kind = lba ∧ y.yielded = false ∧
          t.host.slots = s.host.slots ∧ ((∀ j ∈ s.jobs, j.units = []) → y.skipped = 0)) ∧
        (∀ y, s.host.test = some y → y.slot ≠ k →
          (lba ≠ 2 → exec (.selfTest slot failed) s = .next (slotDone s k stSelfTestBusy 0 0)) ∧
          (lba = 2 → ∃ t, exec (.selfTest slot failed) s = .next t ∧ Ended t k stOk 0 0 ∧ t.host.test = none ∧
            ((slotGet s y.slot).state = 1 → (slotGet t y.slot).state = 2 ∧ (slotGet t y.slot).status = stCommandAborted))) ∧
        (∀ y, s.host.test = some y → y.slot = k →
          (y.yielded = true → exec (.selfTest slot failed) s = .next s) ∧
          (y.yielded = false → failed = none → ∃ t, exec (.selfTest slot failed) s = .next t ∧ Ended t k stOk (put y.skipped 8) 0 ∧ t.host.test = none ∧
            t.host.testLog.length = min 16 (s.host.testLog.length + 1)) ∧
          (∀ p, y.yielded = false → failed = some p → 1 ≤ p.toNat → p.toNat ≤ 6 → (y.kind = 1 ∨ p.toNat ≠ 4) →
            ∃ t, exec (.selfTest slot failed) s = .next t ∧ (slotGet t k).state = 2 ∧ (slotGet t k).status = stSelfTestFailed ∧ fld (slotGet t k).result0 0 8 = p ∧
              fld (slotGet t k).result0 8 8 = y.skipped ∧ t.host.test = none))) ∧
      (Runs s k 7 = true → fine 7 →
        ((lba = 0 ∨ 5 ≤ lba) → exec (.getLog slot) s = .next (slotDone s k stFieldInvalid 0 0)) ∧
        (lba = 3 → 1 ≤ n → n + 2 ^ 20 < s.host.jnext.toNat → exec (.getLog slot) s = .next (slotDone s k stJournalRange 0 0)) ∧
        (lba = 3 → 1 ≤ n → s.host.jnext.toNat ≤ n + 2 ^ 20 → (∀ e ∈ s.host.journal, e.2.length = 64) → plain →
          let j := min (len / 64) (min (areaNat x 0x28 8) (s.host.jnext.toNat - n))
          ∃ t, exec (.getLog slot) s = .next t ∧ Ended t k stOk (BitVec.ofNat 64 (64 * j)) 0 ∧
            ∀ i < j, ∀ e, kvGet s.host.journal (jrnPos (n + i)) = some e → memBytes t.hostMem (d + 64 * i) 64 = e) ∧
        (∀ items, logItems s lba n (areaNat x 0x28 8) = (stOk, items) → plain →
          let b := (items.take (len / max 1 (items.headD []).length)).flatten
          ∃ t, exec (.getLog slot) s = .next t ∧ Ended t k stOk (BitVec.ofNat 64 b.length) 0 ∧ memBytes t.hostMem d b.length = b)))

/-- PROGRAM_LOAD, PROGRAM_UNLOAD, JOB_START, JOB_AGREEMENT, JOB_STOP, JOB_WAIT, CHECKPOINT, SPARE_REMAP, LOCKSTEP_PAIR, GROUP_JOIN and GROUP_LEAVE. A command that is not accepted with its opcode waits, and a bad field ends it with FIELD_INVALID. A binary whose header fails R114 is BINARY_UNSUPPORTED, one more than 256 PROGRAM_LIMIT; else it takes the first free index and the next generation, with its SHAKE256. Unloading frees it unless a job names it. A bad descriptor is JOB_DESC_INVALID; a start whose checks pass takes the job's number and runs, or waits for the agreement with other devices. JOB_STOP ends the job with COMMAND_ABORTED, or marks it for its next commit point; JOB_WAIT ends with the exit record; neither finds an unknown job. CHECKPOINT gives the complete image. SPARE_REMAP puts the tile on the spare and retires its old slot, or retires a spare that fails. Pairing begins, ends or is refused. Joining and leaving a group set the device's group. (Derived: R114, R433, R438, R439, R440, R480, R484, R489, R490, R493) -/
def Obligations.JobCommands : Prop :=
  (∀ (s : State) (slot : Fin 8192) (place param : BitVec 48) (l : List Launch) (ok : Bool),
    let k := slot.val
    let x := slotGet s k
    let a0 := areaNat x 8 8
    let a1 := areaNat x 0x10 8
    let a2 := areaNat x 0x28 8
    let d := areaNat x 0x18 8
    let len := areaNat x 0x20 8
    let plain := bitOf (areaNat x 1 1) 0 = false ∧ bitOf (areaNat x 1 1) 1 = false ∧ s.host.trained = true
    let ends : Instr → Status → Prop := fun c st => exec c s = .next (slotDone s k st 0 0)
    (∀ r ∈ [(0x20, Instr.programLoad slot place), (0x21, .programUnload slot), (0x22, .jobStart slot l param), (0x23, .jobStop slot), (0x24, .jobWait slot), (0x25, .checkpoint slot),
        (0x26, .spareRemap slot ok), (0x27, .lockstepPair slot), (0x28, .groupJoin slot), (0x29, .groupLeave slot)],
      (slotRuns s k r.1 = false → exec r.2 s = .next s) ∧ (slotRuns s k r.1 = true → slotFieldsOk s x = false → ends r.2 stFieldInvalid)) ∧
    (Runs s k 0x20 = true →
      ((len < 64 ∨ 2 ^ 28 < len) → ends (.programLoad slot place) stFieldInvalid) ∧
      (64 ≤ len → len ≤ 2 ^ 28 → inHbm s place.toNat len = true → plain →
        let b := memBytes s.hostMem d len
        (binaryOk b = false → ends (.programLoad slot place) stBinaryUnsupported) ∧
        (binaryOk b = true → (∀ i < 256, (kvGet s.host.programs i).any (·.loaded) = true) → ends (.programLoad slot place) stProgramLimit) ∧
        (∀ i, binaryOk b = true → i < 256 → (kvGet s.host.programs i).any (·.loaded) = false → (∀ h < i, (kvGet s.host.programs h).any (·.loaded) = true) →
          ∀ s1, physWrite s place.toNat len (memSlice s.hostMem d len) = (stOk, s1) → s1.host = s.host →
          ∃ t p, exec (.programLoad slot place) s = .next t ∧ kvGet t.host.programs i = some p ∧ p.loaded = true ∧ p.size = len ∧ p.place = place.toNat ∧ p.hash = shake b ∧
            p.gen = ((kvGet s.host.programs i).map (·.gen)).getD 0 + 1 ∧ p.profile.toNat = subNat b 8 8 ∧ p.entry.toNat = subNat b 0x10 8 ∧
            Ended t k stOk (BitVec.ofNat 64 (i + p.gen.toNat * 2 ^ 16)) (BitVec.ofNat 64 (subNat (shake b) 0 8)) ∧ t.hbm = s1.hbm ∧
            ∀ h, h ≠ i → kvGet t.host.programs h = kvGet s.host.programs h))) ∧
    (Runs s k 0x21 = true →
      (programGet s a0 = none → ends (.programUnload slot) stFieldInvalid) ∧
      (programGet s a0 ≠ none → (∃ j ∈ jobsAll s, a0 ∈ j.programs) → ends (.programUnload slot) stProgramInUse) ∧
      (programGet s a0 ≠ none → (∀ j ∈ jobsAll s, a0 ∉ j.programs) →
        ∃ t, exec (.programUnload slot) s = .next t ∧ Ended t k stOk 0 0 ∧ programGet t a0 = none ∧ ∀ h, h ≠ a0 % 2 ^ 16 → kvGet t.host.programs h = kvGet s.host.programs h)) ∧
    (Runs s k 0x22 = true →
      ((∃ y ∈ s.starting, y.slot = k) → exec (.jobStart slot l param) s = .next s) ∧
      ((∀ y ∈ s.starting, y.slot ≠ k) →
        ((len < 256 ∨ 2 ^ 26 < len) → ends (.jobStart slot l param) stJobDescInvalid) ∧
        (256 ≤ len → len ≤ 2 ^ 26 → plain →
          let b := memBytes s.hostMem d len
          let j := jobOfDesc s b
          let data := sub b (sectOff b 1) (sectSize b 1)
          let runnable := ∀ id ∈ j.programs, ∃ p, programGet s id = some p ∧ p.flags.getLsbD 0 = false
          (jobDescOk s b len = false → ends (.jobStart slot l param) stJobDescInvalid) ∧
          (jobDescOk s b len = true → ¬ runnable → ends (.jobStart slot l param) stBinaryUnsupported) ∧
          (∀ o s1, jobDescOk s b len = true → runnable → inputsCheck s j.inputs = (o, s1) →
            (o = none → exec (.jobStart slot l param) s = .next s1) ∧
            (∀ st ins, o = some (st, ins) → st ≠ stOk → exec (.jobStart slot l param) s = .next (slotDone s1 k st 0 0)) ∧
            (∀ ins, o = some (stOk, ins) → launchesOk s (jobLaunches b).length l param.toNat data.length = true →
              1 ≤ jobSamples { j with inputs := ins } → jobSamples { j with inputs := ins } < 2 ^ 48 →
              ((jobsAll s1).any (·.paced) = true ∨ (j.paced = true ∧ jobsAll s1 ≠ []) ∨ 64 ≤ (jobsAll s1).length → exec (.jobStart slot l param) s = .next (slotDone s1 k stDeviceBusy 0 0)) ∧
              ((∀ y ∈ jobsAll s1, y.paced = false) → j.paced = false → (jobsAll s1).length < 64 →
                (j.devices = 1 → ∃ s2, exec (.jobStart slot l param) s = .next (slotDone s2 k stOk (j.num.setWidth 64) 0)) ∧
                (j.devices ≠ 1 → ∃ t y, exec (.jobStart slot l param) s = .next t ∧ t.starting = s1.starting ++ [y] ∧ y.slot = k ∧ y.job.num = j.num ∧
                  y.job.fpB = shake (fpBInput s1 { j with inputs := ins } data) ∧ y.wrote = false ∧ t.jobs = s1.jobs ∧ t.host = s1.host)))))) ) ∧
    (Runs s k 0x23 = true →
      (1 < a1 → ends (.jobStop slot) stFieldInvalid) ∧
      (a1 ≤ 1 → jobArg s a0 = none → (∀ e, exitOf s a0 = some e → exec (.jobStop slot) s = .next (slotDone s k stOk e.firstNot 0)) ∧ (exitOf s a0 = none → ends (.jobStop slot) stJobNotFound)) ∧
      (∀ j, a1 ≤ 1 → jobArg s a0 = some j →
        (a1 = 0 → commitNext j ≠ none → ∃ t, exec (.jobStop slot) s = .next t ∧ (jobOf t j.num).any (·.stopAt) = true ∧ t.host = s.host ∧ t.tiles = s.tiles) ∧
        ((a1 = 1 ∨ commitNext j = none) →
          let u := jobEnd s j.num stCommandAborted
          jobOf u j.num = none ∧ ∃ e, exitOf u a0 = some e ∧ e.status = stCommandAborted ∧ exec (.jobStop slot) s = .next (slotDone u k stOk e.firstNot 0)))) ∧
    (Runs s k 0x24 = true →
      (jobArg s a0 ≠ none → exec (.jobWait slot) s = .next s) ∧
      (jobArg s a0 = none → (∀ e, exitOf s a0 = some e → ∃ t, exec (.jobWait slot) s = .next t ∧ Ended t k stOk (e.status.setWidth 64) e.delivered) ∧
        (exitOf s a0 = none → ends (.jobWait slot) stJobNotFound))) ∧
    (Runs s k 0x25 = true →
      (jobArg s a0 = none → exitOf s a0 = none → ends (.checkpoint slot) stJobNotFound) ∧
      ((jobArg s a0 ≠ none ∨ exitOf s a0 ≠ none) →
        let done := s.images.filter fun i => i.job.toNat = a0 && i.complete
        (done = [] → ∃ t, exec (.checkpoint slot) s = .next t ∧ (slotGet t k).state = 2) ∧
        (∀ i, done = [i] →
          (len < 0x80 + i.length → exec (.checkpoint slot) s = .next (slotDone s k stCheckpointSmall (BitVec.ofNat 64 (0x80 + i.length)) 0)) ∧
          (∀ m s1, 0x80 + i.length ≤ len → physRead s i.base (0x80 + i.length) = (stOk, m, s1) → s1.host = s.host → plain →
            ∃ t, exec (.checkpoint slot) s = .next t ∧ Ended t k stOk (BitVec.ofNat 64 (0x80 + i.length)) i.batch ∧ ∀ o < 0x80 + i.length, tabGet 0 t.hostMem (d + o) = tabGet 0 m o)))) ∧
    (Runs s k 0x26 = true → s.host.remap = none →
      ((768 ≤ a0 ∨ (a1 ≠ 0xFF ∧ 18 ≤ a1)) → ends (.spareRemap slot ok) stFieldInvalid) ∧
      (a0 < 768 → (a1 = 0xFF ∨ a1 < 18) →
        let u := unitGet s (tileUcb a0)
        let stuck := u.st = .running ∨ u.st = .resetting ∨ u.st = .quiescing ∨ u.busy = true
        let spares := sparesOf s (a0 / 16)
        (s.flt.busy = true → exec (.spareRemap slot ok) s = .next s) ∧
        (s.flt.busy = false → stuck → ends (.spareRemap slot ok) stRemapState) ∧
        (s.flt.busy = false → ¬ stuck → a1 = 0xFF → spares = [] → ends (.spareRemap slot ok) stNoFieldSpare) ∧
        (s.flt.busy = false → ¬ stuck → a1 ≠ 0xFF → a1 ∉ spares → ends (.spareRemap slot ok) stSlotNotSpare) ∧
        (∀ p, s.flt.busy = false → ¬ stuck → (if a1 = 0xFF then spares.head? = some p else a1 = p ∧ a1 ∈ spares) → slotOf s a0 ≠ p →
          let i := 18 * (a0 / 16) + p
          (ok = true → ∃ t, exec (.spareRemap slot ok) s = .next t ∧ Ended t k stOk (BitVec.ofNat 64 p) 0 ∧ slotOf t a0 = p ∧ backed t a0 = true ∧ slotStateOf t i = .mapped ∧
            (backed s a0 = true → slotStateOf t (slotIdx s a0) = .fieldRetired) ∧ (unitGet t (tileUcb a0)).st = (if u.st = .failed then .ready else u.st) ∧
            t.host.remap = none ∧ (∀ L, L ≠ a0 → slotOf t L = slotOf s L) ∧ ∀ off < 0x300000, tabGet 0 t.ts (tsAddr i off) = 0) ∧
          (ok = false → (a1 ≠ 0xFF ∨ spares = [p]) →
            ∃ t, exec (.spareRemap slot ok) s = .next t ∧ Ended t k stSpareTest 0 0 ∧ slotStateOf t i = .fieldRetired ∧ (unitGet t (tileUcb a0)).st = u.st ∧ slotOf t a0 = slotOf s a0 ∧
              t.host.remap = none)))) ∧
    (Runs s k 0x27 = true → x.phase ≠ 1 →
      ((1 < a2 ∨ (a2 = 1 ∧ 2 ^ 20 ≤ a1)) → ends (.lockstepPair slot) stFieldInvalid) ∧
      (a2 ≤ 1 → (a2 = 1 → a1 < 2 ^ 20) → jobArg s a0 = none → exitOf s a0 = none → ends (.lockstepPair slot) stJobNotFound) ∧
      (∀ j, jobArg s a0 = some j →
        (a2 = 0 → ∃ t, exec (.lockstepPair slot) s = .next t ∧ Ended t k stOk 0 0 ∧ (s.flt.lsJob = j.num → t.flt.lsState = 0) ∧ (s.flt.lsJob ≠ j.num → t.flt = s.flt)) ∧
        (a2 = 1 → a1 < 2 ^ 20 → (j.strict = false ∨ commitNext j = none ∨ s.flt.lsState ≠ 0 ∨ (qpGet s a1).state = .free) → ends (.lockstepPair slot) stLockstepInvalid) ∧
        (a2 = 1 → a1 < 2 ^ 20 → j.strict = true → commitNext j ≠ none → s.flt.lsState = 0 → (qpGet s a1).state ≠ .free → (qpGet s a1).transport.toNat < 2 →
          ∃ t, exec (.lockstepPair slot) s = .next t ∧ (slotGet t k).state = 1 ∧ t.flt.lsState = 1 ∧ t.flt.lsJob = j.num ∧ t.out = s.out ++ [.digest a1 lsKeyFpB 0 j.fpB]))) ∧
    (Runs s k 0x28 = true →
      ((254 < a0 ∨ 254 < a1) → ends (.groupJoin slot) stFieldInvalid) ∧
      (a0 ≤ 254 → a1 ≤ 254 → (a2 = 0 ∨ (bitOf a2 63 = true ∧ bitsAt a2 8 55 = 0 ∧ 2048 ≤ len)) →
        (jobsAll s ≠ [] → ends (.groupJoin slot) stDeviceBusy) ∧
        (jobsAll s = [] → s.devGroup ≠ 0xFF → ends (.groupJoin slot) stGroupInvalid) ∧
        (jobsAll s = [] → s.devGroup = 0xFF → (a2 = 0 ∨ plain) →
          ∃ t, exec (.groupJoin slot) s = .next t ∧ Ended t k stOk 0 0 ∧ t.devGroup.toNat = a0 ∧ t.devUnit.toNat = a1 ∧ (a2 = 0 → t.groups = s.groups) ∧
            (a2 ≠ 0 → ∃ g, groupGet t (a2 % 256) = some g ∧ g.g.toNat = a0 ∧
              g.children = ((List.range 256).map fun i => BitVec.ofNat 64 (memNat s.hostMem (d + 8 * i) 8)).takeWhile fun w => w ≠ 0)))) ∧
    (Runs s k 0x29 = true →
      (jobsAll s ≠ [] → ends (.groupLeave slot) stDeviceBusy) ∧
      (jobsAll s = [] → (s.devGroup = 0xFF ∨ s.devGroup.toNat ≠ a0) → ends (.groupLeave slot) stGroupInvalid) ∧
      (jobsAll s = [] → s.devGroup ≠ 0xFF → s.devGroup.toNat = a0 →
        ∃ t, exec (.groupLeave slot) s = .next t ∧ Ended t k stOk 0 0 ∧ t.devGroup = 0xFF ∧ t.devUnit = 0xFF ∧ ∀ g ∈ t.groups, g.2.g.toNat ≠ a0))) ∧
  (∀ (s : State) (slot : Fin 8192) (timeout : Bool),
    ((∀ y ∈ s.starting, y.slot ≠ slot.val) → exec (.jobAgreement slot timeout) s = .next s) ∧
    (∀ x, (s.starting.find? fun y => y.slot = slot.val) = some x → (slotGet s slot.val).state = 1 →
      (timeout = true → ∃ t, exec (.jobAgreement slot timeout) s = .next t ∧ Ended t slot.val stPeerUnreachable 0 0 ∧ (∀ y ∈ t.starting, y.slot ≠ slot.val) ∧ t.jobs = s.jobs) ∧
      (∀ i z m, timeout = false → x.job.self ≠ 0 → x.wrote = true → x.sink = some i → kvGet s.sinks i = some z → z.status = some stOk → z.data = m → memNat m 2 1 = 1 →
        (memNat m 0 2 ≠ 0 → ∃ t, exec (.jobAgreement slot timeout) s = .next t ∧ Ended t slot.val (BitVec.ofNat 16 (memNat m 0 2)) 0 0 ∧ (∀ y ∈ t.starting, y.slot ≠ slot.val) ∧ t.jobs = s.jobs) ∧
        (memNat m 0 2 = 0 → ∃ s2 r1, exec (.jobAgreement slot timeout) s = .next (slotDone s2 slot.val stOk (x.job.num.setWidth 64) r1)))))

/-- HBM_REFRESH, the LEHR rows, CANARY_TRIP, HEALTH_DECAY, MARGIN, the COMMIT rows, RECOVER and the LOCKSTEP rows. Refresh changes no state. A Lehr pass starts on a good range, else SCRUB_RANGE; GO while busy is ignored; it ends with SUCCESS and every sector, or SCRUB_ABORTED. A canary counts its cause, and at the limit marks the slot, counts once and raises CANARY_MARGIN. A health tick decays each mass and counts its hours. A fault command is read once, takes a JSN and an entry, and ends with a status; MARGIN reports its failing patterns, COMMIT_SET is kept for the job. A commit point that is due and drained writes its image, releases or begins its agreement, or is skipped with an event; a timeout is raised once. RECOVER is refused by its checks, else restores, and ends with its target. A digest that equals the partner's is done, one that differs sets DIVERGED, a missing one TIMED_OUT. How far an aborted pass came is a free value (log 4). (Derived: R452, R467, R468, R478, R480, R481, R487, R491, R492, R495, R499) -/
def Obligations.MemoryAndRecovery : Prop :=
  (∀ (s : State) (stack : Fin 24), exec (.hbmRefresh stack) s = .next s) ∧
  (∀ (s : State) (v : Word),
    let len := s.lehr.len.toNat
    let fine := len ≠ 0 ∧ len % 64 = 0 ∧ oneHbmRange (s.lehr.start.toNat * 64) len = true ∧ (fld v 8 5).toNat ≤ 20
    (s.lehr.busy = true → v.getLsbD 1 = false → ∃ t, exec (.lehrGo v) s = .next t ∧ t.lehr.goIgnored = true ∧ t.lehr.busy = true ∧ t.lehr.pass = s.lehr.pass) ∧
    (s.lehr.busy = false → ∃ t, exec (.lehrGo v) s = .next t ∧ t.lehr.writeback = v.getLsbD 2 ∧ t.lehr.ctrEn = v.getLsbD 63 ∧ t.lehr.ctr = fld v 32 17 ∧ t.lehr.corr = 0 ∧ t.lehr.unc = 0 ∧
      t.lehr.mism = 0 ∧ t.lehr.fails = [] ∧ t.lehr.sectors = 0 ∧ t.hbm = s.hbm ∧
      (fine → t.lehr.busy = true ∧ t.lehr.pass = (s.lehr.start.toNat * 64, len, (fld v 8 5).toNat)) ∧
      (¬ fine → t.lehr.busy = false ∧ t.lehr.status = stScrubRange))) ∧
  (∀ s : State,
    (s.lehr.busy = false → exec .lehrAbort s = .next s ∧ exec .lehrPassDone s = .next s) ∧
    (s.lehr.busy = true →
      (∃ t, exec .lehrAbort s = .next t ∧ t.lehr.busy = false ∧ t.lehr.status = stScrubAborted ∧ t.lehr.sectors.toNat ≤ lehrTotal s ∧ t.ctrs = s.ctrs) ∧
      (∃ t, exec .lehrPassDone s = .next t ∧ t.lehr.busy = false ∧ t.lehr.status = stOk ∧ t.lehr.sectors = BitVec.ofNat 40 (lehrTotal s) ∧
        (s.lehr.ctrEn = false → t.ctrs = s.ctrs) ∧ (s.lehr.ctrEn = true → ctrGet t s.lehr.ctr.toNat = ctrGet s s.lehr.ctr.toNat + 1) ∧
        (s.hbmErr = [] → t.hbm = s.hbm ∧ t.lehr.corr = s.lehr.corr ∧ t.lehr.unc = s.lehr.unc ∧ t.lehr.fails = s.lehr.fails)))) ∧
  (∀ (s : State) (tile : Fin 768) (path : Fin 4),
    let key := slotUcb (slotIdx s tile.val)
    let x := siliconGet s key
    let same := x.trSec = nowSec s
    let trips := if same then x.trips + 1 else 1
    let hit := s.flt.canaryLimit.toNat ≠ 0 ∧ ¬ (same ∧ x.trDone = true) ∧ s.flt.canaryLimit.toNat ≤ trips
    (backed s tile.val = false → exec (.canaryTrip tile path) s = .next s) ∧
    (backed s tile.val = true → ∃ t, exec (.canaryTrip tile path) s = .next t ∧ (siliconGet t key).trips = trips ∧
      (tabGet 0 (siliconGet t key).count (5 + path.val)).toNat = min 0xFFFF ((tabGet 0 x.count (5 + path.val)).toNat + 1) ∧ (∀ j, j ≠ key → siliconGet t j = siliconGet s j) ∧
      (¬ hit → t.flt = s.flt ∧ t.evq = s.evq ∧ tabGet 0 (siliconGet t key).count 12 = tabGet 0 x.count 12) ∧
      (hit → (slotIdx s tile.val < 864 → t.flt.suspect.getLsbD (slotIdx s tile.val) = true) ∧ (tabGet 0 (siliconGet t key).count 12).toNat = min 0xFFFF ((tabGet 0 x.count 12).toNat + 1) ∧
        ∃ e ∈ t.evq, e.type = 9 ∧ e.status = stCanary ∧ e.subject.toNat = tileUcb tile.val))) ∧
  (∀ s : State, ∃ t, exec .healthDecay s = .next t ∧ t.flt.hours = s.flt.hours + s.flt.tickH.toNat ∧
    ∀ key x, kvGet s.silicon key = some x →
      (siliconGet t key).mass = x.mass - x.mass / 2 ^ s.flt.decayShift.toNat ∧ (siliconGet t key).count = x.count ∧ (siliconGet t key).score = nextScore (siliconGet t key).mass x.score s.flt.hyst.toNat) ∧
  (∀ (s : State) (failed : BitVec 4),
    (∀ r ∈ [(1, Instr.commitSet, none), (2, .recover, none), (3, .margin failed, some failed)],
      (s.flt.busy = false → fltOp s ≠ r.1 → exec r.2.1 s = .next s) ∧ (s.flt.busy = false → fltOp s = r.1 → exec r.2.1 s = .next (fltRun (fltAccept s) r.2.2)) ∧
      (∀ b, s.flt.busy = true → s.flt.block = some b → (subNat b 0 1 ≠ r.1 ∨ s.host.remap ≠ none) → exec r.2.1 s = .next s)) ∧
    (let a := s.flt.cmdAddr.toNat * 128
      let j := s.host.jnext.toNat
      ∀ m s1, inHbm s a 128 = true → physRead s a 128 = (stOk, m, s1) → s1.host = s.host →
        let b := memBytes m 0 128
        let u := fltAccept s
        u.flt.busy = true ∧ u.flt.block = some b ∧ u.flt.jsn = j ∧ u.host.jnext = s.host.jnext + 1 ∧ j ∈ u.host.unmirrored ∧
          kvGet u.host.journal (jrnPos j) = some (jrnEntry j 0xFFFF ((0x40 + subNat b 0 1) % 256) 1 0 0 0 (shake b) s.now.toNat 0)) ∧
    (∀ b, s.flt.busy = true → s.flt.block = some b → s.host.remap = none →
      let j := subNat b 2 2
      let job := BitVec.ofNat 16 j
      let target := subNat b 8 8
      let slotNo := subNat b 4 4
      let tried := failed &&& BitVec.ofNat 4 (subNat b 8 8 / 2 ^ 8)
      let ends : Instr → Status → Nat → Prop := fun c st result => ∃ t, exec c s = .next t ∧ t.flt.busy = false ∧ t.flt.status = st ∧ t.flt.result = BitVec.ofNat 32 result
      (subNat b 0 1 = 3 →
        let fine := blkZero b 1 4 = true ∧ slotNo < 864 ∧ target % 16 ≠ 0 ∧ bitsAt target 4 4 = 0 ∧ target < 2 ^ 12 ∧ blkZero b 0x10 0x80 = true ∧ marginSlot s slotNo = true
        (¬ fine → ends (.margin failed) stFaultCommand 0) ∧
        (fine → tried = 0 → ends (.margin failed) stOk 0) ∧
        (fine → tried ≠ 0 → ends (.margin failed) stMarginFailed tried.toNat)) ∧
      (subNat b 0 1 = 1 →
        let n := subNat b 0x30 4
        let cap := subNat b 0x20 8
        let area := fun a => a % 4096 = 0 ∧ inHbm s a cap = true
        let fine := blkZero b 1 2 = true ∧ j ≠ 0xFFFF ∧ (∀ x ∈ jobsAll s, x.num.toNat ≠ j) ∧ slotNo ≤ 65536 ∧ blkZero b 8 0x10 = true ∧ area (subNat b 0x10 8) ∧ area (subNat b 0x18 8) ∧
          n ≤ 4096 ∧ blkZero b 0x34 0x80 = true ∧ (kvGet s.host.commits j ≠ none ∨ s.host.commits.length < 64)
        (¬ fine → ends .commitSet stFaultCommand 0) ∧
        (∀ m s1, fine → inHbm s (subNat b 0x28 8) (16 * n) = true → physRead s (subNat b 0x28 8) (16 * n) = (stOk, m, s1) → s1.host = s.host →
          (∀ i < n, memNat m (16 * i) 8 % 64 = 0 ∧ memNat m (16 * i + 8) 8 % 64 = 0 ∧ inHbm s (memNat m (16 * i) 8) (memNat m (16 * i + 8) 8) = true) →
          ∃ t c, exec .commitSet s = .next t ∧ t.flt.busy = false ∧ t.flt.status = stOk ∧ kvGet t.host.commits j = some c ∧ c.k = slotNo ∧ c.imgA = subNat b 0x10 8 ∧ c.imgB = subNat b 0x18 8 ∧
            c.cap = cap ∧ c.regions = (List.range n).map fun i => (memNat m (16 * i) 8, memNat m (16 * i + 8) 8))) ∧
      (subNat b 0 1 = 2 →
        let fine := blkZero b 1 2 = true ∧ blkZero b 4 8 = true ∧ blkZero b 0x10 0x80 = true
        let s0 : State := { s with flt := { s.flt with block := none } }
        (¬ fine → ends .recover stFaultCommand 0) ∧
        (fine → jobOf s job = none → ends .recover stRecoveryInvalid 0) ∧
        (∀ x, fine → jobOf s job = some x →
          ((x.strict = false ∨ x.commit = none ∨ ∃ c, x.commit = some c ∧ c.k = 0) → ends .recover stRecoveryUnsupported 0) ∧
          (∀ c, x.strict = true → x.commit = some c → c.k ≠ 0 →
            ((∀ i ∈ s.images, i.job = job → i.complete = true → i.batch.toNat ≠ target) → ends .recover stRecoveryInvalid 0) ∧
            (∀ i, (s.images.find? fun i => i.job = job && i.complete && i.batch.toNat = target) = some i →
              ((∃ L ∈ jobTiles x, backed s L = false ∨ (unitGet s (tileUcb L)).st = .failed) → ends .recover stRecoveryInvalid 0) ∧
              ((∀ L ∈ jobTiles x, backed s L = true ∧ (unitGet s (tileUcb L)).st ≠ .failed) →
                let s2 := jobUpd (recoverStop s0 x) job fun y => { y with epoch := y.epoch + 1, replay := some (BitVec.ofNat 64 target, jobHorizon s0 job, s.pace.tick.toNat), agree := none }
                let r := recoverRestore s2 { x with epoch := x.epoch + 1 } i c.regions
                (r.1 = false → ends .recover stRecoveryFailed 0) ∧
                (r.1 = true → jobOf r.2 job ≠ none → x.devices = 1 → ends .recover stOk target) ∧
                (r.1 = true → jobOf r.2 job ≠ none → x.devices ≠ 1 →
                  ∃ t y, exec .recover s = .next t ∧ jobOf t job = some y ∧ y.agree = some (BitVec.ofNat 64 target, 2, s.now, false))))))))) ∧
  (∀ (s : State) (job : BitVec 16) (b : Word),
    (jobOf s job = none → exec (.commitPoint job b) s = .next s ∧ exec (.commitAgreementRelease job) s = .next s ∧ exec (.commitTimeout job) s = .next s) ∧
    (∀ x, jobOf s job = some x →
      ((x.commit = none ∨ x.agree ≠ none ∨ commitNext x ≠ some b.toNat ∨ jobDrained s job b.toNat = false) → exec (.commitPoint job b) s = .next s) ∧
      (∀ c, x.commit = some c → x.agree = none → commitNext x = some b.toNat → jobDrained s job b.toNat = true → x.stopAt = false →
        (poolsHeld s (jobQuotas x) = true → ∃ t y, exec (.commitPoint job b) s = .next t ∧ jobOf t job = some y ∧ y.lastCommit = some b ∧ t.images = s.images ∧
          ∃ e ∈ t.evq, e.type = 9 ∧ e.status = stCommitHeld) ∧
        (∀ st w, poolsHeld s (jobQuotas x) = false → imageWrite s x c b.toNat = (st, w) → jobOf w job = some x →
          (st ≠ stOk → ∃ t y, exec (.commitPoint job b) s = .next t ∧ jobOf t job = some y ∧ y.lastCommit = some b ∧ t.images = w.images ∧ ∃ e ∈ t.evq, e.type = 9 ∧ e.status = st) ∧
          (st = stOk → (∃ i ∈ w.images, i.job = x.num ∧ i.batch = b ∧ i.complete = true) ∧
            (x.devices = 1 → ∃ t y, exec (.commitPoint job b) s = .next t ∧ jobOf t job = some y ∧ y.lastCommit = some b ∧ y.agree = none ∧ t.images = w.images) ∧
            (x.devices ≠ 1 → ∃ t y, exec (.commitPoint job b) s = .next t ∧ jobOf t job = some y ∧ y.agree = some (b, 1, s.now, false) ∧ y.lastCommit = x.lastCommit ∧ t.images = w.images)))) ∧
      (x.agree = none → exec (.commitAgreementRelease job) s = .next s ∧ exec (.commitTimeout job) s = .next s) ∧
      (∀ c kind since, x.agree = some (c, kind, since, true) → exec (.commitTimeout job) s = .next s) ∧
      (∀ c kind since, x.agree = some (c, kind, since, false) → ∃ t y, exec (.commitTimeout job) s = .next t ∧ jobOf t job = some y ∧ y.agree = some (c, kind, since, true) ∧
        ∃ e ∈ t.evq, e.type = 9 ∧ e.status = stCommitTimeout) ∧
      (∀ c kind since late i z m, x.agree = some (c, kind, since, late) → x.self ≠ 0 → x.agWrote = true → x.agSink = some i → kvGet s.sinks i = some z → z.status = some stOk → z.data = m →
        memBytes m 0 16 = agreeEntry x c kind →
        (kind = 1 → x.stopAt = false → ∃ t y, exec (.commitAgreementRelease job) s = .next t ∧ jobOf t job = some y ∧ y.lastCommit = some c ∧ y.agree = none) ∧
        (kind ≠ 1 → ∃ t, exec (.commitAgreementRelease job) s = .next t ∧ t.flt.busy = false ∧ t.flt.status = stOk ∧ t.flt.result = BitVec.ofNat 32 c.toNat)))) ∧
  (∀ (s : State) (key : Nat) (batch : Word) (dg : Bytes),
    (key = lsKeyFpB → s.flt.lsState ≠ 1 → exec (.lockstepDigest key batch dg) s = .next s) ∧
    (key = lsKeyFpB → s.flt.lsState = 1 →
      ((jobOf s s.flt.lsJob).any (fun j => j.fpB = dg) = true → ∃ t, exec (.lockstepDigest key batch dg) s = .next t ∧ t.flt.lsAgreed = true ∧ t.flt.lsState = 1) ∧
      ((jobOf s s.flt.lsJob).any (fun j => j.fpB = dg) = false → (slotGet s s.flt.lsSlot).state = 1 →
        ∃ t, exec (.lockstepDigest key batch dg) s = .next t ∧ t.flt.lsState = 0 ∧ Ended t s.flt.lsSlot stLockstepInvalid 0 0)) ∧
    (key ≠ lsKeyFpB → s.flt.lsState.toNat < 2 → exec (.lockstepDigest key batch dg) s = .next s) ∧
    (key ≠ lsKeyFpB → s.flt.lsState = 2 → (∀ p ∈ s.flt.peer, ∀ o ∈ s.flt.own, p.1 ≠ o.1) →
      ((∀ o ∈ s.flt.own, o.1 ≠ key) → ∃ t, exec (.lockstepDigest key batch dg) s = .next t ∧ t.flt.peer = s.flt.peer ++ [(key, batch, dg)] ∧ t.flt.own = s.flt.own ∧ t.flt.lsState = 2) ∧
      (∀ b0 d0, s.flt.own = [(key, b0, d0)] →
        (d0 = dg → ∃ t, exec (.lockstepDigest key batch dg) s = .next t ∧ t.flt.own = [] ∧ t.flt.lsState = 2) ∧
        (d0 ≠ dg → ∃ u, exec (.lockstepDigest key batch dg) s = .next (lsCheck u) ∧ u.flt.lsState = 3 ∧ u.flt.lsBatch = b0 ∧ u.flt.own = []))) ∧
    (s.flt.lsState = 2 → s.flt.own = [] → exec .lockstepTimeout s = .next s) ∧
    (∀ o, s.flt.lsState = 2 → s.flt.own = [o] → ∃ u, exec .lockstepTimeout s = .next (lsCheck u) ∧ u.flt.lsState = 4 ∧ u.flt.lsBatch = o.2.1))

/-- POWER_ON_RESET, RESET_IN_N_PULSE, BRING_UP, CLK_READY, FUSE_LOAD, CORE_VR_PG, GAFFER_BOOT, FILL_DONE, RUNTIME_LAUNCH and BRING_UP_FAILED. A cold reset, or any during a cold one in progress, clears the machine but for flash, firmware, records of the silicon and what stands outside; a warm reset keeps memory and programs, ends every accepted command with COMMAND_ABORTED, and loses jobs, tiles and engines. Bring-up goes on only from the step before: released, clocks with the pace tick 0, fuses (three bad loads end in FUSE_FAIL; revocations and minimum versions never fall), the core supply, the firmware of the active bank, or of the other with FALLBACK, or failure; the fill with every store of a slot in service zero, or HBM_TRAINING; the runtime, with units READY or FAILED. A failure stops bring-up with its step and status, and latched GOs end with HOST_NOT_ENABLED. How the fuse bytes give values and how firmware is launched are the model's operands. (Derived: R448, R463, R501, R503, R504, R505, R506, R507, R508, R509, R521, R522) -/
def Obligations.ResetAndBringUp : Prop :=
  (∀ (s : State) (cause : BitVec 2) (kind : Bool),
    let cold := fun (t : State) (source : BitVec 2) =>
      t.pwr.asserted = true ∧ t.pwr.warm = false ∧ t.pwr.source = source ∧ t.pwr.warmCount = 0 ∧ t.pwr.stage = 0 ∧ t.hbm = [] ∧ t.ts = [] ∧ t.tiles = [] ∧ t.jobs = [] ∧ t.qps = [] ∧ t.engines = [] ∧
      t.host.slots = [] ∧ t.host.accepted = false ∧ t.host.reload = true ∧ t.host.mirror = s.host.mirror ∧ t.host.ceilLog = s.host.ceilLog ∧ t.media.nand = s.media.nand ∧ t.media.log = s.media.log ∧
      t.silicon = s.silicon ∧ t.remaps = s.remaps ∧ t.flt.suspect = s.flt.suspect ∧ t.sec.images = s.sec.images ∧ t.sec.fwMin = s.sec.fwMin ∧ t.sec.revoked = s.sec.revoked ∧
      t.hostMem = s.hostMem ∧ t.pending = s.pending
    (2 ≤ cause.toNat → exec (.powerOnReset cause) s = .next s) ∧
    (cause.toNat < 2 → ∃ t, exec (.powerOnReset cause) s = .next t ∧ cold t cause) ∧
    ((kind = false ∨ (resetting s = true ∧ s.pwr.warm = false)) → ∃ t, exec (.resetInNPulse kind) s = .next t ∧ cold t 2) ∧
    (kind = true → (resetting s = false ∨ s.pwr.warm = true) →
      ∃ t, exec (.resetInNPulse kind) s = .next t ∧ t.pwr.asserted = true ∧ t.pwr.warm = true ∧ t.pwr.source = 2 ∧ t.pwr.warmCount.toNat = min 0xFFFF (s.pwr.warmCount.toNat + 1) ∧
        t.hbm = s.hbm ∧ t.ts = s.ts ∧ t.tiles = [] ∧ t.jobs = [] ∧ t.engines = [] ∧ t.streams = [] ∧ t.adds = [] ∧ t.host.programs = s.host.programs ∧ t.host.jnext = s.host.jnext ∧
        t.media.nand = s.media.nand ∧ t.media.state = 1 ∧ t.pending = s.pending ∧
        (∀ k, (slotGet s k).state = 1 → (slotGet t k).state = 2 ∧ (slotGet t k).status = stCommandAborted ∧ (slotGet t k).jsn = (slotGet s k).jsn) ∧
        (∀ k, (slotGet s k).state ≠ 1 → slotGet t k = slotGet s k) ∧
        (∀ e ∈ t.qps, e.2.state ≠ .ready ∧ e.2.state ≠ .connecting ∧ e.2.state ≠ .stalled ∧ e.2.state ≠ .draining))) ∧
  (∀ (s : State) (v : Bool) (f : Fuses) (st : Status),
    (s.pwr.asserted = false → exec .bringUp s = .next s) ∧
    (s.pwr.asserted = true → ∃ t, exec .bringUp s = .next t ∧ t.pwr.asserted = false ∧ t.pwr.pwrGood = true ∧ t.pwr.stage = 1 ∧ (∀ e ∈ t.ports, e.2.en = true → e.2.state = 1) ∧ t.hbm = s.hbm) ∧
    ((stageIs s 1 = false ∨ s.pwr.refclk = false) → exec .clkReady s = .next s) ∧
    (stageIs s 1 = true → s.pwr.refclk = true → ∃ t, exec .clkReady s = .next t ∧ t.pwr.stage = 2 ∧ t.pwr.clkReady = true ∧ t.pace.tick = 0 ∧ t.pace.running = true) ∧
    ((stageIs s 2 = false ∨ s.pwr.warm = true) → exec (.fuseLoad f) s = .next s) ∧
    (stageIs s 2 = true → s.pwr.warm = false →
      (fusesGood f = false → ∃ t, exec (.fuseLoad f) s = .next t ∧ t.pwr.fuseTries = s.pwr.fuseTries + 1 ∧ (t.pwr.fuseFail = true ↔ s.pwr.fuseTries = 2) ∧ t.pwr.stage = s.pwr.stage ∧
        t.glob = s.glob ∧ t.sec = s.sec) ∧
      (fusesGood f = true → ∃ t, exec (.fuseLoad f) s = .next t ∧ t.pwr.stage = 3 ∧ t.pwr.fuseOk = true ∧ t.glob.serial = f.serial ∧ t.glob.stepping = f.stepping ∧ t.glob.macBase = f.mac ∧
        t.glob.speedBin = f.speedBin ∧ t.sec.keyd = f.keyd ∧ t.sec.revoked = s.sec.revoked ||| f.revoked ∧ s.sec.fwMin.toNat ≤ t.sec.fwMin.toNat ∧ s.sec.rtMin.toNat ≤ t.sec.rtMin.toNat ∧
        (∀ L < 768, slotOf t L = (kvGet f.map L).getD (L % 16)))) ∧
    (∃ t, exec (.coreVrPg v) s = .next t ∧ t.pwr.coreVrPg = v ∧ t.pwr.stage = (if v = true ∧ stageIs s 3 = true then 4 else s.pwr.stage) ∧ t.hbm = s.hbm) ∧
    ((s.pwr.asserted = true ∨ s.pwr.failed = true ∨ s.pwr.fuseFail = true ∨ 8 ≤ s.pwr.stage.toNat) → exec (.bringUpFailed st) s = .next s) ∧
    (s.pwr.asserted = false → s.pwr.failed = false → s.pwr.fuseFail = false → s.pwr.stage.toNat < 8 →
      ∃ t, exec (.bringUpFailed st) s = .next t ∧ t.pwr.failed = true ∧ t.pwr.status = st ∧ t.pwr.stage.toNat = (if s.pwr.warm = true ∧ s.pwr.stage = 2 then 5 else s.pwr.stage.toNat + 1) ∧
        t.host.accepted = false ∧ t.host.latchedGo = [] ∧ (∀ k ∈ s.host.latchedGo, (slotGet t k).state = 2 ∧ (slotGet t k).status = stHostNotEnabled ∧ (slotGet t k).jsn = 0) ∧
        (∀ k, k ∉ s.host.latchedGo → slotGet t k = slotGet s k))) ∧
  (∀ (s : State) (ok : BitVec 24) (l : Launch),
    let at5 := if s.pwr.warm = true then stageIs s 2 else stageIs s 4
    let a := s.sec.active
    let r := imgCheck s 1 (bankImage s a 1)
    let r2 := imgCheck s 1 (bankImage s (!a) 1)
    let runs := fun (t : State) (bank fb : Bool) (why : Nat) =>
      t.pwr.stage = 5 ∧ t.pwr.failed = false ∧ t.sec.gaffer = true ∧ t.sec.booted = bank ∧ t.sec.fallback = fb ∧ t.sec.bootReason = BitVec.ofNat 8 why ∧
      t.sec.meas[1]? = some (shake (bankImage s bank 1)) ∧ t.sec.fwVersion = BitVec.ofNat 64 (subNat (bankImage s bank 1) 0x10 8)
    (at5 = false → exec .gafferBoot s = .next s) ∧
    (at5 = true → ∃ t, exec .gafferBoot s = .next t ∧
      (if r = 0 then runs t a false 0 else if r2 = 0 then runs t (!a) true r
        else t.pwr.failed = true ∧ t.pwr.stage = 5 ∧ t.sec.fallback = true ∧ t.sec.bootReason = BitVec.ofNat 8 r2 ∧ t.host.accepted = false)) ∧
    (stageIs s 5 = false → exec (.fillDone ok) s = .next s) ∧
    (stageIs s 5 = true →
      (s.pwr.warm = false → ok ≠ BitVec.allOnes 24 → ∃ t, exec (.fillDone ok) s = .next t ∧ t.pwr.failed = true ∧ t.pwr.stage = 6 ∧ t.pwr.status = stHbmTraining ∧ t.mem.stackOk = ok) ∧
      ((s.pwr.warm = true ∨ ok = BitVec.allOnes 24) → ∃ u, exec (.fillDone ok) s = .next (latchedTake u) ∧ u.pwr.stage = 7 ∧ u.mem.fillDone = true ∧
        u.pwr.holdNand = (s.pwr.holdNand && !s.pwr.autoNand) ∧ u.pwr.holdEth = (s.pwr.holdEth && !s.pwr.autoEth) ∧
        (s.pwr.warm = true → u.hbm = s.hbm) ∧ (s.pwr.warm = false → u.hbm = [] ∧ u.mem.locked = true) ∧
        ∀ i off, slotStateOf u i ≠ .factoryRetired → slotStateOf u i ≠ .fieldRetired → off < 0x400000 → tabGet 0 u.ts (tsAddr i off) = 0)) ∧
    (stageIs s 7 = false → exec (.runtimeLaunch l) s = .next s) ∧
    (stageIs s 7 = true →
      let b := bankImage s s.sec.booted 2
      let q := imgCheck s 2 b
      let base := l.area.toNat
      if q ≠ 0 then ∃ t, exec (.runtimeLaunch l) s = .next t ∧ t.pwr.failed = true ∧ t.pwr.stage = 8 ∧ t.sec.bootReason = BitVec.ofNat 8 q ∧ t.host.accepted = false
      else if base % 0x20000 = 0 ∧ inHbm s base 0x20000 = true then
        ∃ u, u.pwr.stage = 8 ∧ u.sec.runtime = true ∧ u.sec.rtVersion = BitVec.ofNat 64 (subNat b 0x10 8) ∧ u.hbm = s.hbm ∧
          (∀ v ∈ unitsUnder 0, (unitGet u v).st =
            if (unitGet s v).st = .resetting then (if 64 ≤ v ∧ backed s (v - 64) = false then .failed else .ready) else (unitGet s v).st) ∧
          exec (.runtimeLaunch l) s = .next (match (List.range 768).find? fun L => (unitGet u (tileUcb L)).st = .ready with
            | none => u
            | some L => launchAt (areaWrite u base (base + 65536) (ctxImage u L (runtimeCtx b l))).2 L base (base + 65536) (runtimeCtx b l))
      else exec (.runtimeLaunch l) s = .next s))

/-- POWER_STATE, the WAKE rows, REL_NAND, REL_ETH, OP_POINT_EVAL, PWR_VSET_WRITE, the THERMAL_TRIP and REFCLK rows, I3C_CAP_WRITE and I3C_WAKE. POWER_STATE of PS0 ends at once; of PS1 to PS3 it is refused while a job runs, waits for lower JSNs, then enters once nothing is in flight: PS1 at once, PS2 and PS3 once flash is durable, with the pads held and the clocks stopped, PS3 with contexts and stores saved and the core supply off. Wake sources that are enabled are seen outside PS0 and begin the wake, or leave it pending during an entry; the wake ends in PS0 with clocks on and the pads released that are automatic. The pads are released by REL_NAND and REL_ETH once the runtime runs. The operating point takes what the sensors give, steps the core voltage down past a cap or the target and up with room, and counts the throttle. Set points keep their value where the written one is out of range. The trip and its release raise DEVICE_ERROR once. The BMC cap takes values up to 3,000. (Derived: R436, R445, R446, R505, R513, R514, R515, R516, R518, R534, R536, R554) -/
def Obligations.PowerStates : Prop :=
  (∀ (s : State) (slot : Fin 8192),
    let k := slot.val
    let x := slotGet s k
    let tgt := areaNat x 8 8
    let ends := fun (st : Status) => exec (.powerState slot) s = .next (slotDone s k st 0 0)
    (¬ (s.pwr.entering = true ∧ s.pwr.psSlot = some k) →
      (slotRuns s k 8 = false → exec (.powerState slot) s = .next s) ∧
      (slotRuns s k 8 = true → (slotFieldsOk s x = false ∨ 3 < tgt) → ends stFieldInvalid) ∧
      (Runs s k 8 = true → tgt ≤ 3 → mediaUp s = false → ends stMediaNotReady) ∧
      (Runs s k 8 = true → mediaUp s = true →
        (tgt = 0 → ∃ t, exec (.powerState slot) s = .next t ∧ Ended t k stOk (BitVec.ofNat 64 (x.phase - 16)) 0 ∧ t.pwr = s.pwr) ∧
        (tgt = 3 → s.pwr.ret = 0 → ends stFieldInvalid) ∧
        (1 ≤ tgt → tgt ≤ 3 → (tgt = 3 → s.pwr.ret ≠ 0) →
          (jobsAll s ≠ [] → ends stDeviceBusy) ∧
          (jobsAll s = [] → lowerJsn s k = true → exec (.powerState slot) s = .next s) ∧
          (jobsAll s = [] → lowerJsn s k = false → exec (.powerState slot) s =
            exec (.powerState slot) { s with pwr := { s.pwr with target := BitVec.ofNat 2 tgt, entering := true, psSlot := some k } })))) ∧
    (s.pwr.entering = true → s.pwr.psSlot = some k → x.state = 1 →
      let d := psDurable s
      (psQuiet s = false → exec (.powerState slot) s = .next s) ∧
      (psQuiet s = true → s.pwr.target = 1 → ∃ t, exec (.powerState slot) s = .next t ∧ Ended t k stOk 0 0 ∧ t.pwr.state = 1 ∧ t.pwr.entering = false ∧ t.pwr.psSlot = none ∧
        t.pwr.entered = s.now ∧ t.pwr.holdNand = s.pwr.holdNand ∧ t.pwr.clkReady = s.pwr.clkReady ∧ t.pwr.wakeStep = (if s.pwr.wakePending = true then 1 else 0) ∧ t.hbm = s.hbm) ∧
      (psQuiet s = true → 2 ≤ s.pwr.target.toNat → d.1 = false → exec (.powerState slot) s = .next d.2) ∧
      (psQuiet s = true → s.pwr.target = 2 → d.1 = true → ∃ t, exec (.powerState slot) s = .next t ∧ Ended t k stOk 0 0 ∧ t.pwr.state = 2 ∧ t.pwr.entering = false ∧
        t.pwr.holdNand = true ∧ t.pwr.holdEth = true ∧ t.pwr.clkReady = false ∧ t.pace.running = false ∧ t.pwr.coreVrEn = s.pwr.coreVrEn ∧ t.ts = s.ts ∧
        (∀ p ∈ t.ports, p.2.en = true → p.2.state = 1)) ∧
      (psQuiet s = true → s.pwr.target = 3 → d.1 = true →
        let r := (List.range 768).foldl ps3SaveTile (stOk, psLatch d.2)
        (r.1 = stOk → ∃ u, exec (.powerState slot) s = .next (slotDone u k stOk 0 0) ∧ u.pwr.state = r.2.pwr.target ∧ u.pwr.entering = false ∧ u.hbm = r.2.hbm ∧ u.ts = [] ∧
          (∀ e ∈ u.tiles, e.2.hws = []) ∧ (r.2.pwr.target = 3 → u.pwr.coreVrEn = false ∧ u.pwr.ps3Saved = true)) ∧
        (r.1 ≠ stOk → exec (.powerState slot) s = .next (wakeUp (slotDone r.2 k r.1 0 0)))))) ∧
  (∀ (s : State) (src : BitVec 5),
    let in1 := (if s.pwr.entering then s.pwr.target else s.pwr.state).toNat = 1
    let seen := fun (b : Nat) => 1 ≤ b ∧ b ≤ 4 ∧ src.getLsbD b = true ∧ s.pwr.wakeEn.getLsbD (b - 1) = true ∧ (b = 3 → in1)
    (inPs0 s = true → exec (.wakeEvent src) s = .next s) ∧
    (inPs0 s = false → ∃ t, exec (.wakeEvent src) s = .next t ∧ (∀ b < 5, t.pwr.wakeSeen.getLsbD b = true ↔ s.pwr.wakeSeen.getLsbD b = true ∨ seen b) ∧
      (s.pwr.entering = true → (t.pwr.wakePending = true ↔ s.pwr.wakePending = true ∨ ∃ b < 5, seen b) ∧ t.pwr.wakeStep = s.pwr.wakeStep) ∧
      (s.pwr.entering = false → t.pwr.wakePending = s.pwr.wakePending ∧ ((∃ b < 5, seen b) → t.pwr.wakeStep = max 1 s.pwr.wakeStep) ∧ ((∀ b < 5, ¬ seen b) → t.pwr.wakeStep = s.pwr.wakeStep)) ∧
      t.pwr.state = s.pwr.state ∧ t.hbm = s.hbm ∧ t.host = s.host) ∧
    ((s.pwr.wakeTimer = 0 ∨ s.pwr.state = 0 ∨ s.pwr.wakeEn.getLsbD 3 = false) → exec .wakeTimer s = .next s) ∧
    (s.pwr.wakeTimer ≠ 0 → s.pwr.state ≠ 0 → s.pwr.wakeEn.getLsbD 3 = true → ∃ t, exec .wakeTimer s = .next t ∧ t.pwr.wakeSeen = s.pwr.wakeSeen ||| 16 ∧
      (s.pwr.entering = false → 1 ≤ t.pwr.wakeStep)) ∧
    ((s.pwr.fuseFail = true ∨ s.pwr.wakeEn.getLsbD 0 = false ∨ inPs0 s = true) → exec .i3cWake s = .next s) ∧
    (s.pwr.fuseFail = false → s.pwr.wakeEn.getLsbD 0 = true → inPs0 s = false → ∃ t, exec .i3cWake s = .next t ∧ t.pwr.wakeSeen = s.pwr.wakeSeen ||| 2)) ∧
  (∀ s : State,
    ((s.pwr.state = 0 ∨ s.pwr.wakeStep = 0) → exec .wake s = .next s) ∧
    (s.pwr.state ≠ 0 → s.pwr.wakeStep ≠ 0 →
      ∃ u : State, u.pwr.state = 0 ∧ u.pwr.entering = false ∧ u.pwr.wakeStep = 0 ∧ u.pwr.coreVrEn = true ∧ u.pwr.clkReady = s.pwr.refclk ∧ u.pace.running = true ∧ u.hbm = s.hbm ∧
        exec .wake s = .next (padsAuto (lateWrite (if s.pwr.ps3Saved then (List.range 768).foldl ps3RestoreTile u else u))) ∧
        (s.pwr.ps3Saved = false → ∃ t, exec .wake s = .next t ∧ t.pwr.state = 0 ∧ t.pwr.holdNand = (s.pwr.holdNand && !s.pwr.autoNand) ∧ t.host.lateJournal = [])) ∧
    (relOk s = false → exec .relNand s = .next s ∧ exec .relEth s = .next s) ∧
    (relOk s = true → (∃ t, exec .relNand s = .next t ∧ t.pwr.holdNand = false ∧ t.pwr.nandSafe = false ∧ t.pwr.holdEth = s.pwr.holdEth) ∧
      ∃ t, exec .relEth s = .next t ∧ t.pwr.holdEth = false ∧ t.pwr.holdNand = s.pwr.holdNand) ∧
    (∃ t, exec .refclkLoss s = .next t ∧ t.pwr.refclk = false ∧ t.pwr.clkReady = false ∧ t.evq = s.evq) ∧
    (s.pwr.refclk = true → exec .refclkReturn s = .next s) ∧
    (s.pwr.refclk = false → ∃ t, exec .refclkReturn s = .next t ∧ t.pwr.refclk = true ∧
      (t.pwr.clkReady = true ↔ 2 ≤ s.pwr.stage.toNat ∧ s.pwr.state.toNat < 2 ∧ s.pwr.asserted = false) ∧
      (s.sec.gaffer = false → t.evq = s.evq) ∧ (s.sec.gaffer = true → ∃ e ∈ t.evq, e.type = 9 ∧ e.detail = sub [3] 0 16))) ∧
  (∀ (s : State) (tj v : BitVec 16) (power : BitVec 12) (w : Word),
    let g := { s.glob with tjMax := tj, powerW := power }
    let set := (opPoint s).1
    let overCap := ∃ c, capInForce g = some c ∧ c < power.toNat
    let overT := (opPoint s).2 < tj.toInt
    let now := min s.glob.vcore.toNat set
    let down := (overCap ∨ overT) ∧ 550 < now
    let up := (∀ c, capInForce g = some c → 100 * power.toNat ≤ 98 * c) ∧ tj.toInt + 20 ≤ (opPoint s).2 ∧ now < set ∧ ¬ overT ∧ ¬ overCap
    ((s.pwr.asserted = true ∨ s.pwr.coreVrEn = false) → exec (.opPointEval tj power) s = .next s) ∧
    (s.pwr.asserted = false → s.pwr.coreVrEn = true → ∃ t, exec (.opPointEval tj power) s = .next t ∧ t.glob.tjMax = tj ∧ t.glob.powerW = power ∧ t.hbm = s.hbm ∧
      (down → t.glob.vcore = BitVec.ofNat 10 (max 550 (now - 5)) ∧ (tabGet 0 (siliconGet t 0).count 34).toNat = min 0xFFFF ((tabGet 0 (siliconGet s 0).count 34).toNat + 1)) ∧
      (¬ down → t.silicon = s.silicon ∧ (up → t.glob.vcore = BitVec.ofNat 10 (min set (now + 5))) ∧ (¬ up → t.glob.vcore = BitVec.ofNat 10 now)) ∧
      (t.glob.limit.getLsbD 0 = true ↔ overCap) ∧ (t.glob.limit.getLsbD 1 = true ↔ overT)) ∧
    (∃ t, exec (.pwrVsetWrite w) s = .next t ∧ t.glob.vset = (if 550 ≤ (fld w 0 10).toNat ∧ (fld w 0 10).toNat ≤ 850 then fld w 0 10 else s.glob.vset) ∧
      t.glob.target = (if 250 ≤ (fld w 16 11).toNat ∧ (fld w 16 11).toNat ≤ 1050 then fld w 16 11 else s.glob.target) ∧ t.pwr = s.pwr) ∧
    ((s.pwr.asserted = true ∨ s.glob.tripped = true ∨ tj.toInt < s.glob.trip.toInt) → exec (.thermalTrip tj) s = .next s) ∧
    (s.pwr.asserted = false → s.glob.tripped = false → s.glob.trip.toInt ≤ tj.toInt → ∃ t, exec (.thermalTrip tj) s = .next t ∧ t.glob.tripped = true ∧ t.glob.tjMax = tj ∧
      ∃ e ∈ t.evq, e.type = 9 ∧ e.detail = sub [1] 0 16) ∧
    ((s.pwr.asserted = true ∨ s.glob.tripped = false ∨ s.glob.trip.toInt - 100 < tj.toInt) → exec (.thermalTripRelease tj) s = .next s) ∧
    (s.pwr.asserted = false → s.glob.tripped = true → tj.toInt ≤ s.glob.trip.toInt - 100 → ∃ t, exec (.thermalTripRelease tj) s = .next t ∧ t.glob.tripped = false ∧ t.glob.tjMax = tj ∧
      ∃ e ∈ t.evq, e.type = 9 ∧ e.detail = sub [2] 0 16) ∧
    ((s.pwr.fuseFail = true ∨ 3000 < v.toNat) → exec (.i3cCapWrite v) s = .next s) ∧
    (s.pwr.fuseFail = false → v.toNat ≤ 3000 → ∃ t, exec (.i3cCapWrite v) s = .next t ∧ t.glob.bmcCapW.toNat = v.toNat ∧ t.glob.capW = s.glob.capW ∧ t.pwr = s.pwr))

/-- STAGE, ACTIVATE, COMMIT_SVN, REVOKE_KEY, ATTEST, the SPDM, IDE and session rows, REGISTER_WRITE, the HDM rows, CXL_LINK_TRAINING and PERST_N. A security command whose block reads runs and leaves its reason: an image is staged in the other bank, a bank is activated, the minimum versions rise to those booted, a key is revoked, a report is stored. An SPDM request is answered over a trained link while the firmware runs: the version restarts the connection, requests out of order get an ERROR, digests and certificate portions come from the chain, challenges and measurements end with a signature; sessions begin and end, and link keys come inside one. A register write by a device with its privilege, or by the host over BAR0, changes its register: a field out of range keeps its value, a W1C bit clears, a locked field holds, and a write of a command register is that command. The HDM window reads and writes memory, a failed read raises an event. The link trains with a width and rate it has. Message layouts and bytes the responder chooses are the model's (logs 6 and 44). (Derived: R6, R425, R427, R429, R431, R460, R477, R527, R528, R529, R530, R532) -/
def Obligations.SecurityAndRegisters : Prop :=
  (∀ (s : State) (ok : Bool),
    let a := s.sec.cmdAddr.toNat * 128
    let rows := [(1, Instr.stage ok), (2, .activate ok), (3, .commitSvn), (4, .attest), (5, .revokeKey)]
    (∀ r ∈ rows, (s.sec.busy = true ∨ s.sec.gaffer = false ∨ stageIs s 8 = false ∨ inHbm s a 128 = false ∨ (physRead s a 128).1 ≠ stOk) → exec r.2 s = .next s) ∧
    (∀ m s1, s.sec.busy = false → s.sec.gaffer = true → stageIs s 8 = true → inHbm s a 128 = true → physRead s a 128 = (stOk, m, s1) →
      let b := memBytes m 0 128
      let ends := fun (c : Instr) (reason result : Nat) => ∃ t, exec c s = .next t ∧ t.sec.busy = false ∧ t.sec.reason = BitVec.ofNat 8 reason ∧ t.sec.result = BitVec.ofNat 48 result ∧
        t.sec.active = s1.sec.active ∧ t.sec.images = s1.sec.images ∧ t.sec.fwMin = s1.sec.fwMin ∧ t.sec.revoked = s1.sec.revoked
      (∀ r ∈ rows, subNat b 0 1 ≠ r.1 → exec r.2 s = .next s) ∧
      (subNat b 0 1 = 1 →
        let p := subNat b 8 8
        let n := subNat b 0x10 8
        (inHbm s1 p n = false → ends (.stage ok) 6 0) ∧
        (inHbm s1 p n = true → 2 ^ 24 < n → ends (.stage ok) 1 0) ∧
        (∀ m2 s2, inHbm s1 p n = true → n ≤ 2 ^ 24 → physRead s1 p n = (stOk, m2, s2) →
          let img := memBytes m2 0 n
          let type := subNat img 4 1
          let c := if type = 1 ∨ type = 2 then imgCheck s2 type img else 1
          let k := 2 * b2n (!s1.sec.booted) + (type - 1)
          ∃ t, exec (.stage ok) s = .next t ∧ t.sec.active = s2.sec.active ∧ t.sec.reason = BitVec.ofNat 8 (if c ≠ 0 then c else if ok then 0 else 5) ∧
            (c ≠ 0 → t.sec.images = s2.sec.images) ∧ (c = 0 → kvGet t.sec.images k = (if ok then some img else none) ∧ ∀ i, i ≠ k → kvGet t.sec.images i = kvGet s2.sec.images i))) ∧
      (subNat b 0 1 = 2 →
        let o := !s1.sec.booted
        let good := imgCheck s1 1 (bankImage s1 o 1) = 0 ∧ imgCheck s1 2 (bankImage s1 o 2) = 0
        (ok = false → ends (.activate ok) 5 0) ∧
        (ok = true → ∃ t, exec (.activate ok) s = .next t ∧ t.sec.reason = (if good then 0 else 6) ∧ t.sec.active = (if good then o else s1.sec.active) ∧ t.sec.images = s1.sec.images)) ∧
      (subNat b 0 1 = 3 →
        ((s1.sec.booted ≠ s1.sec.active ∨ s1.sec.fallback = true) → ends .commitSvn 6 0) ∧
        (s1.sec.booted = s1.sec.active → s1.sec.fallback = false → ∃ t, exec .commitSvn s = .next t ∧ t.sec.reason = 0 ∧ t.sec.revoked = s1.sec.revoked ∧
          t.sec.fwMin = BitVec.ofNat 8 (max s1.sec.fwMin.toNat s1.sec.fwSvn.toNat) ∧ t.sec.rtMin = BitVec.ofNat 8 (max s1.sec.rtMin.toNat s1.sec.rtSvn.toNat))) ∧
      (subNat b 0 1 = 5 →
        let k := subNat b 4 4
        ((3 < k ∨ s1.sec.fwKey.toNat = k ∨ s1.sec.rtKey.toNat = k) → ends .revokeKey 6 0) ∧
        (k ≤ 3 → s1.sec.fwKey.toNat ≠ k → s1.sec.rtKey.toNat ≠ k → ∃ t, exec .revokeKey s = .next t ∧ t.sec.reason = 0 ∧ t.sec.revoked.getLsbD k = true ∧
          ∀ i, i ≠ k → t.sec.revoked.getLsbD i = s1.sec.revoked.getLsbD i)) ∧
      (subNat b 0 1 = 4 →
        let j := BitVec.ofNat 16 (subNat b 2 2)
        (attJob s1 j = none → ends .attest 8 0) ∧
        (∀ x, attJob s1 j = some x →
          let n := attLen x
          (subNat b 0x10 8 < n → ends .attest 7 n) ∧
          (n ≤ subNat b 0x10 8 → inHbm s1 (subNat b 8 8) n = false → ends .attest 6 0) ∧
          (n ≤ subNat b 0x10 8 → inHbm s1 (subNat b 8 8) n = true →
            let r := attReport s1 j (sub b 0x20 32) x
            let w := physPut r.2 (subNat b 8 8) r.1
            r.1.take (attBody s1 j (sub b 0x20 32) x).length = attBody s1 j (sub b 0x20 32) x ∧ r.2.sec.spdm.signs = s1.sec.spdm.signs + 1 ∧
              ∃ t, exec .attest s = .next t ∧ t.hbm = w.2.hbm ∧ t.sec.reason = (if w.1 = stOk then 0 else 6) ∧ t.sec.result = (if w.1 = stOk then BitVec.ofNat 48 n else 0)))))) ∧
  (∀ (s : State) (m : Bytes),
    let x := s.sec.spdm
    let heard := fun (code : Byte) => s.host.trained = true ∧ s.sec.gaffer = true ∧ m.getD 1 0 = code ∧ 4 ≤ m.length
    let answers := fun (c : Instr) (b : Bytes) (p : Spdm → Prop) => ∃ t, exec c s = .next t ∧ t.out = s.out ++ [.doe b] ∧ t.sec.spdm.replies = x.replies + 1 ∧ p t.sec.spdm ∧ t.hbm = s.hbm
    (∀ r ∈ [((0x84 : Byte), 0, Instr.getVersion m), (0xE1, 1, .getCapabilities m), (0xE3, 2, .negotiateAlgorithms m), (0x81, 3, .getDigests m), (0x82, 3, .getCertificate m), (0x83, 3, .challenge m),
        (0xE0, 3, .getMeasurements m)],
      (¬ heard r.1 → exec r.2.2 s = .next s) ∧ (heard r.1 → x.phase < r.2.1 → answers r.2.2 [0x13, 0x7F, 0x04, 0] fun y => y.phase = x.phase)) ∧
    (heard 0x84 → answers (.getVersion m) [0x10, 0x04, 0, 0, 0, 1, 0x00, 0x13] fun y => y.phase = 1 ∧ y.session = false ∧ y.kex = false ∧ y.mb = [] ∧ y.meas = []) ∧
    (heard 0xE1 → 1 ≤ x.phase → ∃ r, r.length = 16 ∧ answers (.getCapabilities m) ([0x13, 0x61, 0, 0] ++ r) fun y => y.phase = 2) ∧
    (heard 0xE3 → 2 ≤ x.phase → ∃ r, r.length = 34 ∧ answers (.negotiateAlgorithms m) ([0x13, 0x63] ++ r) fun y => y.phase = 3) ∧
    (heard 0x81 → 3 ≤ x.phase → answers (.getDigests m) ([0x13, 0x01, 0, 1] ++ shake s.sec.chain) fun y => y.phase = x.phase) ∧
    (heard 0x82 → 3 ≤ x.phase →
      let off := subNat m 4 2
      let n := min (subNat m 6 2) (s.sec.chain.length - off)
      ((m.getD 2 0 ≠ 0 ∨ m.length < 8 ∨ s.sec.chain.length < off) → answers (.getCertificate m) [0x13, 0x7F, 0x01, 0] fun y => y.mb = x.mb) ∧
      (m.getD 2 0 = 0 → 8 ≤ m.length → off ≤ s.sec.chain.length →
        answers (.getCertificate m) ([0x13, 0x02, 0, 0] ++ leBytes 2 n ++ leBytes 2 (min 0xFFFF (s.sec.chain.length - off - n)) ++ (s.sec.chain.drop off).take n) fun y => y.phase = x.phase)) ∧
    (heard 0x83 → 3 ≤ x.phase →
      ((m.getD 2 0 ≠ 0 ∨ m.length < 44) → answers (.challenge m) [0x13, 0x7F, 0x01, 0] fun y => y.signs = x.signs) ∧
      (m.getD 2 0 = 0 → 44 ≤ m.length → ∃ r, answers (.challenge m) ([0x13, 0x03, 0, 1] ++ shake s.sec.chain ++ r) fun y => y.signs = x.signs + 1 ∧ y.mb = [])) ∧
    (heard 0xE0 → 3 ≤ x.phase →
      let sign := bitOf (m.getD 2 0).toNat 0
      let k := (m.getD 3 0).toNat
      let one := fun i => measBlock i (BitVec.ofNat 8 (min i 1)) (s.sec.meas.getD i (zeros 32))
      let gives := fun (bs : List Bytes) => ∃ r, answers (.getMeasurements m) ([0x13, 0x60, 0, 0, BitVec.ofNat 8 bs.length] ++ leBytes 3 bs.flatten.length ++ bs.flatten ++ r) fun y =>
        y.signs = x.signs + (if sign then 1 else 0) ∧ (sign = true → y.meas = [])
      (k < 4 → gives [one k]) ∧ (k = 0xFF → gives [one 0, one 1, one 2, one 3]) ∧
      (4 ≤ k → k < 0x80 → answers (.getMeasurements m) [0x13, 0x7F, 0x01, 0] fun y => y.meas = x.meas) ∧
      (0x80 ≤ k → k < 0xFF → attJob s (BitVec.ofNat 16 (k - 0x80)) = none → answers (.getMeasurements m) [0x13, 0x7F, 0x01, 0] fun y => y.meas = x.meas)) ∧
    (heard 0xE4 → 3 ≤ x.phase → ∃ r, answers (.secureSession m) ([0x13, 0x64] ++ r) fun y => y.kex = true ∧ y.session = x.session) ∧
    (heard 0xE5 → 3 ≤ x.phase →
      (x.kex = true → answers (.secureSession m) [0x13, 0x65, 0, 0] fun y => y.kex = false ∧ y.session = true) ∧ (x.kex = false → answers (.secureSession m) [0x13, 0x7F, 0x04, 0] fun y => y.session = x.session)) ∧
    (heard 0xEC → 3 ≤ x.phase →
      (x.session = true → answers (.secureSession m) [0x13, 0x6C, 0, 0] fun y => y.session = false) ∧ (x.session = false → answers (.secureSession m) [0x13, 0x7F, 0x04, 0] fun y => y.session = false)) ∧
    ((heard 0xE4 ∨ heard 0xE5 ∨ heard 0xEC) → x.phase < 3 → answers (.secureSession m) [0x13, 0x7F, 0x04, 0] fun y => y.kex = x.kex ∧ y.session = x.session) ∧
    (¬ heard 0xE4 → ¬ heard 0xE5 → ¬ heard 0xEC → exec (.secureSession m) s = .next s) ∧
    (s.host.trained = true → s.sec.gaffer = true → x.session = true → ∃ r, r.length = 8 ∧ answers (.ideKm m) r fun y => y.ide = x.ide ++ [m]) ∧
    ((s.host.trained = false ∨ s.sec.gaffer = false ∨ x.session = false) → exec (.ideKm m) s = .next s)) ∧
  (∀ (s : State) (pa v : Word) (priv : BitVec 2),
    let put := exec (.registerWrite pa v priv) s
    let o := bitsAt pa.toNat 0 22
    let n := if pa.getLsbD 62 then 4 else 8
    (pa.getLsbD 63 = true →
      ((s.host.trained = false ∨ o % n ≠ 0) → put = .next s) ∧
      (s.host.trained = true → o = 8 → n = 8 → put = exec (.hiDrvEnable v) s) ∧
      (∀ k : Fin 8192, ∀ off < 0x80, s.host.trained = true → o = 0x100000 + 0x80 * k.val + off → off % n = 0 →
        (off = 0x78 → v.getLsbD 0 = true → put = exec (.tsGo k) s) ∧
        (off < 0x40 → (slotGet s k.val).state = 1 → put = .next (slotSet s k.val { slotGet s k.val with wrIgnored := true })) ∧
        (off < 0x40 → (slotGet s k.val).state ≠ 1 → ∃ t, put = .next t ∧ memBytes (slotGet t k.val).area off n = leBytes n v.toNat ∧ (slotGet t k.val).state = (slotGet s k.val).state ∧
          (∀ i, i < off ∨ off + n ≤ i → tabGet 0 (slotGet t k.val).area i = tabGet 0 (slotGet s k.val).area i) ∧ ∀ i, i ≠ k.val → slotGet t i = slotGet s i))) ∧
    (∀ blk off, pa.getLsbD 63 = false → resolve s pa.toNat = .reg blk off →
      ((priv = 0 ∨ (priv = 1 ∧ regNoWrite blk off = true)) → put = .next s) ∧
      (priv ≠ 0 → (priv = 1 → regNoWrite blk off = false) →
        (blk = 0 → off = 0x040 → ∃ t, put = .next t ∧ t.glob.capW = (if (fld v 0 12).toNat ≤ 3000 then fld v 0 12 else s.glob.capW) ∧ t.glob.bmcCapW = s.glob.bmcCapW ∧ t.pwr = s.pwr) ∧
        (blk = 0 → off = 0x048 → put = exec (.pwrVsetWrite v) s) ∧
        (blk = 0 → off = 0x080 → ∃ t, put = .next t ∧ ∀ i < 11, t.glob.evtSeen.getLsbD i = (s.glob.evtSeen.getLsbD i && !v.getLsbD (i + 1))) ∧
        (blk = 2 → off = 0x000 → ∃ t, put = .next t ∧
          t.pace.mult = (if s.pace.lock = false ∧ 8 ≤ (fld v 0 6).toNat ∧ (fld v 0 6).toNat ≤ 24 then fld v 0 6 else s.pace.mult)) ∧
        (blk = 3 → off = 0x018 → ∃ t, put = .next t ∧ t.xp.cmdAddr = fld v 7 41 ∧ t.qps = s.qps) ∧
        (blk = 6 → off = 0x028 → put = exec (.format v) s) ∧
        (blk = 7 → off = 0x1010 → v.getLsbD 0 = true → put = exec (.lehrGo v) s) ∧
        (blk = 8 → off = 0x1C0 → ∃ t, put = .next t ∧ t.flt.canaryLimit = fld v 0 16) ∧
        (blk = 9 → off = 0x040 → put = exec (.blkReset v) s) ∧
        (blk = 9 → off = 0x028 → ∃ t, put = .next t ∧ ∀ i < 5, t.pwr.wakeSeen.getLsbD i = (s.pwr.wakeSeen.getLsbD i && !v.getLsbD i)) ∧
        (blk = 11 → off = 0x008 → put = exec (.ptpStep v) s) ∧
        ((off % 8 ≠ 0 ∨ 12 ≤ blk) → put = .next s))) ∧
    (∀ u off, pa.getLsbD 63 = false → resolve s pa.toNat = .ucb u off → u < 4096 →
      (priv = 0 → put = .next s) ∧
      (priv ≠ 0 → off = 0x020 → (fld v 0 8).toNat = 1 → put = exec (.quiesce (BitVec.ofNat 12 u) (fld v 16 16)) s) ∧
      (priv ≠ 0 → off = 0x188 → u < 2048 → put = exec (.ucbTroubleClr (BitVec.ofNat 12 u) v 0) s))) ∧
  (∀ (s : State) (a : Word) (b : Bytes) (len : Nat),
    let open_ := fun (n : Nat) => s.host.trained = true ∧ s.host.linkCxl = true ∧ s.host.hdmLocked = true ∧ a.toNat + n ≤ s.host.hdmSize.toNat * 2 ^ 30
    let p := hdmBase s * 2 ^ 30 + a.toNat
    (¬ open_ b.length → exec (.hdmAccess a (some b) len) s = .next s) ∧ (¬ open_ len → exec (.hdmAccess a none len) s = .next s) ∧
    (∀ st w, open_ b.length → physPut s p b = (st, w) → ∃ t, exec (.hdmAccess a (some b) len) s = .next t ∧ t.hbm = w.hbm ∧ t.out = w.out ++ [.host (st = stOk) []]) ∧
    (∀ st m w, open_ len → physRead s p len = (st, m, w) →
      (st = stOk → ∃ t, exec (.hdmAccess a none len) s = .next t ∧ t.hbm = w.hbm ∧ t.out = w.out ++ [.host true (memBytes m 0 len)]) ∧
      (st ≠ stOk → ∃ t, exec (.hdmAccess a none len) s = .next t ∧ t.hbm = w.hbm ∧ t.out = w.out ++ [.host false []] ∧ ∃ e ∈ t.evq, e.type = 9 ∧ e.status = st))) ∧
  (∀ (s : State) (up cxl : Bool) (lanes : BitVec 5) (gtps : BitVec 8),
    ((s.host.trained = false ∨ s.host.linkCxl = false) → exec (.hdmDecoderCommit up) s = .next s) ∧
    (s.host.trained = true → s.host.linkCxl = true → ∃ t, exec (.hdmDecoderCommit up) s = .next t ∧ t.host.hdmLocked = up ∧ t.host.hdmSize = s.host.hdmSize) ∧
    (up = true → (s.host.perst = false ∨ linkOk cxl lanes gtps = false) → exec (.cxlLinkTraining up cxl lanes gtps) s = .next s) ∧
    (up = true → s.host.perst = true → linkOk cxl lanes gtps = true → ∃ t, exec (.cxlLinkTraining up cxl lanes gtps) s = .next t ∧ t.host.trained = true ∧ t.host.linkCxl = cxl ∧
      t.host.lanes = lanes ∧ t.host.gtps = gtps ∧ t.host.slots = s.host.slots) ∧
    (up = false → ∃ t, exec (.cxlLinkTraining up cxl lanes gtps) s = .next t ∧ t.host.trained = false ∧ t.host.slots = s.host.slots) ∧
    (linkOk true lanes gtps = true → (lanes = 16 ∨ lanes = 8 ∨ lanes = 4) ∧ (gtps = 128 ∨ gtps = 64 ∨ gtps = 32)) ∧
    (∃ t, exec (.perstN up) s = .next t ∧ t.host.perst = up ∧ (up = false → t.host.trained = false) ∧ (up = true → t.host.trained = s.host.trained) ∧
      t.host.slots = s.host.slots ∧ t.host.enable = s.host.enable ∧ t.hbm = s.hbm))

/-- A step runs the command at the front of the queue, and an empty queue lets one period of the reference clock pass. A step on a queue with a command in front runs that command on the state with the queue's rest, and answers what it answers. On an empty queue it answers the state one reference period later, the queue still empty (log 1, the model's choice); without the reference clock no time passes. No word of the opcode table spells a command (log 2), so placing a word changes nothing. (Derived: R4, R24, R396, R548) -/
def Obligations.StepRunsFront : Prop :=
  (∀ (s : State) (c : Instr) (r : List Instr), s.pending = c :: r → step s = exec c { s with pending := r }) ∧
  (∀ s : State, s.pending = [] → ∃ t, step s = .next t ∧ t = tick s) ∧
  (∀ s : State, s.pending = [] → s.pwr.refclk = false → ∀ t, step s = .next t → t = eventsDeliver s) ∧
  (∀ s : State, s.pending = [] → s.pwr.refclk = true → ∃ u, step s = .next (eventsDeliver u) ∧ u.pending = [] ∧ u.hbm = s.hbm ∧
    u.pace.tick = (if s.pace.running then s.pace.tick + s.pace.mult.setWidth 64 else s.pace.tick) ∧
    (s.nowFrac < 2 ^ 40 → s.ptpRate = 0 → s.ptpSlew = 0 → u.now = s.now + BitVec.ofNat 64 Config.refPeriodNs ∧ u.nowFrac = s.nowFrac)) ∧
  (∀ (s : State) (nbits w : Nat), decodeTableWord nbits w = none ∧ s.withFetchWord nbits w = s)

/-- Every step keeps the canonical form of the memories and the order of the tiles, and every command completes and leaves the waiting commands alone. From every state whose HBM, tile stores, host memory and counter table have their canonical form (keys strictly rising, no entry equal to what an unlisted one reads as), each step answers a state whose have it too; likewise the tiles and their hardware contexts stay in rising order without repeats. Every command on every state answers a next state, no fault and no refusal, and the queue of waiting commands is as it was; so every step from every state answers a next state. (Derived: R27, R361, R454, R461) -/
def Obligations.StructuresKept : Prop :=
  (∀ s t : State, s.memInv → step s = .next t → t.memInv) ∧
  (∀ s t : State, s.tilesWf = true → step s = .next t → t.tilesWf = true) ∧
  (∀ (s : State) (c : Instr), ∃ t, exec c s = .next t ∧ t.pending = s.pending) ∧
  ∀ s : State, ∃ t, step s = .next t ∧ t.pending = s.pending.tail

/-- The machine right after reset. Right after reset nothing waits, the memories have their canonical form and list nothing, a cold reset stands asserted at step 0 with the pads held and firmware not running, every queue, tile, job, region and queue pair is empty, and the registers have the cold values of the spec's register tables: MULT 16, slip ring 16, stall limit 100,000, TIMEOUT 1,000, DECAY_SHIFT 4, TICK_H 24, HYST 50, CONF_H 720, canary limit 16, lock-step time-out 1,000, region table 16, MPL 100, DPORT 47,074, SPORT_BASE 49,152, ring sizes 8, VSET 750, THERM_TARGET 850, meta 10, over-provisioning 70 and the rest. (Derived: R430, R431, R455, R498, R501, R503, R506, R513, R533, R536, R539) -/
def Obligations.ResetValues : Prop :=
  let s := State.reset
  s.pending = [] ∧ s.memInv ∧ s.tilesWf = true ∧ s.hbm = [] ∧ s.ts = [] ∧ s.hostMem = [] ∧ s.ctrs = [] ∧ s.tiles = [] ∧ s.jobs = [] ∧ s.qps = [] ∧ s.regions = [] ∧ s.engines = [] ∧ s.streams = [] ∧
  s.pwr.asserted = true ∧ s.pwr.warm = false ∧ s.pwr.stage = 0 ∧ s.pwr.failed = false ∧ s.pwr.warmCount = 0 ∧ s.pwr.state = 0 ∧ s.pwr.holdNand = true ∧ s.pwr.holdEth = true ∧
  s.pwr.nandSafe = true ∧ s.pwr.autoNand = true ∧ s.pwr.autoEth = false ∧ s.pwr.brTimeout = 1000 ∧ s.sec.gaffer = false ∧ s.sec.runtime = false ∧
  s.devGroup = 0xFF ∧ s.devUnit = 0xFF ∧ (∀ u, (unitGet s u).st = .resetting ∧ (unitGet s u).timeout = 1000) ∧ (∀ k, siliconGet s k = {}) ∧
  s.pace.mult = 16 ∧ s.pace.lock = false ∧ s.pace.ringSize = 16 ∧ s.pace.ringEn = false ∧ s.pace.stallLimit = 100000 ∧
  s.mem.locked = false ∧ s.lehr.writeback = true ∧ s.lehr.share = 1 ∧
  s.flt.decayShift = 4 ∧ s.flt.tickH = 24 ∧ s.flt.hyst = 50 ∧ s.flt.confH = 720 ∧ s.flt.canaryLimit = 16 ∧ s.flt.lsTimeout = 1000 ∧
  s.xp.mrtLog2 = 16 ∧ s.xp.mpl = 100 ∧ s.xp.respWait = 20 ∧ s.xp.idle = 1000 ∧ s.xp.rtoMin = 16 ∧ s.xp.targetDelay = 4000 ∧ s.xp.ai = 64 ∧ s.xp.beta = 128 ∧ s.xp.retryMax = 8 ∧
  s.xp.dport = 47074 ∧ s.xp.sportBase = 49152 ∧ s.xp.waitLimit = 1000 ∧ s.cul.delay = 8000 ∧ (∀ n, (poolGet s n).bufLog2 = 8 ∧ (poolGet s n).genSeed = 1 ∧ (poolGet s n).en = false) ∧
  (∀ p, (portGet s p).en = false ∧ (portGet s p).state = 0 ∧ (portGet s p).symThresh = 0x01000000 ∧ (portGet s p).uncThresh = 1 ∧ (portGet s p).xoff = 0x80 ∧ (portGet s p).xon = 0x40) ∧
  s.media.state = 1 ∧ s.media.metaPermil = 10 ∧ s.media.opPermil = 70 ∧ s.media.objUnitsReg = 64 ∧ s.media.gcLow = 8 ∧ s.media.gcHigh = 16 ∧ s.media.wlDelta = 500 ∧ s.media.refreshBits = 400 ∧
  s.media.readLimit = 1000000 ∧ s.host.enable = false ∧ s.host.accepted = false ∧ (∀ r, (cringGet s r).sizeLog2 = 8 ∧ (cringGet s r).en = false) ∧
  (∀ k, (slotGet s k).state = 0 ∧ (slotGet s k).area = [] ∧ (slotGet s k).jsn = 0) ∧ s.mgmt.ringSize = 8 ∧ s.glob.vset = 750 ∧ s.glob.target = 850 ∧ s.glob.capW = 0 ∧ s.glob.evtSeen = 0
end

