-- ==== Sys2Proof/Laws/Issue.lean ====
section
/-! SUPPORT. What issuing an instruction word does, once for every meaning: with nothing raised before it, the outcome is the body's. -/

namespace Sys2Proof.Machine

/-- The parts of `Issues`. -/
theorem issues_parts {s : State} {i : Issue} {d : Deps} {enc : Bool} (h : Issues s i d enc = true) :
    ctxGet s i.tile.val i.hw.val = some (curCtx s i) ∧ canIssue s i.tile.val i.hw.val (curCtx s i) d = true ∧
    (fetch s (curCtx s i) i).1 = [] ∧ enc = true ∧ profileOk (curCtx s i) d = true ∧ stepExc (curCtx s i) = [] := by
  simp only [Issues, Bool.and_eq_true, List.isEmpty_iff, Option.isSome_iff_exists] at h
  obtain ⟨⟨⟨⟨⟨⟨c, hc⟩, h2⟩, h3⟩, h4⟩, h5⟩, h6⟩ := h
  refine ⟨?_, h2, h3, h4, h5, h6⟩
  simp [curCtx, hc]

/-- An instruction that issues runs its body; nothing else is raised. -/
theorem issue_of_issues {s : State} {i : Issue} {d : Deps} {enc : Bool} (body : State → Ctx → Body) (h : Issues s i d enc = true) :
    issue s i d enc body = (match body (fetchedState s i) (fetchedCtx s i) with
      | .exc s2 es => match lowest es with
        | some e => takeExc s2 i.tile.val i.hw.val (fetchedCtx s i) e
        | none => s2
      | .retire s2 c2 next mw => retire s2 i.tile.val i.hw.val i d (fetchedCtx s i) c2 next mw
      | .wait s2 c2 w =>
        match w with
        | .swait _ _ | .rfence | .exit _ | .pool _ _ _ => blockSave (ctxSet s2 i.tile.val i.hw.val { c2 with wait := w }) i.tile.val i.hw.val
        | _ => ctxSet s2 i.tile.val i.hw.val { c2 with wait := w }
      | .stay s2 => ctxSet s2 i.tile.val i.hw.val (fetchedCtx s i)
      | .posted s2 c2 op cls size extra =>
        retire s2 i.tile.val i.hw.val i { d with cls := cls, size := size, extra := extra, op := some op } (fetchedCtx s i) c2 none []
      | .gone s2 c2 cc =>
        let r := retireCore s2 i.tile.val d (fetchedCtx s i) c2 ((fetchedCtx s i).pc + 4) []
        ctxEnd r.1 i.tile.val i.hw.val r.2 cc (ctxTag (fetchedCtx s i))) := by
  obtain ⟨h1, h2, h3, h4, h5, h6⟩ := issues_parts h
  unfold issue fetchedState fetchedCtx
  simp [h1, h2, h3, h4, h5, h6, lowest]
  try cases body (fetch s (curCtx s i) i).2.2 (fetch s (curCtx s i) i).2.1 <;> rfl

end Sys2Proof.Machine
end

