-- ==== Sys2Proof/Laws/Mem.lean ====
section
/-! SUPPORT. Laws of sparse tables and byte memories: every operation keeps the canonical form; a read after a write to the same key gives the value written; a write leaves every other key alone. -/

namespace Sys2Proof.Machine

variable {β : Type}

/-- Keys rising, as a pairwise fact. -/
def Rising (m : Tab β) : Prop := m.Pairwise fun a b => a.1 < b.1

theorem tabSorted_some (j : Nat) (m : Tab β) : tabSorted (some j) m = true ↔ (∀ e ∈ m, j < e.1) ∧ Rising m := by
  induction m generalizing j with
  | nil => simp [tabSorted, Rising]
  | cons e r ih =>
    obtain ⟨k, v⟩ := e
    simp only [tabSorted, Bool.and_eq_true, decide_eq_true_eq, ih, Rising, List.pairwise_cons, List.mem_cons, forall_eq_or_imp]
    constructor
    · rintro ⟨h, h1, h2⟩
      exact ⟨⟨h, fun e he => Nat.lt_trans h (h1 e he)⟩, h1, h2⟩
    · rintro ⟨⟨h, _⟩, h1, h2⟩
      exact ⟨h, h1, h2⟩

theorem tabSorted_none (m : Tab β) : tabSorted none m = true ↔ Rising m := by
  cases m with
  | nil => simp [tabSorted, Rising]
  | cons e r =>
    obtain ⟨k, v⟩ := e
    simp [tabSorted, tabSorted_some, Rising]

/-- The canonical form, as a fact about entries. -/
theorem tabWf_iff [DecidableEq β] (d : β) (m : Tab β) : tabWf d m = true ↔ Rising m ∧ ∀ e ∈ m, e.2 ≠ d := by
  simp [tabWf, tabSorted_none]

theorem Rising.filter {m : Tab β} (h : Rising m) (p : Nat × β → Bool) : Rising (m.filter p) := List.Pairwise.filter p h

/-- Dropping entries keeps the canonical form. -/
theorem tabWf_filter [DecidableEq β] {d : β} {m : Tab β} (h : tabWf d m = true) (p : Nat × β → Bool) : tabWf d (m.filter p) = true := by
  rw [tabWf_iff] at *
  exact ⟨h.1.filter p, fun e he => h.2 e (List.mem_filter.1 he).1⟩

theorem tabWf_nil [DecidableEq β] (d : β) : tabWf d ([] : Tab β) = true := by simp [tabWf, tabSorted]

theorem memWf_nil : memWf [] = true := tabWf_nil 0

theorem memWf_filter {m : Mem} (h : memWf m = true) (p : Nat × Byte → Bool) : memWf (m.filter p) = true := tabWf_filter h p

theorem mem_tabInsert (m : Tab β) (k : Nat) (v : β) (e : Nat × β) : e ∈ tabInsert m k v ↔ e = (k, v) ∨ e ∈ m := by
  induction m with
  | nil => simp [tabInsert]
  | cons x r ih =>
    obtain ⟨j, w⟩ := x
    by_cases hk : k < j
    · simp [tabInsert, hk]
    · simp only [tabInsert, hk, if_false, List.mem_cons, ih]
      exact or_left_comm

theorem Rising.insert {m : Tab β} (h : Rising m) (k : Nat) (v : β) (hk : ∀ e ∈ m, e.1 ≠ k) : Rising (tabInsert m k v) := by
  induction m with
  | nil => simp [tabInsert, Rising]
  | cons x r ih =>
    obtain ⟨j, w⟩ := x
    have hr : Rising r := (List.pairwise_cons.1 h).2
    have hj : ∀ e ∈ r, j < e.1 := (List.pairwise_cons.1 h).1
    by_cases hlt : k < j
    · simp only [tabInsert, hlt, if_true]
      refine List.pairwise_cons.2 ⟨fun e he => ?_, h⟩
      rcases List.mem_cons.1 he with rfl | he
      · exact hlt
      · exact Nat.lt_trans hlt (hj e he)
    · simp only [tabInsert, hlt, if_false]
      refine List.pairwise_cons.2 ⟨fun e he => ?_, ih hr fun e he => hk e (List.mem_cons_of_mem _ he)⟩
      rcases (mem_tabInsert r k v e).1 he with rfl | he
      · have := hk (j, w) (List.mem_cons_self ..)
        simp only at this ⊢
        omega
      · exact hj e he

theorem mem_tabErase (m : Tab β) (k : Nat) (e : Nat × β) : e ∈ tabErase m k ↔ e ∈ m ∧ e.1 ≠ k := by
  simp [tabErase]

/-- A write of a key keeps the canonical form. -/
theorem tabWf_set [DecidableEq β] {d : β} {m : Tab β} (h : tabWf d m = true) (k : Nat) (v : β) : tabWf d (tabSet d m k v) = true := by
  unfold tabSet
  split
  · exact tabWf_filter h _
  · rename_i hv
    rw [tabWf_iff] at *
    refine ⟨(h.1.filter _).insert k v fun e he => ((mem_tabErase m k e).1 he).2, fun e he => ?_⟩
    rcases (mem_tabInsert _ k v e).1 he with rfl | he
    · exact hv
    · exact h.2 e ((mem_tabErase m k e).1 he).1

theorem memWf_set {m : Mem} (h : memWf m = true) (k : Nat) (v : Byte) : memWf (tabSet 0 m k v) = true := tabWf_set h k v

theorem memWf_norm (m : Mem) : memWf (memNorm m) = true := by
  induction m with
  | nil => exact memWf_nil
  | cons c r ih => exact memWf_set ih c.1 c.2

theorem memWf_canon (m : Mem) : memWf (memCanon m) = true := by
  unfold memCanon
  split
  · assumption
  · exact memWf_norm m

/-! ## What a key reads as -/

theorem tabGet_of_not_mem (d : β) (m : Tab β) (k : Nat) (h : ∀ e ∈ m, e.1 ≠ k) : tabGet d m k = d := by
  induction m with
  | nil => rfl
  | cons x r ih =>
    obtain ⟨j, w⟩ := x
    have : j ≠ k := h (j, w) (List.mem_cons_self ..)
    simp only [tabGet, this, if_false]
    exact ih fun e he => h e (List.mem_cons_of_mem _ he)

theorem tabGet_filter (d : β) (m : Tab β) (p : Nat × β → Bool) (k : Nat) (h : ∀ v, p (k, v) = true) : tabGet d (m.filter p) k = tabGet d m k := by
  induction m with
  | nil => rfl
  | cons x r ih =>
    obtain ⟨j, w⟩ := x
    by_cases hj : j = k
    · subst hj
      simp [List.filter, h w, tabGet]
    · by_cases hp : p (j, w) = true
      · simp [List.filter, hp, tabGet, hj, ih]
      · simp [List.filter, hp, tabGet, hj, ih]

theorem tabGet_tabErase (d : β) (m : Tab β) (j k : Nat) : tabGet d (tabErase m k) j = if j = k then d else tabGet d m j := by
  split
  · subst j
    exact tabGet_of_not_mem d _ k fun e he => ((mem_tabErase m k e).1 he).2
  · rename_i hne
    exact tabGet_filter d m _ j fun v => by simpa using hne

theorem tabGet_tabInsert (d : β) (m : Tab β) (k : Nat) (v : β) (j : Nat) (hm : ∀ e ∈ m, e.1 ≠ k) :
    tabGet d (tabInsert m k v) j = if j = k then v else tabGet d m j := by
  induction m with
  | nil => simp [tabInsert, tabGet, eq_comm]
  | cons x r ih =>
    obtain ⟨i, w⟩ := x
    have hi : i ≠ k := hm (i, w) (List.mem_cons_self ..)
    have hr := ih fun e he => hm e (List.mem_cons_of_mem _ he)
    by_cases hk : k < i
    · simp only [tabInsert, hk, if_true, tabGet]
      by_cases h : j = k
      · simp [h]
      · simp [h, Ne.symm h]
    · simp only [tabInsert, hk, if_false, tabGet, hr]
      by_cases h : i = j
      · subst h
        simp [hi]
      · simp [h]

/-- A read after a write: the value written at its key, else what was there. -/
theorem tabGet_set [DecidableEq β] (d : β) (m : Tab β) (k : Nat) (v : β) (j : Nat) : tabGet d (tabSet d m k v) j = if j = k then v else tabGet d m j := by
  unfold tabSet
  split
  · rename_i hv
    rw [tabGet_tabErase, hv]
  · rw [tabGet_tabInsert d _ k v j fun e he => ((mem_tabErase m k e).1 he).2, tabGet_tabErase]
    split <;> rfl

theorem tabGet_norm (m : Mem) (k : Nat) : tabGet 0 (memNorm m) k = tabGet 0 m k := by
  induction m with
  | nil => rfl
  | cons c r ih =>
    obtain ⟨j, v⟩ := c
    show tabGet 0 (tabSet 0 (memNorm r) j v) k = _
    rw [tabGet_set, ih]
    by_cases h : j = k
    · simp [tabGet, h]
    · simp [tabGet, h, Ne.symm h]

/-- Bringing a memory into the canonical form changes nothing that is read. -/
theorem tabGet_canon (m : Mem) (k : Nat) : tabGet 0 (memCanon m) k = tabGet 0 m k := by
  unfold memCanon
  split
  · rfl
  · exact tabGet_norm m k

/-! ## Range writes -/

theorem memWf_append3 {a b c : Mem} (ha : memWf a = true) (hb : memWf b = true) (hc : memWf c = true)
    (hab : ∀ x ∈ a, ∀ y ∈ b, x.1 < y.1) (hac : ∀ x ∈ a, ∀ y ∈ c, x.1 < y.1) (hbc : ∀ x ∈ b, ∀ y ∈ c, x.1 < y.1) : memWf (a ++ b ++ c) = true := by
  unfold memWf at *
  rw [tabWf_iff] at *
  refine ⟨?_, fun e he => ?_⟩
  · refine List.pairwise_append.2 ⟨List.pairwise_append.2 ⟨ha.1, hb.1, hab⟩, hc.1, fun x hx y hy => ?_⟩
    rcases List.mem_append.1 hx with hx | hx
    · exact hac x hx y hy
    · exact hbc x hx y hy
  · rcases List.mem_append.1 he with he | he
    · rcases List.mem_append.1 he with he | he
      · exact ha.2 e he
      · exact hb.2 e he
    · exact hc.2 e he

theorem memWf_map_add {m : Mem} (h : memWf m = true) (base : Nat) : memWf (m.map fun c => (base + c.1, c.2)) = true := by
  unfold memWf at *
  rw [tabWf_iff] at *
  refine ⟨?_, fun e he => ?_⟩
  · refine List.pairwise_map.2 (h.1.imp fun {a b} hab => ?_)
    simp only
    omega
  · obtain ⟨x, hx, rfl⟩ := List.mem_map.1 he
    exact h.2 x hx

theorem mem_norm_key {m : Mem} {e : Nat × Byte} (he : e ∈ memNorm m) : ∃ x ∈ m, x.1 = e.1 := by
  induction m with
  | nil => cases he
  | cons c r ih =>
    have he : e ∈ tabSet 0 (memNorm r) c.1 c.2 := he
    unfold tabSet at he
    split at he
    · obtain ⟨x, hx, h⟩ := ih ((mem_tabErase _ _ _).1 he).1
      exact ⟨x, List.mem_cons_of_mem _ hx, h⟩
    · rcases (mem_tabInsert _ _ _ _).1 he with rfl | he
      · exact ⟨c, List.mem_cons_self .., rfl⟩
      · obtain ⟨x, hx, h⟩ := ih ((mem_tabErase _ _ _).1 he).1
        exact ⟨x, List.mem_cons_of_mem _ hx, h⟩

theorem mem_canon_key {m : Mem} {e : Nat × Byte} (he : e ∈ memCanon m) : ∃ x ∈ m, x.1 = e.1 := by
  unfold memCanon at he
  split at he
  · exact ⟨e, he, rfl⟩
  · exact mem_norm_key he

/-- A range write keeps the canonical form, whatever the source. -/
theorem memWf_blit {m : Mem} (h : memWf m = true) (base len : Nat) (src : Mem) : memWf (memBlit m base len src) = true := by
  unfold memBlit
  have hb : ∀ y ∈ (memCanon (src.filter fun c => decide (c.1 < len))).map (fun c => (base + c.1, c.2)), base ≤ y.1 ∧ y.1 < base + len := by
    intro y hy
    obtain ⟨x, hx, rfl⟩ := List.mem_map.1 hy
    obtain ⟨z, hz, hk⟩ := mem_canon_key hx
    have := (List.mem_filter.1 hz).2
    simp only [decide_eq_true_eq] at this
    simp only
    omega
  refine memWf_append3 (memWf_filter h _) (memWf_map_add (memWf_canon _) base) (memWf_filter h _) ?_ ?_ ?_
  · intro x hx y hy
    have h1 := (List.mem_filter.1 hx).2
    have h2 := hb y hy
    simp only [decide_eq_true_eq] at h1
    omega
  · intro x hx y hy
    have h1 := (List.mem_filter.1 hx).2
    have h2 := (List.mem_filter.1 hy).2
    simp only [decide_eq_true_eq] at h1 h2
    omega
  · intro x hx y hy
    have h1 := hb x hx
    have h2 := (List.mem_filter.1 hy).2
    simp only [decide_eq_true_eq] at h2
    omega

theorem tabGet_append_left (d : β) (a b : Tab β) (k : Nat) (h : ∀ e ∈ a, e.1 ≠ k) : tabGet d (a ++ b) k = tabGet d b k := by
  induction a with
  | nil => rfl
  | cons x r ih =>
    obtain ⟨j, w⟩ := x
    have : j ≠ k := h (j, w) (List.mem_cons_self ..)
    simp only [List.cons_append, tabGet, this, if_false]
    exact ih fun e he => h e (List.mem_cons_of_mem _ he)

theorem tabGet_append_right (d : β) (a b : Tab β) (k : Nat) (h : ∀ e ∈ b, e.1 ≠ k) : tabGet d (a ++ b) k = tabGet d a k := by
  induction a with
  | nil => exact tabGet_of_not_mem d b k h
  | cons x r ih =>
    obtain ⟨j, w⟩ := x
    simp only [List.cons_append, tabGet, ih]

theorem tabGet_map_add (m : Mem) (base k : Nat) : tabGet 0 (m.map fun c => (base + c.1, c.2)) (base + k) = tabGet 0 m k := by
  induction m with
  | nil => rfl
  | cons x r ih =>
    obtain ⟨j, w⟩ := x
    simp only [List.map_cons, tabGet, ih, Nat.add_left_cancel_iff]

/-- A byte outside the range written reads as before. -/
theorem tabGet_blit_out (m : Mem) (base len : Nat) (src : Mem) (a : Nat) (h : a < base ∨ base + len ≤ a) :
    tabGet 0 (memBlit m base len src) a = tabGet 0 m a := by
  unfold memBlit
  have hb : ∀ y ∈ (memCanon (src.filter fun c => decide (c.1 < len))).map (fun c => (base + c.1, c.2)), y.1 ≠ a := by
    intro y hy
    obtain ⟨x, hx, rfl⟩ := List.mem_map.1 hy
    obtain ⟨z, hz, hk⟩ := mem_canon_key hx
    have := (List.mem_filter.1 hz).2
    simp only [decide_eq_true_eq] at this
    simp only
    omega
  rcases h with h | h
  · have h3 : ∀ y ∈ m.filter (fun c => decide (base + len ≤ c.1)), y.1 ≠ a := by
      intro y hy
      have := (List.mem_filter.1 hy).2
      simp only [decide_eq_true_eq] at this
      omega
    rw [tabGet_append_right _ _ _ _ h3, tabGet_append_right _ _ _ _ hb]
    exact tabGet_filter 0 m _ a fun v => by simpa using h
  · have h1 : ∀ y ∈ m.filter (fun c => decide (c.1 < base)), y.1 ≠ a := by
      intro y hy
      have := (List.mem_filter.1 hy).2
      simp only [decide_eq_true_eq] at this
      omega
    rw [List.append_assoc, tabGet_append_left _ _ _ _ h1, tabGet_append_left _ _ _ _ hb]
    exact tabGet_filter 0 m _ a fun v => by simpa using h

/-- A byte inside the range written reads as the source's. -/
theorem tabGet_blit_in (m : Mem) (base len : Nat) (src : Mem) (i : Nat) (h : i < len) :
    tabGet 0 (memBlit m base len src) (base + i) = tabGet 0 src i := by
  unfold memBlit
  have h1 : ∀ y ∈ m.filter (fun c => decide (c.1 < base)), y.1 ≠ base + i := by
    intro y hy
    have := (List.mem_filter.1 hy).2
    simp only [decide_eq_true_eq] at this
    omega
  have h3 : ∀ y ∈ m.filter (fun c => decide (base + len ≤ c.1)), y.1 ≠ base + i := by
    intro y hy
    have := (List.mem_filter.1 hy).2
    simp only [decide_eq_true_eq] at this
    omega
  rw [tabGet_append_right _ _ _ _ h3, tabGet_append_left _ _ _ _ h1, tabGet_map_add, tabGet_canon]
  exact tabGet_filter 0 src _ i fun v => by simpa using h

/-! ## Byte strings -/

theorem tabGet_memOfBytes_lt (b : Bytes) (i k : Nat) (h : k < i) : tabGet 0 (memOfBytes i b) k = 0 := by
  induction b generalizing i with
  | nil => rfl
  | cons x r ih =>
    unfold memOfBytes
    split
    · exact ih (i + 1) (by omega)
    · simp only [tabGet]
      rw [if_neg (by omega)]
      exact ih (i + 1) (by omega)

/-- A byte string as cells reads back. -/
theorem tabGet_memOfBytes (b : Bytes) (i j : Nat) : tabGet 0 (memOfBytes i b) (i + j) = b.getD j 0 := by
  induction b generalizing i j with
  | nil => rfl
  | cons x r ih =>
    have key : ∀ j, tabGet 0 (memOfBytes (i + 1) r) (i + (j + 1)) = r.getD j 0 := fun j => by
      have := ih (i + 1) j
      rwa [show i + 1 + j = i + (j + 1) by omega] at this
    unfold memOfBytes
    split
    · rename_i hx
      cases j with
      | zero => simp only [Nat.add_zero]; rw [tabGet_memOfBytes_lt _ _ _ (by omega)]; simp [hx]
      | succ j => rw [key]; rfl
    · cases j with
      | zero => simp [tabGet]
      | succ j =>
        simp only [tabGet]
        rw [if_neg (by omega), key]; rfl

theorem memBytes_length (m : Mem) (i n : Nat) : (memBytes m i n).length = n := by
  induction n generalizing i with
  | zero => rfl
  | succ n ih => simp [memBytes, ih]

theorem leBytes_length (n x : Nat) : (leBytes n x).length = n := by
  induction n generalizing x with
  | zero => rfl
  | succ n ih => simp [leBytes, ih]

/-- Little-endian bytes give the number back (R2). -/
theorem leNat_leBytes (n x : Nat) : leNat (leBytes n x) = x % 256 ^ n := by
  induction n generalizing x with
  | zero => simp [leBytes, leNat, Nat.mod_one]
  | succ n ih =>
    simp only [leBytes, leNat, ih, BitVec.toNat_ofNat]
    rw [show (2 : Nat) ^ 8 = 256 by rfl, Nat.pow_succ, Nat.mul_comm (256 ^ n) 256, Nat.mod_mul]

/-- Dropping bytes of a read reads further on. -/
theorem memBytes_drop (m : Mem) (n k i : Nat) : (memBytes m i n).drop k = memBytes m (i + k) (n - k) := by
  induction k generalizing i n with
  | zero => simp
  | succ k ih =>
    cases n with
    | zero => simp [memBytes]
    | succ n => simp only [memBytes, List.drop_succ_cons, ih]; congr 1 <;> omega

/-- The first bytes of a read. -/
theorem memBytes_take (m : Mem) (n k i : Nat) (h : k ≤ n) : (memBytes m i n).take k = memBytes m i k := by
  induction k generalizing i n with
  | zero => simp [memBytes]
  | succ k ih =>
    cases n with
    | zero => omega
    | succ n => simp only [memBytes, List.take_succ_cons]; rw [ih _ _ (by omega)]

/-- A slice of a read is a read. -/
theorem sub_memBytes (m : Mem) (n i k w : Nat) (h : k + w ≤ n) : sub (memBytes m i n) k w = memBytes m (i + k) w := by
  simp only [sub, memBytes_drop]
  rw [memBytes_take _ _ _ _ (by omega), memBytes_length]
  simp [zeros]

/-- Bytes where a memory lists nothing read as zero. -/
theorem memBytes_zeros (m : Mem) (n i : Nat) (h : ∀ e ∈ m, e.1 < i ∨ i + n ≤ e.1) : memBytes m i n = zeros n := by
  induction n generalizing i with
  | zero => rfl
  | succ n ih =>
    have e : tabGet 0 m i = 0 := tabGet_of_not_mem 0 m i fun e he => by have := h e he; omega
    rw [memBytes, e, ih _ fun e he => by have := h e he; omega]
    rfl

end Sys2Proof.Machine
end

