-- ==== Sys2Proof/Laws/Keeps.lean ====
section
/-! SUPPORT. How operations keep the queue of waiting commands and the canonical form of the memories: the relation Keeps, its composition, and how it passes through choices, folds, engine actions and instruction bodies. -/

namespace Sys2Proof.Machine

@[simp] theorem Keeps.refl (s : State) : Keeps s s := ⟨rfl, id⟩

theorem Keeps.trans {s t u : State} (h : Keeps s t) (k : Keeps t u) : Keeps s u := ⟨k.1.trans h.1, fun i => k.2 (h.2 i)⟩

/-- Changing any field but the queue and the memories keeps both. -/
@[simp] theorem keeps_mk {s t : State} (h : Keeps s t) (a1 a2 a3 a4 a5 a6 a7 a8 a9 a10 a11 a12 a13 a14 a15 a16 a17 a18 a19 a20 a21 a22 a23 a24 a25 a27 a29 a31 a32 a33 a34 a35 a36 a37 a38 a39 a40 a41 a42 a43 a44 a45 a46 a47 a48 a49 a50 a51 a52 a53 a54 a55 a56 a58 a59) :
    Keeps s (State.mk t.pending a1 a2 a3 a4 a5 a6 a7 a8 a9 a10 a11 a12 a13 a14 a15 a16 a17 a18 a19 a20 a21 a22 a23 a24 a25 t.ctrs a27 t.hbm a29 t.ts a31 a32 a33 a34 a35 a36 a37 a38 a39 a40 a41 a42 a43 a44 a45 a46 a47 a48 a49 a50 a51 a52 a53 a54 a55 a56 t.hostMem a58 a59) := h

theorem keeps_mk_iff {s t : State} (a1 a2 a3 a4 a5 a6 a7 a8 a9 a10 a11 a12 a13 a14 a15 a16 a17 a18 a19 a20 a21 a22 a23 a24 a25 a27 a29 a31 a32 a33 a34 a35 a36 a37 a38 a39 a40 a41 a42 a43 a44 a45 a46 a47 a48 a49 a50 a51 a52 a53 a54 a55 a56 a58 a59) :
    Keeps s (State.mk t.pending a1 a2 a3 a4 a5 a6 a7 a8 a9 a10 a11 a12 a13 a14 a15 a16 a17 a18 a19 a20 a21 a22 a23 a24 a25 t.ctrs a27 t.hbm a29 t.ts a31 a32 a33 a34 a35 a36 a37 a38 a39 a40 a41 a42 a43 a44 a45 a46 a47 a48 a49 a50 a51 a52 a53 a54 a55 a56 t.hostMem a58 a59) ↔ Keeps s t := Iff.rfl

theorem keeps_mem {s t u : State} (h : Keeps s t) (hp : u.pending = t.pending) (h1 : memWf t.hbm = true → memWf u.hbm = true)
    (h2 : memWf t.ts = true → memWf u.ts = true) (h3 : memWf t.hostMem = true → memWf u.hostMem = true) (h4 : tabWf 0 t.ctrs = true → tabWf 0 u.ctrs = true) :
    Keeps s u :=
  ⟨hp.trans h.1, fun i => let j := h.2 i; ⟨h1 j.1, h2 j.2.1, h3 j.2.2.1, h4 j.2.2.2⟩⟩

@[simp] theorem keeps_ite {s a b : State} {p : Prop} [Decidable p] (ha : Keeps s a) (hb : Keeps s b) : Keeps s (if p then a else b) := by
  split <;> assumption

/-- A fold of operations that each keep. -/
theorem keeps_foldl {α : Type} {s0 : State} (l : List α) (f : State → α → State) (hf : ∀ t a, Keeps s0 t → Keeps s0 (f t a)) (s : State) (h : Keeps s0 s) :
    Keeps s0 (l.foldl f s) := by
  induction l generalizing s with
  | nil => exact h
  | cons a r ih => exact ih _ (hf _ _ h)

/-- A fold that carries the state as a part of its accumulator. -/
theorem keeps_foldl_of {α σ : Type} {s0 : State} (p : σ → State) (l : List α) (f : σ → α → σ) (hf : ∀ t a, Keeps s0 (p t) → Keeps s0 (p (f t a))) (x : σ)
    (h : Keeps s0 (p x)) : Keeps s0 (p (l.foldl f x)) := by
  induction l generalizing x with
  | nil => exact h
  | cons a r ih => exact ih _ (hf _ _ h)

theorem keeps_foldl_2 {α β : Type} {s0 : State} (l : List α) (f : (β × State) → α → (β × State)) (x : (β × State)) (hf : ∀ t a, Keeps s0 t.2 → Keeps s0 (f t a).2)
    (h : Keeps s0 x.2) : Keeps s0 (l.foldl f x).2 :=
  keeps_foldl_of (fun x => x.2) l f hf x h

theorem keeps_foldl_22 {α β γ : Type} {s0 : State} (l : List α) (f : (β × γ × State) → α → (β × γ × State)) (x : (β × γ × State)) (hf : ∀ t a, Keeps s0 t.2.2 → Keeps s0 (f t a).2.2)
    (h : Keeps s0 x.2.2) : Keeps s0 (l.foldl f x).2.2 :=
  keeps_foldl_of (fun x => x.2.2) l f hf x h

theorem keeps_foldl_222 {α β γ δ : Type} {s0 : State} (l : List α) (f : (β × γ × δ × State) → α → (β × γ × δ × State)) (x : (β × γ × δ × State)) (hf : ∀ t a, Keeps s0 t.2.2.2 → Keeps s0 (f t a).2.2.2)
    (h : Keeps s0 x.2.2.2) : Keeps s0 (l.foldl f x).2.2.2 :=
  keeps_foldl_of (fun x => x.2.2.2) l f hf x h

theorem keeps_foldl_1 {α β : Type} {s0 : State} (l : List α) (f : (State × β) → α → (State × β)) (x : (State × β)) (hf : ∀ t a, Keeps s0 t.1 → Keeps s0 (f t a).1)
    (h : Keeps s0 x.1) : Keeps s0 (l.foldl f x).1 :=
  keeps_foldl_of (fun x => x.1) l f hf x h

theorem keeps_foldl_21 {α β γ : Type} {s0 : State} (l : List α) (f : (β × State × γ) → α → (β × State × γ)) (x : (β × State × γ)) (hf : ∀ t a, Keeps s0 t.2.1 → Keeps s0 (f t a).2.1)
    (h : Keeps s0 x.2.1) : Keeps s0 (l.foldl f x).2.1 :=
  keeps_foldl_of (fun x => x.2.1) l f hf x h

theorem keeps_foldl_221 {α β γ δ : Type} {s0 : State} (l : List α) (f : (β × γ × State × δ) → α → (β × γ × State × δ)) (x : (β × γ × State × δ)) (hf : ∀ t a, Keeps s0 t.2.2.1 → Keeps s0 (f t a).2.2.1)
    (h : Keeps s0 x.2.2.1) : Keeps s0 (l.foldl f x).2.2.1 :=
  keeps_foldl_of (fun x => x.2.2.1) l f hf x h

theorem foldl_wf {α : Type} (l : List α) (f : Mem → α → Mem) (hf : ∀ m a, memWf m = true → memWf (f m a) = true) (m : Mem) (h : memWf m = true) :
    memWf (l.foldl f m) = true := by
  induction l generalizing m with
  | nil => exact h
  | cons a r ih => exact ih _ (hf _ _ h)

theorem patApply_wf {m : Mem} (h : memWf m = true) (base sector : Nat) (p : List (Nat × Byte)) : memWf (patApply m base sector p) = true := by
  unfold patApply
  refine foldl_wf _ _ (fun m a k => ?_) m h
  split
  · exact memWf_set k _ _
  · exact k

theorem tsApply_wf {m : Mem} (h : memWf m = true) (base word : Nat) (e : BitVec 72) : memWf (tsApply m base word e) = true := by
  unfold tsApply
  refine foldl_wf _ _ (fun m a k => ?_) m h
  split
  · exact memWf_set k _ _
  · exact k

/-- What an instruction's meaning answers keeps. -/
def BodyKeeps (s0 : State) : Body → Prop
  | .retire s _ _ _ => Keeps s0 s
  | .exc s _ => Keeps s0 s
  | .wait s _ _ => Keeps s0 s
  | .stay s => Keeps s0 s
  | .gone s _ _ => Keeps s0 s
  | .posted s _ _ _ _ _ => Keeps s0 s

@[simp] theorem bodyKeeps_retire {s0 s : State} (h : Keeps s0 s) (c : Ctx) (n : Option Word) (mw : List (Nat × Bytes)) : BodyKeeps s0 (.retire s c n mw) := h
@[simp] theorem bodyKeeps_exc {s0 s : State} (h : Keeps s0 s) (es : List Exc) : BodyKeeps s0 (.exc s es) := h
@[simp] theorem bodyKeeps_wait {s0 s : State} (h : Keeps s0 s) (c : Ctx) (w : Wait) : BodyKeeps s0 (.wait s c w) := h
@[simp] theorem bodyKeeps_stay {s0 s : State} (h : Keeps s0 s) : BodyKeeps s0 (.stay s) := h
@[simp] theorem bodyKeeps_gone {s0 s : State} (h : Keeps s0 s) (c : Ctx) (cc : Option Nat) : BodyKeeps s0 (.gone s c cc) := h
@[simp] theorem bodyKeeps_posted {s0 s : State} (h : Keeps s0 s) (c : Ctx) (o a b e : Nat) : BodyKeeps s0 (.posted s c o a b e) := h
@[simp] theorem bodyKeeps_ite {s0 : State} {a b : Body} {p : Prop} [Decidable p] (ha : BodyKeeps s0 a) (hb : BodyKeeps s0 b) : BodyKeeps s0 (if p then a else b) := by
  split <;> assumption

/-- A command's outcome is a next state that keeps. -/
def OutKeeps (s0 : State) (o : Out_) : Prop := ∃ t, o = .next t ∧ Keeps s0 t

@[simp] theorem outKeeps_next {s0 t : State} (h : Keeps s0 t) : OutKeeps s0 (.next t) := ⟨t, rfl, h⟩
@[simp] theorem outKeeps_ite {s0 : State} {a b : Out_} {p : Prop} [Decidable p] (ha : OutKeeps s0 a) (hb : OutKeeps s0 b) : OutKeeps s0 (if p then a else b) := by
  split <;> assumption

/-! ## Engine actions -/

/-- State after an engine action. -/
def emOut {α : Type} (m : EM α) (s : State) : State := (StateT.run (ExceptT.run m) s).2
/-- An engine action keeps, from every state. -/
def EMKeeps {α : Type} (m : EM α) : Prop := ∀ s0 s, Keeps s0 s → Keeps s0 (emOut m s)

@[simp] theorem emOut_pure {α : Type} (a : α) (s : State) : emOut (pure a : EM α) s = s := rfl
@[simp] theorem emOut_throw {α : Type} (e : EngErr) (s : State) : emOut (throw e : EM α) s = s := rfl
@[simp] theorem emOut_modify (f : State → State) (s : State) : emOut (modify f : EM Unit) s = f s := rfl
@[simp] theorem emOut_set (t s : State) : emOut (set t : EM Unit) s = t := rfl
@[simp] theorem emOut_get_bind {β : Type} (f : State → EM β) (s : State) : emOut (get >>= f) s = emOut (f s) s := rfl
@[simp] theorem emOut_set_bind {β : Type} (t : State) (f : PUnit → EM β) (s : State) : emOut (set t >>= f) s = emOut (f ⟨⟩) t := rfl
@[simp] theorem emOut_modify_bind {β : Type} (g : State → State) (f : PUnit → EM β) (s : State) : emOut (modify g >>= f) s = emOut (f ⟨⟩) (g s) := rfl
@[simp] theorem emOut_pure_bind {α β : Type} (a : α) (f : α → EM β) (s : State) : emOut (pure a >>= f) s = emOut (f a) s := rfl
@[simp] theorem emOut_throw_bind {α β : Type} (e : EngErr) (f : α → EM β) (s : State) : emOut ((throw e : EM α) >>= f) s = s := rfl

theorem keeps_bind {α β : Type} {s0 : State} (m : EM α) (f : α → EM β) (s : State) (hm : Keeps s0 (emOut m s))
    (hf : ∀ a t, Keeps s0 t → Keeps s0 (emOut (f a) t)) : Keeps s0 (emOut (m >>= f) s) := by
  unfold emOut at hm ⊢
  simp only [ExceptT.run_bind, StateT.run_bind]
  revert hm
  rcases StateT.run (ExceptT.run m) s with ⟨a | a, t⟩
  · exact id
  · exact fun h => hf a t h

theorem emKeeps_out {α : Type} {m : EM α} {s0 s : State} (hm : EMKeeps m) (hk : Keeps s0 s) : Keeps s0 (emOut m s) := hm s0 s hk

theorem emKeeps_of {α : Type} {m : EM α} (h : ∀ s0 s, Keeps s0 s → Keeps s0 (emOut m s)) : EMKeeps m := h

theorem EMKeeps.bind {α β : Type} {m : EM α} {f : α → EM β} (hm : EMKeeps m) (hf : ∀ a, EMKeeps (f a)) : EMKeeps (m >>= f) :=
  fun s0 s h => keeps_bind m f s (hm s0 s h) fun a t k => hf a s0 t k

end Sys2Proof.Machine
end

