-- ==== Sys2Proof/Laws/Keeps/Ops.lean ====
section
/-! SUPPORT. The operations of Machine/Ops.lean keep the queue of waiting commands and the canonical form of the memories. -/

namespace Sys2Proof.Machine

set_option linter.unusedSimpArgs false

@[simp] theorem unitSet_keeps {s0 : State} (s : State) (u : Nat) (x : Ucb) (hk : Keeps s0 s) : Keeps s0 (unitSet s u x) := by
  unfold unitSet
  simp (maxDischargeDepth := 40) only [Keeps.refl, keeps_mk, keeps_ite, outKeeps_next, outKeeps_ite, bodyKeeps_retire, bodyKeeps_exc, bodyKeeps_wait, bodyKeeps_stay, bodyKeeps_gone, bodyKeeps_posted, bodyKeeps_ite, *]

@[simp] theorem unitsMove_keeps {s0 : State} (s : State) (u : Nat) (p : UState → Bool) (f : Nat → UState) (hk : Keeps s0 s) : Keeps s0 (unitsMove s u p f) := by
  unfold unitsMove
  repeat' first
    | assumption
    | (with_reducible refine keeps_foldl _ _ (fun _ _ _ => ?_) _ ?_)
    | (with_reducible refine keeps_foldl_1 _ _ _ (fun _ _ _ => ?_) ?_)
    | (with_reducible refine keeps_foldl_2 _ _ _ (fun _ _ _ => ?_) ?_)
    | (with_reducible refine keeps_foldl_22 _ _ _ (fun _ _ _ => ?_) ?_)
    | (with_reducible refine keeps_foldl_21 _ _ _ (fun _ _ _ => ?_) ?_)
    | (with_reducible refine keeps_foldl_221 _ _ _ (fun _ _ _ => ?_) ?_)
    | (with_reducible refine keeps_foldl_222 _ _ _ (fun _ _ _ => ?_) ?_)
    | (simp (maxDischargeDepth := 40) only [Keeps.refl, keeps_mk, keeps_ite, outKeeps_next, outKeeps_ite, bodyKeeps_retire, bodyKeeps_exc, bodyKeeps_wait, bodyKeeps_stay, bodyKeeps_gone, bodyKeeps_posted, bodyKeeps_ite, unitSet_keeps, *]; done)
    | split
    | (dsimp only)

@[simp] theorem siliconSet_keeps {s0 : State} (s : State) (k : Nat) (x : Silicon) (hk : Keeps s0 s) : Keeps s0 (siliconSet s k x) := by
  unfold siliconSet
  simp (maxDischargeDepth := 40) only [Keeps.refl, keeps_mk, keeps_ite, outKeeps_next, outKeeps_ite, bodyKeeps_retire, bodyKeeps_exc, bodyKeeps_wait, bodyKeeps_stay, bodyKeeps_gone, bodyKeeps_posted, bodyKeeps_ite, *]

@[simp] theorem addTrouble_keeps {s0 : State} (s : State) (key : Nat) (k : Nat) (hk : Keeps s0 s) : Keeps s0 (addTrouble s key k) := by
  unfold addTrouble
  simp (maxDischargeDepth := 40) only [Keeps.refl, keeps_mk, keeps_ite, outKeeps_next, outKeeps_ite, bodyKeeps_retire, bodyKeeps_exc, bodyKeeps_wait, bodyKeeps_stay, bodyKeeps_gone, bodyKeeps_posted, bodyKeeps_ite, siliconSet_keeps, *]

@[simp] theorem addTroubleN_keeps {s0 : State} (s : State) (key : Nat) (k : Nat) (n : Nat) (hk : Keeps s0 s) : Keeps s0 (addTroubleN s key k n) := by
  unfold addTroubleN
  simp (maxDischargeDepth := 40) only [Keeps.refl, keeps_mk, keeps_ite, outKeeps_next, outKeeps_ite, bodyKeeps_retire, bodyKeeps_exc, bodyKeeps_wait, bodyKeeps_stay, bodyKeeps_gone, bodyKeeps_posted, bodyKeeps_ite, siliconSet_keeps, addTrouble_keeps, *]

@[simp] theorem setSuspect_keeps {s0 : State} (s : State) (i : Nat) (hk : Keeps s0 s) : Keeps s0 (setSuspect s i) := by
  unfold setSuspect
  simp (maxDischargeDepth := 40) only [Keeps.refl, keeps_mk, keeps_ite, outKeeps_next, outKeeps_ite, bodyKeeps_retire, bodyKeeps_exc, bodyKeeps_wait, bodyKeeps_stay, bodyKeeps_gone, bodyKeeps_posted, bodyKeeps_ite, *]

@[simp] theorem raise_keeps {s0 : State} (s : State) (type : Nat) (st : Status) (subject : Nat) (detail : Bytes) (hk : Keeps s0 s) : Keeps s0 (raise s type st subject detail) := by
  unfold raise
  simp (maxDischargeDepth := 40) only [Keeps.refl, keeps_mk, keeps_ite, outKeeps_next, outKeeps_ite, bodyKeeps_retire, bodyKeeps_exc, bodyKeeps_wait, bodyKeeps_stay, bodyKeeps_gone, bodyKeeps_posted, bodyKeeps_ite, *]

@[simp] theorem deviceError_keeps {s0 : State} (s : State) (st : Status) (subject : Nat) (detail : Bytes) (hk : Keeps s0 s) : Keeps s0 (deviceError s st subject detail) := by
  unfold deviceError
  simp (maxDischargeDepth := 40) only [Keeps.refl, keeps_mk, keeps_ite, outKeeps_next, outKeeps_ite, bodyKeeps_retire, bodyKeeps_exc, bodyKeeps_wait, bodyKeeps_stay, bodyKeeps_gone, bodyKeeps_posted, bodyKeeps_ite, raise_keeps, *]

@[simp] theorem overflowEvent_keeps {s0 : State} (s : State) (blk : Nat) (off : Nat) (hk : Keeps s0 s) : Keeps s0 (overflowEvent s blk off) := by
  unfold overflowEvent
  simp (maxDischargeDepth := 40) only [Keeps.refl, keeps_mk, keeps_ite, outKeeps_next, outKeeps_ite, bodyKeeps_retire, bodyKeeps_exc, bodyKeeps_wait, bodyKeeps_stay, bodyKeeps_gone, bodyKeeps_posted, bodyKeeps_ite, raise_keeps, *]

@[simp] theorem bumpEvent_keeps {s0 : State} (s : State) (c : BitVec 48) (n : Nat) (blk : Nat) (off : Nat) (hk : Keeps s0 s) : Keeps s0 (bumpEvent s c n blk off) := by
  unfold bumpEvent
  simp (maxDischargeDepth := 40) only [Keeps.refl, keeps_mk, keeps_ite, outKeeps_next, outKeeps_ite, bodyKeeps_retire, bodyKeeps_exc, bodyKeeps_wait, bodyKeeps_stay, bodyKeeps_gone, bodyKeeps_posted, bodyKeeps_ite, overflowEvent_keeps, *]

@[simp] theorem ownFail_keeps {s0 : State} (s : State) (row : Nat) (pa : Nat) (st : Status) (hk : Keeps s0 s) : Keeps s0 (ownFail s row pa st) := by
  unfold ownFail
  simp (maxDischargeDepth := 40) only [Keeps.refl, keeps_mk, keeps_ite, outKeeps_next, outKeeps_ite, bodyKeeps_retire, bodyKeeps_exc, bodyKeeps_wait, bodyKeeps_stay, bodyKeeps_gone, bodyKeeps_posted, bodyKeeps_ite, deviceError_keeps, *]

@[simp] theorem patStore_keeps {s0 : State} (s : State) (sector : Nat) (p : List (Nat × Byte)) (hk : Keeps s0 s) : Keeps s0 (patStore s sector p) := by
  unfold patStore
  simp (maxDischargeDepth := 40) only [Keeps.refl, keeps_mk, keeps_ite, outKeeps_next, outKeeps_ite, bodyKeeps_retire, bodyKeeps_exc, bodyKeeps_wait, bodyKeeps_stay, bodyKeeps_gone, bodyKeeps_posted, bodyKeeps_ite, *]

@[simp] theorem countEcc_keeps {s0 : State} (s : State) (sector : Nat) (o : EccOut) (hk : Keeps s0 s) : Keeps s0 (countEcc s sector o) := by
  unfold countEcc
  repeat' first
    | assumption
    | (with_reducible refine keeps_foldl _ _ (fun _ _ _ => ?_) _ ?_)
    | (with_reducible refine keeps_foldl_1 _ _ _ (fun _ _ _ => ?_) ?_)
    | (with_reducible refine keeps_foldl_2 _ _ _ (fun _ _ _ => ?_) ?_)
    | (with_reducible refine keeps_foldl_22 _ _ _ (fun _ _ _ => ?_) ?_)
    | (with_reducible refine keeps_foldl_21 _ _ _ (fun _ _ _ => ?_) ?_)
    | (with_reducible refine keeps_foldl_221 _ _ _ (fun _ _ _ => ?_) ?_)
    | (with_reducible refine keeps_foldl_222 _ _ _ (fun _ _ _ => ?_) ?_)
    | (simp (maxDischargeDepth := 40) only [Keeps.refl, keeps_mk, keeps_ite, outKeeps_next, outKeeps_ite, bodyKeeps_retire, bodyKeeps_exc, bodyKeeps_wait, bodyKeeps_stay, bodyKeeps_gone, bodyKeeps_posted, bodyKeeps_ite, addTrouble_keeps, bumpEvent_keeps, *]; done)
    | split
    | (dsimp only)

@[simp] theorem hbmRead_keeps {s0 : State} (s : State) (f : Nat) (len : Nat) (hk : Keeps s0 s) : Keeps s0 (hbmRead s f len).2.2 := by
  unfold hbmRead
  repeat' first
    | assumption
    | (with_reducible refine keeps_foldl _ _ (fun _ _ _ => ?_) _ ?_)
    | (with_reducible refine keeps_foldl_1 _ _ _ (fun _ _ _ => ?_) ?_)
    | (with_reducible refine keeps_foldl_2 _ _ _ (fun _ _ _ => ?_) ?_)
    | (with_reducible refine keeps_foldl_22 _ _ _ (fun _ _ _ => ?_) ?_)
    | (with_reducible refine keeps_foldl_21 _ _ _ (fun _ _ _ => ?_) ?_)
    | (with_reducible refine keeps_foldl_221 _ _ _ (fun _ _ _ => ?_) ?_)
    | (with_reducible refine keeps_foldl_222 _ _ _ (fun _ _ _ => ?_) ?_)
    | (simp (maxDischargeDepth := 40) only [Keeps.refl, keeps_mk, keeps_ite, outKeeps_next, outKeeps_ite, bodyKeeps_retire, bodyKeeps_exc, bodyKeeps_wait, bodyKeeps_stay, bodyKeeps_gone, bodyKeeps_posted, bodyKeeps_ite, countEcc_keeps, patStore_keeps, *]; done)
    | split
    | (dsimp only)

@[simp] theorem hbmMerge_keeps {s0 : State} (s : State) (f : Nat) (len : Nat) (hk : Keeps s0 s) : Keeps s0 (hbmMerge s f len).2 := by
  unfold hbmMerge
  refine keeps_foldl_2 _ _ _ (fun t e k => ?_) hk
  split
  · exact k
  · dsimp only
    have q := countEcc_keeps t.2 e.1 (rsDecode e.2) k
    split
    · exact keeps_mem q rfl (fun i => patApply_wf i _ _ _) id id id
    · exact keeps_mem q rfl (fun i => patApply_wf i _ _ _) id id id
    · exact q

@[simp] theorem hbmWrite_keeps {s0 : State} (s : State) (f : Nat) (len : Nat) (src : Mem) (hk : Keeps s0 s) : Keeps s0 (hbmWrite s f len src).2 := by
  unfold hbmWrite
  split
  · exact keeps_mem hk rfl (fun k => memWf_blit k _ _ _) id id id
  · dsimp only
    split
    · exact keeps_mem (hbmMerge_keeps s f len hk) rfl (fun k => memWf_blit k _ _ _) id id id
    · exact hbmMerge_keeps s f len hk

@[simp] theorem tsStore_keeps {s0 : State} (s : State) (word : Nat) (e : BitVec 72) (hk : Keeps s0 s) : Keeps s0 (tsStore s word e) := by
  unfold tsStore
  simp (maxDischargeDepth := 40) only [Keeps.refl, keeps_mk, keeps_ite, outKeeps_next, outKeeps_ite, bodyKeeps_retire, bodyKeeps_exc, bodyKeeps_wait, bodyKeeps_stay, bodyKeeps_gone, bodyKeeps_posted, bodyKeeps_ite, *]

@[simp] theorem tsCount_keeps {s0 : State} (s : State) (word : Nat) (o : EccOut) (hk : Keeps s0 s) : Keeps s0 (tsCount s word o) := by
  unfold tsCount
  repeat' first
    | assumption
    | (with_reducible refine keeps_foldl _ _ (fun _ _ _ => ?_) _ ?_)
    | (with_reducible refine keeps_foldl_1 _ _ _ (fun _ _ _ => ?_) ?_)
    | (with_reducible refine keeps_foldl_2 _ _ _ (fun _ _ _ => ?_) ?_)
    | (with_reducible refine keeps_foldl_22 _ _ _ (fun _ _ _ => ?_) ?_)
    | (with_reducible refine keeps_foldl_21 _ _ _ (fun _ _ _ => ?_) ?_)
    | (with_reducible refine keeps_foldl_221 _ _ _ (fun _ _ _ => ?_) ?_)
    | (with_reducible refine keeps_foldl_222 _ _ _ (fun _ _ _ => ?_) ?_)
    | (simp (maxDischargeDepth := 40) only [Keeps.refl, keeps_mk, keeps_ite, outKeeps_next, outKeeps_ite, bodyKeeps_retire, bodyKeeps_exc, bodyKeeps_wait, bodyKeeps_stay, bodyKeeps_gone, bodyKeeps_posted, bodyKeeps_ite, addTrouble_keeps, *]; done)
    | split
    | (dsimp only)

@[simp] theorem tsRead_keeps {s0 : State} (s : State) (slot : Nat) (off : Nat) (len : Nat) (hk : Keeps s0 s) : Keeps s0 (tsRead s slot off len).2.2 := by
  unfold tsRead
  repeat' first
    | assumption
    | (with_reducible refine keeps_foldl _ _ (fun _ _ _ => ?_) _ ?_)
    | (with_reducible refine keeps_foldl_1 _ _ _ (fun _ _ _ => ?_) ?_)
    | (with_reducible refine keeps_foldl_2 _ _ _ (fun _ _ _ => ?_) ?_)
    | (with_reducible refine keeps_foldl_22 _ _ _ (fun _ _ _ => ?_) ?_)
    | (with_reducible refine keeps_foldl_21 _ _ _ (fun _ _ _ => ?_) ?_)
    | (with_reducible refine keeps_foldl_221 _ _ _ (fun _ _ _ => ?_) ?_)
    | (with_reducible refine keeps_foldl_222 _ _ _ (fun _ _ _ => ?_) ?_)
    | (simp (maxDischargeDepth := 40) only [Keeps.refl, keeps_mk, keeps_ite, outKeeps_next, outKeeps_ite, bodyKeeps_retire, bodyKeeps_exc, bodyKeeps_wait, bodyKeeps_stay, bodyKeeps_gone, bodyKeeps_posted, bodyKeeps_ite, tsStore_keeps, tsCount_keeps, *]; done)
    | split
    | (dsimp only)

@[simp] theorem tsMerge_keeps {s0 : State} (s : State) (a : Nat) (len : Nat) (hk : Keeps s0 s) : Keeps s0 (tsMerge s a len).2 := by
  unfold tsMerge
  refine keeps_foldl_2 _ _ _ (fun t e k => ?_) hk
  split
  · exact k
  · dsimp only
    have q := tsCount_keeps t.2 e.1 (tsDecode e.2) k
    split
    · refine keeps_mem q rfl id ?_ id id
      intro i
      exact tsApply_wf (m := (tsCount t.2 e.1 (tsDecode e.2)).ts) i 0 e.1 _
    · refine keeps_mem q rfl id ?_ id id
      intro i
      exact tsApply_wf (m := (tsCount t.2 e.1 (tsDecode e.2)).ts) i 0 e.1 _
    · exact q

@[simp] theorem tsWrite_keeps {s0 : State} (s : State) (slot : Nat) (off : Nat) (len : Nat) (src : Mem) (hk : Keeps s0 s) : Keeps s0 (tsWrite s slot off len src).2 := by
  unfold tsWrite
  dsimp only
  split
  · exact keeps_mem hk rfl id (fun k => memWf_blit k _ _ _) id id
  · split
    · exact keeps_mem (tsMerge_keeps s _ len hk) rfl id (fun k => memWf_blit k _ _ _) id id
    · exact tsMerge_keeps s _ len hk

@[simp] theorem tsFill_keeps {s0 : State} (s : State) (slot : Nat) (hk : Keeps s0 s) : Keeps s0 (tsFill s slot) := by
  unfold tsFill
  exact keeps_mem hk rfl id (fun k => memWf_blit k _ _ _) id id

@[simp] theorem ctrSet_keeps {s0 : State} (s : State) (k : Nat) (v : Word) (hk : Keeps s0 s) : Keeps s0 (ctrSet s k v) := by
  unfold ctrSet
  exact keeps_mem hk rfl id id id fun k => tabWf_set k _ _

@[simp] theorem jobUpd_keeps {s0 : State} (s : State) (j : BitVec 16) (f : Job → Job) (hk : Keeps s0 s) : Keeps s0 (jobUpd s j f) := by
  unfold jobUpd
  simp (maxDischargeDepth := 40) only [Keeps.refl, keeps_mk, keeps_ite, outKeeps_next, outKeeps_ite, bodyKeeps_retire, bodyKeeps_exc, bodyKeeps_wait, bodyKeeps_stay, bodyKeeps_gone, bodyKeeps_posted, bodyKeeps_ite, *]

@[simp] theorem ctrAdd_keeps {s0 : State} (s : State) (k : Nat) (amt : Word) (hk : Keeps s0 s) : Keeps s0 (ctrAdd s k amt) := by
  unfold ctrAdd
  simp (maxDischargeDepth := 40) only [Keeps.refl, keeps_mk, keeps_ite, outKeeps_next, outKeeps_ite, bodyKeeps_retire, bodyKeeps_exc, bodyKeeps_wait, bodyKeeps_stay, bodyKeeps_gone, bodyKeeps_posted, bodyKeeps_ite, ctrSet_keeps, *]

@[simp] theorem ctrAddTagged_keeps {s0 : State} (s : State) (k : Nat) (amt : Word) (t : Tag) (j : BitVec 16) (hk : Keeps s0 s) : Keeps s0 (ctrAddTagged s k amt t j) := by
  unfold ctrAddTagged
  simp (maxDischargeDepth := 40) only [Keeps.refl, keeps_mk, keeps_ite, outKeeps_next, outKeeps_ite, bodyKeeps_retire, bodyKeeps_exc, bodyKeeps_wait, bodyKeeps_stay, bodyKeeps_gone, bodyKeeps_posted, bodyKeeps_ite, ctrAdd_keeps, *]

@[simp] theorem partRead_keeps {s0 : State} (s : State) (pa : Nat) (len : Nat) (hk : Keeps s0 s) : Keeps s0 (partRead s pa len).2.2 := by
  unfold partRead
  repeat' first
    | assumption
    | (with_reducible refine keeps_foldl _ _ (fun _ _ _ => ?_) _ ?_)
    | (with_reducible refine keeps_foldl_1 _ _ _ (fun _ _ _ => ?_) ?_)
    | (with_reducible refine keeps_foldl_2 _ _ _ (fun _ _ _ => ?_) ?_)
    | (with_reducible refine keeps_foldl_22 _ _ _ (fun _ _ _ => ?_) ?_)
    | (with_reducible refine keeps_foldl_21 _ _ _ (fun _ _ _ => ?_) ?_)
    | (with_reducible refine keeps_foldl_221 _ _ _ (fun _ _ _ => ?_) ?_)
    | (with_reducible refine keeps_foldl_222 _ _ _ (fun _ _ _ => ?_) ?_)
    | (simp (maxDischargeDepth := 40) only [Keeps.refl, keeps_mk, keeps_ite, outKeeps_next, outKeeps_ite, bodyKeeps_retire, bodyKeeps_exc, bodyKeeps_wait, bodyKeeps_stay, bodyKeeps_gone, bodyKeeps_posted, bodyKeeps_ite, hbmRead_keeps, tsRead_keeps, *]; done)
    | split
    | (dsimp only)

@[simp] theorem partWrite_keeps {s0 : State} (s : State) (pa : Nat) (len : Nat) (src : Mem) (hk : Keeps s0 s) : Keeps s0 (partWrite s pa len src).2 := by
  unfold partWrite
  repeat' first
    | assumption
    | (with_reducible refine keeps_foldl _ _ (fun _ _ _ => ?_) _ ?_)
    | (with_reducible refine keeps_foldl_1 _ _ _ (fun _ _ _ => ?_) ?_)
    | (with_reducible refine keeps_foldl_2 _ _ _ (fun _ _ _ => ?_) ?_)
    | (with_reducible refine keeps_foldl_22 _ _ _ (fun _ _ _ => ?_) ?_)
    | (with_reducible refine keeps_foldl_21 _ _ _ (fun _ _ _ => ?_) ?_)
    | (with_reducible refine keeps_foldl_221 _ _ _ (fun _ _ _ => ?_) ?_)
    | (with_reducible refine keeps_foldl_222 _ _ _ (fun _ _ _ => ?_) ?_)
    | (simp (maxDischargeDepth := 40) only [Keeps.refl, keeps_mk, keeps_ite, outKeeps_next, outKeeps_ite, bodyKeeps_retire, bodyKeeps_exc, bodyKeeps_wait, bodyKeeps_stay, bodyKeeps_gone, bodyKeeps_posted, bodyKeeps_ite, hbmWrite_keeps, tsWrite_keeps, *]; done)
    | split
    | (dsimp only)

@[simp] theorem physRead_keeps {s0 : State} (s : State) (pa : Nat) (len : Nat) (hk : Keeps s0 s) : Keeps s0 (physRead s pa len).2.2 := by
  unfold physRead
  repeat' first
    | assumption
    | (with_reducible refine keeps_foldl _ _ (fun _ _ _ => ?_) _ ?_)
    | (with_reducible refine keeps_foldl_1 _ _ _ (fun _ _ _ => ?_) ?_)
    | (with_reducible refine keeps_foldl_2 _ _ _ (fun _ _ _ => ?_) ?_)
    | (with_reducible refine keeps_foldl_22 _ _ _ (fun _ _ _ => ?_) ?_)
    | (with_reducible refine keeps_foldl_21 _ _ _ (fun _ _ _ => ?_) ?_)
    | (with_reducible refine keeps_foldl_221 _ _ _ (fun _ _ _ => ?_) ?_)
    | (with_reducible refine keeps_foldl_222 _ _ _ (fun _ _ _ => ?_) ?_)
    | (simp (maxDischargeDepth := 40) only [Keeps.refl, keeps_mk, keeps_ite, outKeeps_next, outKeeps_ite, bodyKeeps_retire, bodyKeeps_exc, bodyKeeps_wait, bodyKeeps_stay, bodyKeeps_gone, bodyKeeps_posted, bodyKeeps_ite, partRead_keeps, *]; done)
    | split
    | (dsimp only)

@[simp] theorem physWrite_keeps {s0 : State} (s : State) (pa : Nat) (len : Nat) (src : Mem) (hk : Keeps s0 s) : Keeps s0 (physWrite s pa len src).2 := by
  unfold physWrite
  repeat' first
    | assumption
    | (with_reducible refine keeps_foldl _ _ (fun _ _ _ => ?_) _ ?_)
    | (with_reducible refine keeps_foldl_1 _ _ _ (fun _ _ _ => ?_) ?_)
    | (with_reducible refine keeps_foldl_2 _ _ _ (fun _ _ _ => ?_) ?_)
    | (with_reducible refine keeps_foldl_22 _ _ _ (fun _ _ _ => ?_) ?_)
    | (with_reducible refine keeps_foldl_21 _ _ _ (fun _ _ _ => ?_) ?_)
    | (with_reducible refine keeps_foldl_221 _ _ _ (fun _ _ _ => ?_) ?_)
    | (with_reducible refine keeps_foldl_222 _ _ _ (fun _ _ _ => ?_) ?_)
    | (simp (maxDischargeDepth := 40) only [Keeps.refl, keeps_mk, keeps_ite, outKeeps_next, outKeeps_ite, bodyKeeps_retire, bodyKeeps_exc, bodyKeeps_wait, bodyKeeps_stay, bodyKeeps_gone, bodyKeeps_posted, bodyKeeps_ite, partWrite_keeps, *]; done)
    | split
    | (dsimp only)

@[simp] theorem piecesRead_keeps {s0 : State} (s : State) (ps : List (Nat × Nat)) (hk : Keeps s0 s) : Keeps s0 (piecesRead s ps).2.2 := by
  unfold piecesRead
  repeat' first
    | assumption
    | (with_reducible refine keeps_foldl _ _ (fun _ _ _ => ?_) _ ?_)
    | (with_reducible refine keeps_foldl_1 _ _ _ (fun _ _ _ => ?_) ?_)
    | (with_reducible refine keeps_foldl_2 _ _ _ (fun _ _ _ => ?_) ?_)
    | (with_reducible refine keeps_foldl_22 _ _ _ (fun _ _ _ => ?_) ?_)
    | (with_reducible refine keeps_foldl_21 _ _ _ (fun _ _ _ => ?_) ?_)
    | (with_reducible refine keeps_foldl_221 _ _ _ (fun _ _ _ => ?_) ?_)
    | (with_reducible refine keeps_foldl_222 _ _ _ (fun _ _ _ => ?_) ?_)
    | (simp (maxDischargeDepth := 40) only [Keeps.refl, keeps_mk, keeps_ite, outKeeps_next, outKeeps_ite, bodyKeeps_retire, bodyKeeps_exc, bodyKeeps_wait, bodyKeeps_stay, bodyKeeps_gone, bodyKeeps_posted, bodyKeeps_ite, physRead_keeps, *]; done)
    | split
    | (dsimp only)

@[simp] theorem piecesWrite_keeps {s0 : State} (s : State) (ps : List (Nat × Nat)) (src : Mem) (hk : Keeps s0 s) : Keeps s0 (piecesWrite s ps src).2 := by
  unfold piecesWrite
  repeat' first
    | assumption
    | (with_reducible refine keeps_foldl _ _ (fun _ _ _ => ?_) _ ?_)
    | (with_reducible refine keeps_foldl_1 _ _ _ (fun _ _ _ => ?_) ?_)
    | (with_reducible refine keeps_foldl_2 _ _ _ (fun _ _ _ => ?_) ?_)
    | (with_reducible refine keeps_foldl_22 _ _ _ (fun _ _ _ => ?_) ?_)
    | (with_reducible refine keeps_foldl_21 _ _ _ (fun _ _ _ => ?_) ?_)
    | (with_reducible refine keeps_foldl_221 _ _ _ (fun _ _ _ => ?_) ?_)
    | (with_reducible refine keeps_foldl_222 _ _ _ (fun _ _ _ => ?_) ?_)
    | (simp (maxDischargeDepth := 40) only [Keeps.refl, keeps_mk, keeps_ite, outKeeps_next, outKeeps_ite, bodyKeeps_retire, bodyKeeps_exc, bodyKeeps_wait, bodyKeeps_stay, bodyKeeps_gone, bodyKeeps_posted, bodyKeeps_ite, physWrite_keeps, *]; done)
    | split
    | (dsimp only)

@[simp] theorem physNat_keeps {s0 : State} (s : State) (pa : Nat) (n : Nat) (hk : Keeps s0 s) : Keeps s0 (physNat s pa n).2.2 := by
  unfold physNat
  simp (maxDischargeDepth := 40) only [Keeps.refl, keeps_mk, keeps_ite, outKeeps_next, outKeeps_ite, bodyKeeps_retire, bodyKeeps_exc, bodyKeeps_wait, bodyKeeps_stay, bodyKeeps_gone, bodyKeeps_posted, bodyKeeps_ite, physRead_keeps, *]

@[simp] theorem physPut_keeps {s0 : State} (s : State) (pa : Nat) (b : Bytes) (hk : Keeps s0 s) : Keeps s0 (physPut s pa b).2 := by
  unfold physPut
  simp (maxDischargeDepth := 40) only [Keeps.refl, keeps_mk, keeps_ite, outKeeps_next, outKeeps_ite, bodyKeeps_retire, bodyKeeps_exc, bodyKeeps_wait, bodyKeeps_stay, bodyKeeps_gone, bodyKeeps_posted, bodyKeeps_ite, physWrite_keeps, *]

@[simp] theorem xlCtx_keeps {s0 : State} (s : State) (c : Ctx) (va : Word) (a : Acc) (hk : Keeps s0 s) : Keeps s0 (xlCtx s c va a).2.2 := by
  unfold xlCtx
  repeat' first
    | assumption
    | (with_reducible refine keeps_foldl _ _ (fun _ _ _ => ?_) _ ?_)
    | (with_reducible refine keeps_foldl_1 _ _ _ (fun _ _ _ => ?_) ?_)
    | (with_reducible refine keeps_foldl_2 _ _ _ (fun _ _ _ => ?_) ?_)
    | (with_reducible refine keeps_foldl_22 _ _ _ (fun _ _ _ => ?_) ?_)
    | (with_reducible refine keeps_foldl_21 _ _ _ (fun _ _ _ => ?_) ?_)
    | (with_reducible refine keeps_foldl_221 _ _ _ (fun _ _ _ => ?_) ?_)
    | (with_reducible refine keeps_foldl_222 _ _ _ (fun _ _ _ => ?_) ?_)
    | (simp (maxDischargeDepth := 40) only [Keeps.refl, keeps_mk, keeps_ite, outKeeps_next, outKeeps_ite, bodyKeeps_retire, bodyKeeps_exc, bodyKeeps_wait, bodyKeeps_stay, bodyKeeps_gone, bodyKeeps_posted, bodyKeeps_ite, *]; done)
    | split
    | (dsimp only)

@[simp] theorem xlRangeCtx_keeps {s0 : State} (a : Acc) (y1 : Nat) (y2 : State) (y3 : Ctx) (y4 : Nat) (y5 : Nat) (y6 : List (Nat × Nat)) (hk : Keeps s0 y2) : Keeps s0 (xlRangeCtx a y1 y2 y3 y4 y5 y6).2.2 := by
  induction y1 generalizing y2 y3 y4 y5 y6 with
  | zero => exact hk
  | succ n ih =>
    unfold xlRangeCtx
    split
    · exact hk
    · dsimp only
      have q := xlCtx_keeps y2 y3 (BitVec.ofNat 64 y4) a hk
      split
      · exact ih _ _ _ _ _ q
      · exact q

@[simp] theorem xlSpan_keeps {s0 : State} (s : State) (c : Ctx) (va : Word) (len : Nat) (a : Acc) (hk : Keeps s0 s) : Keeps s0 (xlSpan s c va len a).2.2 := by
  unfold xlSpan
  simp (maxDischargeDepth := 40) only [Keeps.refl, keeps_mk, keeps_ite, outKeeps_next, outKeeps_ite, bodyKeeps_retire, bodyKeeps_exc, bodyKeeps_wait, bodyKeeps_stay, bodyKeeps_gone, bodyKeeps_posted, bodyKeeps_ite, xlRangeCtx_keeps, *]

@[simp] theorem freeCells_keeps {s0 : State} (s : State) (n : Nat) (hk : Keeps s0 s) : Keeps s0 (freeCells s n).2 := by
  unfold freeCells
  simp (maxDischargeDepth := 40) only [Keeps.refl, keeps_mk, keeps_ite, outKeeps_next, outKeeps_ite, bodyKeeps_retire, bodyKeeps_exc, bodyKeeps_wait, bodyKeeps_stay, bodyKeeps_gone, bodyKeeps_posted, bodyKeeps_ite, *]

@[simp] theorem send_keeps {s0 : State} (s : State) (o : Out) (hk : Keeps s0 s) : Keeps s0 (send s o) := by
  unfold send
  simp (maxDischargeDepth := 40) only [Keeps.refl, keeps_mk, keeps_ite, outKeeps_next, outKeeps_ite, bodyKeeps_retire, bodyKeeps_exc, bodyKeeps_wait, bodyKeeps_stay, bodyKeeps_gone, bodyKeeps_posted, bodyKeeps_ite, *]

end Sys2Proof.Machine
end

