-- ==== Sys2Proof/Laws/Keeps/Pools.lean ====
section
/-! SUPPORT. The operations of Machine/Pools.lean keep the queue of waiting commands and the canonical form of the memories. -/

namespace Sys2Proof.Machine

set_option linter.unusedSimpArgs false

@[simp] theorem poolSet_keeps {s0 : State} (s : State) (p : Nat) (x : Pool) (hk : Keeps s0 s) : Keeps s0 (poolSet s p x) := by
  unfold poolSet
  simp (maxDischargeDepth := 40) only [Keeps.refl, keeps_mk, keeps_ite, outKeeps_next, outKeeps_ite, bodyKeeps_retire, bodyKeeps_exc, bodyKeeps_wait, bodyKeeps_stay, bodyKeeps_gone, bodyKeeps_posted, bodyKeeps_ite, *]

@[simp] theorem poolUpd_keeps {s0 : State} (s : State) (p : Nat) (f : Pool → Pool) (hk : Keeps s0 s) : Keeps s0 (poolUpd s p f) := by
  unfold poolUpd
  simp (maxDischargeDepth := 40) only [Keeps.refl, keeps_mk, keeps_ite, outKeeps_next, outKeeps_ite, bodyKeeps_retire, bodyKeeps_exc, bodyKeeps_wait, bodyKeeps_stay, bodyKeeps_gone, bodyKeeps_posted, bodyKeeps_ite, poolSet_keeps, *]

@[simp] theorem tdcCount_keeps {s0 : State} (s : State) (u : Nat) (hk : Keeps s0 s) : Keeps s0 (tdcCount s u) := by
  unfold tdcCount
  simp (maxDischargeDepth := 40) only [Keeps.refl, keeps_mk, keeps_ite, outKeeps_next, outKeeps_ite, bodyKeeps_retire, bodyKeeps_exc, bodyKeeps_wait, bodyKeeps_stay, bodyKeeps_gone, bodyKeeps_posted, bodyKeeps_ite, unitSet_keeps, *]

@[simp] theorem quotaRead_keeps {s0 : State} (s : State) (q : Nat) (p : Nat) (hk : Keeps s0 s) : Keeps s0 (quotaRead s q p).2.2.2 := by
  unfold quotaRead
  simp (maxDischargeDepth := 40) only [Keeps.refl, keeps_mk, keeps_ite, outKeeps_next, outKeeps_ite, bodyKeeps_retire, bodyKeeps_exc, bodyKeeps_wait, bodyKeeps_stay, bodyKeeps_gone, bodyKeeps_posted, bodyKeeps_ite, physNat_keeps, *]

@[simp] theorem heldWrite_keeps {s0 : State} (s : State) (q : Nat) (p : Nat) (held : Nat) (hk : Keeps s0 s) : Keeps s0 (heldWrite s q p held) := by
  unfold heldWrite
  simp (maxDischargeDepth := 40) only [Keeps.refl, keeps_mk, keeps_ite, outKeeps_next, outKeeps_ite, bodyKeeps_retire, bodyKeeps_exc, bodyKeeps_wait, bodyKeeps_stay, bodyKeeps_gone, bodyKeeps_posted, bodyKeeps_ite, physPut_keeps, ownFail_keeps, *]

@[simp] theorem allocGo_keeps {s0 : State} (f : Nat) (s : State) (p q : Nat) (hk : Keeps s0 s) : Keeps s0 (allocGo f s p q).2 := by
  induction f generalizing s with
  | zero => exact hk
  | succ f ih =>
    unfold allocGo
    dsimp only
    generalize (if (poolGet s p).fresh < (poolGet s p).count.toNat then some ((poolGet s p).fresh, ({ poolGet s p with fresh := (poolGet s p).fresh + 1 } : Pool)) else match (poolGet s p).freed with
        | [] => none
        | i :: r => some (i, { poolGet s p with freed := r })) = pop
    rcases pop with _ | ⟨i, x1⟩
    · exact hk
    · dsimp only
      have h1 := physNat_keeps (poolSet s p (poolRelevel x1)) (stateAddr (poolGet s p) i) 8 (poolSet_keeps s p (poolRelevel x1) hk)
      generalize physNat (poolSet s p (poolRelevel x1)) (stateAddr (poolGet s p) i) 8 = r at h1 ⊢
      have h2 : Keeps s0 (if r.1 = stOk then physPut r.2.2 (stateAddr (poolGet s p) i) (leBytes 8 (mkStateWord 1 (bitsAt r.2.1 16 24) q true)) else (r.1, r.2.2)).2 := by
        split
        · exact physPut_keeps _ _ _ h1
        · exact h1
      generalize (if r.1 = stOk then physPut r.2.2 (stateAddr (poolGet s p) i) (leBytes 8 (mkStateWord 1 (bitsAt r.2.1 16 24) q true)) else (r.1, r.2.2)) = w at h2 ⊢
      split
      · exact h2
      · exact ih _ (ownFail_keeps _ _ _ _ (poolUpd_keeps _ _ _ h2))

@[simp] theorem alloc_keeps {s0 : State} (s : State) (p : Nat) (q : Nat) (hk : Keeps s0 s) : Keeps s0 (alloc s p q).2 := by
  unfold alloc
  repeat' first
    | assumption
    | (with_reducible refine keeps_foldl _ _ (fun _ _ _ => ?_) _ ?_)
    | (with_reducible refine keeps_foldl_1 _ _ _ (fun _ _ _ => ?_) ?_)
    | (with_reducible refine keeps_foldl_2 _ _ _ (fun _ _ _ => ?_) ?_)
    | (with_reducible refine keeps_foldl_22 _ _ _ (fun _ _ _ => ?_) ?_)
    | (with_reducible refine keeps_foldl_21 _ _ _ (fun _ _ _ => ?_) ?_)
    | (with_reducible refine keeps_foldl_221 _ _ _ (fun _ _ _ => ?_) ?_)
    | (with_reducible refine keeps_foldl_222 _ _ _ (fun _ _ _ => ?_) ?_)
    | (simp (maxDischargeDepth := 40) only [Keeps.refl, keeps_mk, keeps_ite, outKeeps_next, outKeeps_ite, bodyKeeps_retire, bodyKeeps_exc, bodyKeeps_wait, bodyKeeps_stay, bodyKeeps_gone, bodyKeeps_posted, bodyKeeps_ite, ownFail_keeps, quotaRead_keeps, allocGo_keeps, heldWrite_keeps, *]; done)
    | split
    | (dsimp only)

@[simp] theorem handleRead_keeps {s0 : State} (s : State) (h : Word) (hk : Keeps s0 s) : Keeps s0 (handleRead s h).2 := by
  unfold handleRead
  repeat' first
    | assumption
    | (with_reducible refine keeps_foldl _ _ (fun _ _ _ => ?_) _ ?_)
    | (with_reducible refine keeps_foldl_1 _ _ _ (fun _ _ _ => ?_) ?_)
    | (with_reducible refine keeps_foldl_2 _ _ _ (fun _ _ _ => ?_) ?_)
    | (with_reducible refine keeps_foldl_22 _ _ _ (fun _ _ _ => ?_) ?_)
    | (with_reducible refine keeps_foldl_21 _ _ _ (fun _ _ _ => ?_) ?_)
    | (with_reducible refine keeps_foldl_221 _ _ _ (fun _ _ _ => ?_) ?_)
    | (with_reducible refine keeps_foldl_222 _ _ _ (fun _ _ _ => ?_) ?_)
    | (simp (maxDischargeDepth := 40) only [Keeps.refl, keeps_mk, keeps_ite, outKeeps_next, outKeeps_ite, bodyKeeps_retire, bodyKeeps_exc, bodyKeeps_wait, bodyKeeps_stay, bodyKeeps_gone, bodyKeeps_posted, bodyKeeps_ite, ownFail_keeps, physNat_keeps, *]; done)
    | split
    | (dsimp only)

@[simp] theorem stateWrite_keeps {s0 : State} (s : State) (h : Word) (w : Nat) (hk : Keeps s0 s) : Keeps s0 (stateWrite s h w).2 := by
  unfold stateWrite
  repeat' first
    | assumption
    | (with_reducible refine keeps_foldl _ _ (fun _ _ _ => ?_) _ ?_)
    | (with_reducible refine keeps_foldl_1 _ _ _ (fun _ _ _ => ?_) ?_)
    | (with_reducible refine keeps_foldl_2 _ _ _ (fun _ _ _ => ?_) ?_)
    | (with_reducible refine keeps_foldl_22 _ _ _ (fun _ _ _ => ?_) ?_)
    | (with_reducible refine keeps_foldl_21 _ _ _ (fun _ _ _ => ?_) ?_)
    | (with_reducible refine keeps_foldl_221 _ _ _ (fun _ _ _ => ?_) ?_)
    | (with_reducible refine keeps_foldl_222 _ _ _ (fun _ _ _ => ?_) ?_)
    | (simp (maxDischargeDepth := 40) only [Keeps.refl, keeps_mk, keeps_ite, outKeeps_next, outKeeps_ite, bodyKeeps_retire, bodyKeeps_exc, bodyKeeps_wait, bodyKeeps_stay, bodyKeeps_gone, bodyKeeps_posted, bodyKeeps_ite, physPut_keeps, ownFail_keeps, *]; done)
    | split
    | (dsimp only)

@[simp] theorem bufFree_keeps {s0 : State} (s : State) (h : Word) (quota : Nat) (hk : Keeps s0 s) : Keeps s0 (bufFree s h quota).2 := by
  unfold bufFree
  repeat' first
    | assumption
    | (with_reducible refine keeps_foldl _ _ (fun _ _ _ => ?_) _ ?_)
    | (with_reducible refine keeps_foldl_1 _ _ _ (fun _ _ _ => ?_) ?_)
    | (with_reducible refine keeps_foldl_2 _ _ _ (fun _ _ _ => ?_) ?_)
    | (with_reducible refine keeps_foldl_22 _ _ _ (fun _ _ _ => ?_) ?_)
    | (with_reducible refine keeps_foldl_21 _ _ _ (fun _ _ _ => ?_) ?_)
    | (with_reducible refine keeps_foldl_221 _ _ _ (fun _ _ _ => ?_) ?_)
    | (with_reducible refine keeps_foldl_222 _ _ _ (fun _ _ _ => ?_) ?_)
    | (simp (maxDischargeDepth := 40) only [Keeps.refl, keeps_mk, keeps_ite, outKeeps_next, outKeeps_ite, bodyKeeps_retire, bodyKeeps_exc, bodyKeeps_wait, bodyKeeps_stay, bodyKeeps_gone, bodyKeeps_posted, bodyKeeps_ite, bumpEvent_keeps, ownFail_keeps, quotaRead_keeps, poolUpd_keeps, heldWrite_keeps, stateWrite_keeps, *]; done)
    | split
    | (dsimp only)

@[simp] theorem handleRelease_keeps {s0 : State} (s : State) (h : Word) (hk : Keeps s0 s) : Keeps s0 (handleRelease s h).2 := by
  unfold handleRelease
  repeat' first
    | assumption
    | (with_reducible refine keeps_foldl _ _ (fun _ _ _ => ?_) _ ?_)
    | (with_reducible refine keeps_foldl_1 _ _ _ (fun _ _ _ => ?_) ?_)
    | (with_reducible refine keeps_foldl_2 _ _ _ (fun _ _ _ => ?_) ?_)
    | (with_reducible refine keeps_foldl_22 _ _ _ (fun _ _ _ => ?_) ?_)
    | (with_reducible refine keeps_foldl_21 _ _ _ (fun _ _ _ => ?_) ?_)
    | (with_reducible refine keeps_foldl_221 _ _ _ (fun _ _ _ => ?_) ?_)
    | (with_reducible refine keeps_foldl_222 _ _ _ (fun _ _ _ => ?_) ?_)
    | (simp (maxDischargeDepth := 40) only [Keeps.refl, keeps_mk, keeps_ite, outKeeps_next, outKeeps_ite, bodyKeeps_retire, bodyKeeps_exc, bodyKeeps_wait, bodyKeeps_stay, bodyKeeps_gone, bodyKeeps_posted, bodyKeeps_ite, handleRead_keeps, stateWrite_keeps, bufFree_keeps, *]; done)
    | split
    | (dsimp only)

@[simp] theorem handleRef_keeps {s0 : State} (s : State) (h : Word) (n : Nat) (hk : Keeps s0 s) : Keeps s0 (handleRef s h n).2 := by
  unfold handleRef
  repeat' first
    | assumption
    | (with_reducible refine keeps_foldl _ _ (fun _ _ _ => ?_) _ ?_)
    | (with_reducible refine keeps_foldl_1 _ _ _ (fun _ _ _ => ?_) ?_)
    | (with_reducible refine keeps_foldl_2 _ _ _ (fun _ _ _ => ?_) ?_)
    | (with_reducible refine keeps_foldl_22 _ _ _ (fun _ _ _ => ?_) ?_)
    | (with_reducible refine keeps_foldl_21 _ _ _ (fun _ _ _ => ?_) ?_)
    | (with_reducible refine keeps_foldl_221 _ _ _ (fun _ _ _ => ?_) ?_)
    | (with_reducible refine keeps_foldl_222 _ _ _ (fun _ _ _ => ?_) ?_)
    | (simp (maxDischargeDepth := 40) only [Keeps.refl, keeps_mk, keeps_ite, outKeeps_next, outKeeps_ite, bodyKeeps_retire, bodyKeeps_exc, bodyKeeps_wait, bodyKeeps_stay, bodyKeeps_gone, bodyKeeps_posted, bodyKeeps_ite, handleRead_keeps, stateWrite_keeps, *]; done)
    | split
    | (dsimp only)

end Sys2Proof.Machine
end

