-- ==== Sys2Proof/Laws/Keeps/Context.lean ====
section
/-! SUPPORT. The operations of Machine/Context.lean keep the queue of waiting commands and the canonical form of the memories. -/

namespace Sys2Proof.Machine

set_option linter.unusedSimpArgs false

@[simp] theorem engCount_keeps {s0 : State} (s : State) (off : Nat) (n : Nat) (hk : Keeps s0 s) : Keeps s0 (engCount s off n) := by
  unfold engCount
  simp (maxDischargeDepth := 40) only [Keeps.refl, keeps_mk, keeps_ite, outKeeps_next, outKeeps_ite, bodyKeeps_retire, bodyKeeps_exc, bodyKeeps_wait, bodyKeeps_stay, bodyKeeps_gone, bodyKeeps_posted, bodyKeeps_ite, bumpEvent_keeps, *]

@[simp] theorem frontRaise_keeps {s0 : State} (s : State) (src : Nat) (j : BitVec 16) (t : Tag) (hk : Keeps s0 s) : Keeps s0 (frontRaise s src j t) := by
  unfold frontRaise
  repeat' first
    | assumption
    | (with_reducible refine keeps_foldl _ _ (fun _ _ _ => ?_) _ ?_)
    | (with_reducible refine keeps_foldl_1 _ _ _ (fun _ _ _ => ?_) ?_)
    | (with_reducible refine keeps_foldl_2 _ _ _ (fun _ _ _ => ?_) ?_)
    | (with_reducible refine keeps_foldl_22 _ _ _ (fun _ _ _ => ?_) ?_)
    | (with_reducible refine keeps_foldl_21 _ _ _ (fun _ _ _ => ?_) ?_)
    | (with_reducible refine keeps_foldl_221 _ _ _ (fun _ _ _ => ?_) ?_)
    | (with_reducible refine keeps_foldl_222 _ _ _ (fun _ _ _ => ?_) ?_)
    | (simp (maxDischargeDepth := 40) only [Keeps.refl, keeps_mk, keeps_ite, outKeeps_next, outKeeps_ite, bodyKeeps_retire, bodyKeeps_exc, bodyKeeps_wait, bodyKeeps_stay, bodyKeeps_gone, bodyKeeps_posted, bodyKeeps_ite, *]; done)
    | split
    | (dsimp only)

@[simp] theorem frontSet_keeps {s0 : State} (s : State) (src : Nat) (j : BitVec 16) (t : Tag) (hk : Keeps s0 s) : Keeps s0 (frontSet s src j t) := by
  unfold frontSet
  simp (maxDischargeDepth := 40) only [Keeps.refl, keeps_mk, keeps_ite, outKeeps_next, outKeeps_ite, bodyKeeps_retire, bodyKeeps_exc, bodyKeeps_wait, bodyKeeps_stay, bodyKeeps_gone, bodyKeeps_posted, bodyKeeps_ite, *]

@[simp] theorem frontDrop_keeps {s0 : State} (s : State) (src : Nat) (hk : Keeps s0 s) : Keeps s0 (frontDrop s src) := by
  unfold frontDrop
  simp (maxDischargeDepth := 40) only [Keeps.refl, keeps_mk, keeps_ite, outKeeps_next, outKeeps_ite, bodyKeeps_retire, bodyKeeps_exc, bodyKeeps_wait, bodyKeeps_stay, bodyKeeps_gone, bodyKeeps_posted, bodyKeeps_ite, *]

@[simp] theorem tileSet_keeps {s0 : State} (s : State) (L : Nat) (t : Tile) (hk : Keeps s0 s) : Keeps s0 (tileSet s L t) := by
  unfold tileSet
  simp (maxDischargeDepth := 40) only [Keeps.refl, keeps_mk, keeps_ite, outKeeps_next, outKeeps_ite, bodyKeeps_retire, bodyKeeps_exc, bodyKeeps_wait, bodyKeeps_stay, bodyKeeps_gone, bodyKeeps_posted, bodyKeeps_ite, *]

@[simp] theorem tileUpd_keeps {s0 : State} (s : State) (L : Nat) (f : Tile → Tile) (hk : Keeps s0 s) : Keeps s0 (tileUpd s L f) := by
  unfold tileUpd
  simp (maxDischargeDepth := 40) only [Keeps.refl, keeps_mk, keeps_ite, outKeeps_next, outKeeps_ite, bodyKeeps_retire, bodyKeeps_exc, bodyKeeps_wait, bodyKeeps_stay, bodyKeeps_gone, bodyKeeps_posted, bodyKeeps_ite, tileSet_keeps, *]

@[simp] theorem ctxSet_keeps {s0 : State} (s : State) (L : Nat) (hw : Nat) (c : Ctx) (hk : Keeps s0 s) : Keeps s0 (ctxSet s L hw c) := by
  unfold ctxSet
  simp (maxDischargeDepth := 40) only [Keeps.refl, keeps_mk, keeps_ite, outKeeps_next, outKeeps_ite, bodyKeeps_retire, bodyKeeps_exc, bodyKeeps_wait, bodyKeeps_stay, bodyKeeps_gone, bodyKeeps_posted, bodyKeeps_ite, tileUpd_keeps, *]

@[simp] theorem ctxDel_keeps {s0 : State} (s : State) (L : Nat) (hw : Nat) (hk : Keeps s0 s) : Keeps s0 (ctxDel s L hw) := by
  unfold ctxDel
  simp (maxDischargeDepth := 40) only [Keeps.refl, keeps_mk, keeps_ite, outKeeps_next, outKeeps_ite, bodyKeeps_retire, bodyKeeps_exc, bodyKeeps_wait, bodyKeeps_stay, bodyKeeps_gone, bodyKeeps_posted, bodyKeeps_ite, tileUpd_keeps, *]

@[simp] theorem ctxUpd_keeps {s0 : State} (s : State) (sw : Nat) (f : Ctx → Ctx) (hk : Keeps s0 s) : Keeps s0 (ctxUpd s sw f) := by
  unfold ctxUpd
  repeat' first
    | assumption
    | (with_reducible refine keeps_foldl _ _ (fun _ _ _ => ?_) _ ?_)
    | (with_reducible refine keeps_foldl_1 _ _ _ (fun _ _ _ => ?_) ?_)
    | (with_reducible refine keeps_foldl_2 _ _ _ (fun _ _ _ => ?_) ?_)
    | (with_reducible refine keeps_foldl_22 _ _ _ (fun _ _ _ => ?_) ?_)
    | (with_reducible refine keeps_foldl_21 _ _ _ (fun _ _ _ => ?_) ?_)
    | (with_reducible refine keeps_foldl_221 _ _ _ (fun _ _ _ => ?_) ?_)
    | (with_reducible refine keeps_foldl_222 _ _ _ (fun _ _ _ => ?_) ?_)
    | (simp (maxDischargeDepth := 40) only [Keeps.refl, keeps_mk, keeps_ite, outKeeps_next, outKeeps_ite, bodyKeeps_retire, bodyKeeps_exc, bodyKeeps_wait, bodyKeeps_stay, bodyKeeps_gone, bodyKeeps_posted, bodyKeeps_ite, ctxSet_keeps, *]; done)
    | split
    | (dsimp only)

@[simp] theorem areaWrite_keeps {s0 : State} (s : State) (lo : Nat) (hi : Nat) (m : Mem) (hk : Keeps s0 s) : Keeps s0 (areaWrite s lo hi m).2 := by
  unfold areaWrite
  simp (maxDischargeDepth := 40) only [Keeps.refl, keeps_mk, keeps_ite, outKeeps_next, outKeeps_ite, bodyKeeps_retire, bodyKeeps_exc, bodyKeeps_wait, bodyKeeps_stay, bodyKeeps_gone, bodyKeeps_posted, bodyKeeps_ite, piecesWrite_keeps, *]

@[simp] theorem areaRead_keeps {s0 : State} (s : State) (lo : Nat) (hi : Nat) (hk : Keeps s0 s) : Keeps s0 (areaRead s lo hi).2.2 := by
  unfold areaRead
  simp (maxDischargeDepth := 40) only [Keeps.refl, keeps_mk, keeps_ite, outKeeps_next, outKeeps_ite, bodyKeeps_retire, bodyKeeps_exc, bodyKeeps_wait, bodyKeeps_stay, bodyKeeps_gone, bodyKeeps_posted, bodyKeeps_ite, piecesRead_keeps, *]

@[simp] theorem latchSaved_keeps {s0 : State} (s : State) (lo : Nat) (hi : Nat) (st : Status) (step : BitVec 28) (hk : Keeps s0 s) : Keeps s0 (latchSaved s lo hi st step) := by
  unfold latchSaved
  repeat' first
    | assumption
    | (with_reducible refine keeps_foldl _ _ (fun _ _ _ => ?_) _ ?_)
    | (with_reducible refine keeps_foldl_1 _ _ _ (fun _ _ _ => ?_) ?_)
    | (with_reducible refine keeps_foldl_2 _ _ _ (fun _ _ _ => ?_) ?_)
    | (with_reducible refine keeps_foldl_22 _ _ _ (fun _ _ _ => ?_) ?_)
    | (with_reducible refine keeps_foldl_21 _ _ _ (fun _ _ _ => ?_) ?_)
    | (with_reducible refine keeps_foldl_221 _ _ _ (fun _ _ _ => ?_) ?_)
    | (with_reducible refine keeps_foldl_222 _ _ _ (fun _ _ _ => ?_) ?_)
    | split
    | (simp (maxDischargeDepth := 40) only [Keeps.refl, keeps_mk, keeps_ite, outKeeps_next, outKeeps_ite, bodyKeeps_retire, bodyKeeps_exc, bodyKeeps_wait, bodyKeeps_stay, bodyKeeps_gone, bodyKeeps_posted, bodyKeeps_ite, areaWrite_keeps, areaRead_keeps, step_keeps, *]; done)
    | (with_reducible refine outKeeps_next ?_)
    | (with_reducible apply areaWrite_keeps)
    | (with_reducible apply areaRead_keeps)
    | (with_reducible apply step_keeps)
    | (with_reducible apply keeps_mk)
    | (with_reducible intro _ _)
    | (dsimp only)

@[simp] theorem latchFor_keeps {s0 : State} (s : State) (sw : Nat) (st : Status) (step : BitVec 28) (hk : Keeps s0 s) : Keeps s0 (latchFor s sw st step) := by
  unfold latchFor
  repeat' first
    | assumption
    | (with_reducible refine keeps_foldl _ _ (fun _ _ _ => ?_) _ ?_)
    | (with_reducible refine keeps_foldl_1 _ _ _ (fun _ _ _ => ?_) ?_)
    | (with_reducible refine keeps_foldl_2 _ _ _ (fun _ _ _ => ?_) ?_)
    | (with_reducible refine keeps_foldl_22 _ _ _ (fun _ _ _ => ?_) ?_)
    | (with_reducible refine keeps_foldl_21 _ _ _ (fun _ _ _ => ?_) ?_)
    | (with_reducible refine keeps_foldl_221 _ _ _ (fun _ _ _ => ?_) ?_)
    | (with_reducible refine keeps_foldl_222 _ _ _ (fun _ _ _ => ?_) ?_)
    | split
    | (simp (maxDischargeDepth := 40) only [Keeps.refl, keeps_mk, keeps_ite, outKeeps_next, outKeeps_ite, bodyKeeps_retire, bodyKeeps_exc, bodyKeeps_wait, bodyKeeps_stay, bodyKeeps_gone, bodyKeeps_posted, bodyKeeps_ite, latchSaved_keeps, ctxUpd_keeps, step_keeps, *]; done)
    | (with_reducible refine outKeeps_next ?_)
    | (with_reducible apply latchSaved_keeps)
    | (with_reducible apply ctxUpd_keeps)
    | (with_reducible apply step_keeps)
    | (with_reducible apply keeps_mk)
    | (with_reducible intro _ _)
    | (dsimp only)

@[simp] theorem gdArrive_keeps {s0 : State} (s : State) (sw : Nat) (op : Nat) (rd : Nat) (v : Word) (hk : Keeps s0 s) : Keeps s0 (gdArrive s sw op rd v) := by
  unfold gdArrive
  simp (maxDischargeDepth := 40) only [Keeps.refl, keeps_mk, keeps_ite, outKeeps_next, outKeeps_ite, bodyKeeps_retire, bodyKeeps_exc, bodyKeeps_wait, bodyKeeps_stay, bodyKeeps_gone, bodyKeeps_posted, bodyKeeps_ite, ctxUpd_keeps, *]

@[simp] theorem opComplete_keeps {s0 : State} (s : State) (id : Nat) (st : Status) (old : Word) (hk : Keeps s0 s) : Keeps s0 (opComplete s id st old) := by
  unfold opComplete
  repeat' first
    | assumption
    | (with_reducible refine keeps_foldl _ _ (fun _ _ _ => ?_) _ ?_)
    | (with_reducible refine keeps_foldl_1 _ _ _ (fun _ _ _ => ?_) ?_)
    | (with_reducible refine keeps_foldl_2 _ _ _ (fun _ _ _ => ?_) ?_)
    | (with_reducible refine keeps_foldl_22 _ _ _ (fun _ _ _ => ?_) ?_)
    | (with_reducible refine keeps_foldl_21 _ _ _ (fun _ _ _ => ?_) ?_)
    | (with_reducible refine keeps_foldl_221 _ _ _ (fun _ _ _ => ?_) ?_)
    | (with_reducible refine keeps_foldl_222 _ _ _ (fun _ _ _ => ?_) ?_)
    | (simp (maxDischargeDepth := 40) only [Keeps.refl, keeps_mk, keeps_ite, outKeeps_next, outKeeps_ite, bodyKeeps_retire, bodyKeeps_exc, bodyKeeps_wait, bodyKeeps_stay, bodyKeeps_gone, bodyKeeps_posted, bodyKeeps_ite, ctrAddTagged_keeps, gdArrive_keeps, latchFor_keeps, *]; done)
    | split
    | (dsimp only)

@[simp] theorem opsForget_keeps {s0 : State} (s : State) (sw : Nat) (hk : Keeps s0 s) : Keeps s0 (opsForget s sw) := by
  unfold opsForget
  simp (maxDischargeDepth := 40) only [Keeps.refl, keeps_mk, keeps_ite, outKeeps_next, outKeeps_ite, bodyKeeps_retire, bodyKeeps_exc, bodyKeeps_wait, bodyKeeps_stay, bodyKeeps_gone, bodyKeeps_posted, bodyKeeps_ite, *]

@[simp] theorem descFinish_keeps {s0 : State} (s : State) (d : Desc) (st : Status) (result : Word) (hk : Keeps s0 s) : Keeps s0 (descFinish s d st result).2 := by
  unfold descFinish
  repeat' first
    | assumption
    | (with_reducible refine keeps_foldl _ _ (fun _ _ _ => ?_) _ ?_)
    | (with_reducible refine keeps_foldl_1 _ _ _ (fun _ _ _ => ?_) ?_)
    | (with_reducible refine keeps_foldl_2 _ _ _ (fun _ _ _ => ?_) ?_)
    | (with_reducible refine keeps_foldl_22 _ _ _ (fun _ _ _ => ?_) ?_)
    | (with_reducible refine keeps_foldl_21 _ _ _ (fun _ _ _ => ?_) ?_)
    | (with_reducible refine keeps_foldl_221 _ _ _ (fun _ _ _ => ?_) ?_)
    | (with_reducible refine keeps_foldl_222 _ _ _ (fun _ _ _ => ?_) ?_)
    | (simp (maxDischargeDepth := 40) only [Keeps.refl, keeps_mk, keeps_ite, outKeeps_next, outKeeps_ite, bodyKeeps_retire, bodyKeeps_exc, bodyKeeps_wait, bodyKeeps_stay, bodyKeeps_gone, bodyKeeps_posted, bodyKeeps_ite, physPut_keeps, deviceError_keeps, ctrAddTagged_keeps, *]; done)
    | split
    | (dsimp only)

@[simp] theorem descRemove_keeps {s0 : State} (s : State) (code : Nat) (id : Nat) (hk : Keeps s0 s) : Keeps s0 (descRemove s code id) := by
  unfold descRemove
  simp (maxDischargeDepth := 40) only [Keeps.refl, keeps_mk, keeps_ite, outKeeps_next, outKeeps_ite, bodyKeeps_retire, bodyKeeps_exc, bodyKeeps_wait, bodyKeeps_stay, bodyKeeps_gone, bodyKeeps_posted, bodyKeeps_ite, *]

@[simp] theorem saveAll_keeps {s0 : State} (s : State) (L : Nat) (hk : Keeps s0 s) : Keeps s0 (saveAll s L) := by
  unfold saveAll
  repeat' first
    | assumption
    | (with_reducible refine keeps_foldl _ _ (fun _ _ _ => ?_) _ ?_)
    | (with_reducible refine keeps_foldl_1 _ _ _ (fun _ _ _ => ?_) ?_)
    | (with_reducible refine keeps_foldl_2 _ _ _ (fun _ _ _ => ?_) ?_)
    | (with_reducible refine keeps_foldl_22 _ _ _ (fun _ _ _ => ?_) ?_)
    | (with_reducible refine keeps_foldl_21 _ _ _ (fun _ _ _ => ?_) ?_)
    | (with_reducible refine keeps_foldl_221 _ _ _ (fun _ _ _ => ?_) ?_)
    | (with_reducible refine keeps_foldl_222 _ _ _ (fun _ _ _ => ?_) ?_)
    | (simp (maxDischargeDepth := 40) only [Keeps.refl, keeps_mk, keeps_ite, outKeeps_next, outKeeps_ite, bodyKeeps_retire, bodyKeeps_exc, bodyKeeps_wait, bodyKeeps_stay, bodyKeeps_gone, bodyKeeps_posted, bodyKeeps_ite, areaWrite_keeps, tileUpd_keeps, *]; done)
    | split
    | (dsimp only)

@[simp] theorem streamFail_keeps {s0 : State} (s : State) (d : Desc) (hk : Keeps s0 s) : Keeps s0 (streamFail s d) := by
  unfold streamFail
  repeat' first
    | assumption
    | (with_reducible refine keeps_foldl _ _ (fun _ _ _ => ?_) _ ?_)
    | (with_reducible refine keeps_foldl_1 _ _ _ (fun _ _ _ => ?_) ?_)
    | (with_reducible refine keeps_foldl_2 _ _ _ (fun _ _ _ => ?_) ?_)
    | (with_reducible refine keeps_foldl_22 _ _ _ (fun _ _ _ => ?_) ?_)
    | (with_reducible refine keeps_foldl_21 _ _ _ (fun _ _ _ => ?_) ?_)
    | (with_reducible refine keeps_foldl_221 _ _ _ (fun _ _ _ => ?_) ?_)
    | (with_reducible refine keeps_foldl_222 _ _ _ (fun _ _ _ => ?_) ?_)
    | (simp (maxDischargeDepth := 40) only [Keeps.refl, keeps_mk, keeps_ite, outKeeps_next, outKeeps_ite, bodyKeeps_retire, bodyKeeps_exc, bodyKeeps_wait, bodyKeeps_stay, bodyKeeps_gone, bodyKeeps_posted, bodyKeeps_ite, piecesRead_keeps, *]; done)
    | split
    | (dsimp only)

@[simp] theorem descRelease_keeps {s0 : State} (s : State) (d : Desc) (hk : Keeps s0 s) : Keeps s0 (descRelease s d) := by
  unfold descRelease
  repeat' first
    | assumption
    | (with_reducible refine keeps_foldl _ _ (fun _ _ _ => ?_) _ ?_)
    | (with_reducible refine keeps_foldl_1 _ _ _ (fun _ _ _ => ?_) ?_)
    | (with_reducible refine keeps_foldl_2 _ _ _ (fun _ _ _ => ?_) ?_)
    | (with_reducible refine keeps_foldl_22 _ _ _ (fun _ _ _ => ?_) ?_)
    | (with_reducible refine keeps_foldl_21 _ _ _ (fun _ _ _ => ?_) ?_)
    | (with_reducible refine keeps_foldl_221 _ _ _ (fun _ _ _ => ?_) ?_)
    | (with_reducible refine keeps_foldl_222 _ _ _ (fun _ _ _ => ?_) ?_)
    | split
    | (simp (maxDischargeDepth := 40) only [Keeps.refl, keeps_mk, keeps_ite, outKeeps_next, outKeeps_ite, bodyKeeps_retire, bodyKeeps_exc, bodyKeeps_wait, bodyKeeps_stay, bodyKeeps_gone, bodyKeeps_posted, bodyKeeps_ite, piecesWrite_keeps, handleRelease_keeps, streamFail_keeps, *]; done)
    | (with_reducible refine outKeeps_next ?_)
    | (with_reducible apply piecesWrite_keeps)
    | (with_reducible apply handleRelease_keeps)
    | (with_reducible apply streamFail_keeps)
    | (with_reducible apply keeps_mk)
    | (with_reducible intro _ _)
    | (dsimp only)

@[simp] theorem descAbort_keeps {s0 : State} (s : State) (p : Nat → Desc → Bool) (st : Nat → Desc → Status) (hk : Keeps s0 s) : Keeps s0 (descAbort s p st) := by
  unfold descAbort
  repeat' first
    | assumption
    | (with_reducible refine keeps_foldl _ _ (fun _ _ _ => ?_) _ ?_)
    | (with_reducible refine keeps_foldl_1 _ _ _ (fun _ _ _ => ?_) ?_)
    | (with_reducible refine keeps_foldl_2 _ _ _ (fun _ _ _ => ?_) ?_)
    | (with_reducible refine keeps_foldl_22 _ _ _ (fun _ _ _ => ?_) ?_)
    | (with_reducible refine keeps_foldl_21 _ _ _ (fun _ _ _ => ?_) ?_)
    | (with_reducible refine keeps_foldl_221 _ _ _ (fun _ _ _ => ?_) ?_)
    | (with_reducible refine keeps_foldl_222 _ _ _ (fun _ _ _ => ?_) ?_)
    | (simp (maxDischargeDepth := 40) only [Keeps.refl, keeps_mk, keeps_ite, outKeeps_next, outKeeps_ite, bodyKeeps_retire, bodyKeeps_exc, bodyKeeps_wait, bodyKeeps_stay, bodyKeeps_gone, bodyKeeps_posted, bodyKeeps_ite, descFinish_keeps, descRemove_keeps, descRelease_keeps, *]; done)
    | split
    | (dsimp only)

@[simp] theorem opsAbort_keeps {s0 : State} (s : State) (sws : List Nat) (st : Status) (hk : Keeps s0 s) : Keeps s0 (opsAbort s sws st) := by
  unfold opsAbort
  repeat' first
    | assumption
    | (with_reducible refine keeps_foldl _ _ (fun _ _ _ => ?_) _ ?_)
    | (with_reducible refine keeps_foldl_1 _ _ _ (fun _ _ _ => ?_) ?_)
    | (with_reducible refine keeps_foldl_2 _ _ _ (fun _ _ _ => ?_) ?_)
    | (with_reducible refine keeps_foldl_22 _ _ _ (fun _ _ _ => ?_) ?_)
    | (with_reducible refine keeps_foldl_21 _ _ _ (fun _ _ _ => ?_) ?_)
    | (with_reducible refine keeps_foldl_221 _ _ _ (fun _ _ _ => ?_) ?_)
    | (with_reducible refine keeps_foldl_222 _ _ _ (fun _ _ _ => ?_) ?_)
    | (simp (maxDischargeDepth := 40) only [Keeps.refl, keeps_mk, keeps_ite, outKeeps_next, outKeeps_ite, bodyKeeps_retire, bodyKeeps_exc, bodyKeeps_wait, bodyKeeps_stay, bodyKeeps_gone, bodyKeeps_posted, bodyKeeps_ite, opComplete_keeps, *]; done)
    | split
    | (dsimp only)

@[simp] theorem wrFinish_keeps {s0 : State} (s : State) (w : Wreq) (st : Status) (old : Word) (hk : Keeps s0 s) : Keeps s0 (wrFinish s w st old) := by
  unfold wrFinish
  repeat' first
    | assumption
    | (with_reducible refine keeps_foldl _ _ (fun _ _ _ => ?_) _ ?_)
    | (with_reducible refine keeps_foldl_1 _ _ _ (fun _ _ _ => ?_) ?_)
    | (with_reducible refine keeps_foldl_2 _ _ _ (fun _ _ _ => ?_) ?_)
    | (with_reducible refine keeps_foldl_22 _ _ _ (fun _ _ _ => ?_) ?_)
    | (with_reducible refine keeps_foldl_21 _ _ _ (fun _ _ _ => ?_) ?_)
    | (with_reducible refine keeps_foldl_221 _ _ _ (fun _ _ _ => ?_) ?_)
    | (with_reducible refine keeps_foldl_222 _ _ _ (fun _ _ _ => ?_) ?_)
    | (simp (maxDischargeDepth := 40) only [Keeps.refl, keeps_mk, keeps_ite, outKeeps_next, outKeeps_ite, bodyKeeps_retire, bodyKeeps_exc, bodyKeeps_wait, bodyKeeps_stay, bodyKeeps_gone, bodyKeeps_posted, bodyKeeps_ite, ctrAddTagged_keeps, opComplete_keeps, latchFor_keeps, *]; done)
    | split
    | (dsimp only)

@[simp] theorem wrsAbort_keeps {s0 : State} (s : State) (p : Wreq → Bool) (st : Status) (hk : Keeps s0 s) : Keeps s0 (wrsAbort s p st) := by
  unfold wrsAbort
  repeat' first
    | assumption
    | (with_reducible refine keeps_foldl _ _ (fun _ _ _ => ?_) _ ?_)
    | (with_reducible refine keeps_foldl_1 _ _ _ (fun _ _ _ => ?_) ?_)
    | (with_reducible refine keeps_foldl_2 _ _ _ (fun _ _ _ => ?_) ?_)
    | (with_reducible refine keeps_foldl_22 _ _ _ (fun _ _ _ => ?_) ?_)
    | (with_reducible refine keeps_foldl_21 _ _ _ (fun _ _ _ => ?_) ?_)
    | (with_reducible refine keeps_foldl_221 _ _ _ (fun _ _ _ => ?_) ?_)
    | (with_reducible refine keeps_foldl_222 _ _ _ (fun _ _ _ => ?_) ?_)
    | split
    | (simp (maxDischargeDepth := 40) only [Keeps.refl, keeps_mk, keeps_ite, outKeeps_next, outKeeps_ite, bodyKeeps_retire, bodyKeeps_exc, bodyKeeps_wait, bodyKeeps_stay, bodyKeeps_gone, bodyKeeps_posted, bodyKeeps_ite, wrFinish_keeps, *]; done)
    | (with_reducible refine outKeeps_next ?_)
    | (with_reducible apply wrFinish_keeps)
    | (with_reducible apply keeps_mk)
    | (with_reducible intro _ _)
    | (dsimp only)

@[simp] theorem poolsDropSws_keeps {s0 : State} (s : State) (sws : List Nat) (hk : Keeps s0 s) : Keeps s0 (poolsDropSws s sws) := by
  unfold poolsDropSws
  simp (maxDischargeDepth := 40) only [Keeps.refl, keeps_mk, keeps_ite, outKeeps_next, outKeeps_ite, bodyKeeps_retire, bodyKeeps_exc, bodyKeeps_wait, bodyKeeps_stay, bodyKeeps_gone, bodyKeeps_posted, bodyKeeps_ite, *]

@[simp] theorem dpsDrop_keeps {s0 : State} (s : State) (L : Nat) (hk : Keeps s0 s) : Keeps s0 (dpsDrop s L) := by
  unfold dpsDrop
  simp (maxDischargeDepth := 40) only [Keeps.refl, keeps_mk, keeps_ite, outKeeps_next, outKeeps_ite, bodyKeeps_retire, bodyKeeps_exc, bodyKeeps_wait, bodyKeeps_stay, bodyKeeps_gone, bodyKeeps_posted, bodyKeeps_ite, *]

@[simp] theorem freezeTile_keeps {s0 : State} (s : State) (L : Nat) (st : Status) (cause : Nat) (job : BitVec 16) (area : Nat) (hk : Keeps s0 s) : Keeps s0 (freezeTile s L st cause job area) := by
  unfold freezeTile
  repeat' first
    | assumption
    | (with_reducible refine keeps_foldl _ _ (fun _ _ _ => ?_) _ ?_)
    | (with_reducible refine keeps_foldl_1 _ _ _ (fun _ _ _ => ?_) ?_)
    | (with_reducible refine keeps_foldl_2 _ _ _ (fun _ _ _ => ?_) ?_)
    | (with_reducible refine keeps_foldl_22 _ _ _ (fun _ _ _ => ?_) ?_)
    | (with_reducible refine keeps_foldl_21 _ _ _ (fun _ _ _ => ?_) ?_)
    | (with_reducible refine keeps_foldl_221 _ _ _ (fun _ _ _ => ?_) ?_)
    | (with_reducible refine keeps_foldl_222 _ _ _ (fun _ _ _ => ?_) ?_)
    | split
    | (simp (maxDischargeDepth := 40) only [Keeps.refl, keeps_mk, keeps_ite, outKeeps_next, outKeeps_ite, bodyKeeps_retire, bodyKeeps_exc, bodyKeeps_wait, bodyKeeps_stay, bodyKeeps_gone, bodyKeeps_posted, bodyKeeps_ite, deviceError_keeps, unitSet_keeps, saveAll_keeps, opsAbort_keeps, descAbort_keeps, wrsAbort_keeps, poolsDropSws_keeps, dpsDrop_keeps, *]; done)
    | (with_reducible refine outKeeps_next ?_)
    | (with_reducible apply deviceError_keeps)
    | (with_reducible apply unitSet_keeps)
    | (with_reducible apply saveAll_keeps)
    | (with_reducible apply opsAbort_keeps)
    | (with_reducible apply descAbort_keeps)
    | (with_reducible apply wrsAbort_keeps)
    | (with_reducible apply poolsDropSws_keeps)
    | (with_reducible apply dpsDrop_keeps)
    | (with_reducible apply keeps_mk)
    | (with_reducible intro _ _)
    | (dsimp only)

@[simp] theorem freezeSw_keeps {s0 : State} (s : State) (sw : Nat) (tile : Nat) (st : Status) (cause : Nat) (job : BitVec 16) (hk : Keeps s0 s) : Keeps s0 (freezeSw s sw tile st cause job) := by
  unfold freezeSw
  simp (maxDischargeDepth := 40) only [Keeps.refl, keeps_mk, keeps_ite, outKeeps_next, outKeeps_ite, bodyKeeps_retire, bodyKeeps_exc, bodyKeeps_wait, bodyKeeps_stay, bodyKeeps_gone, bodyKeeps_posted, bodyKeeps_ite, freezeTile_keeps, *]

@[simp] theorem descComplete_keeps {s0 : State} (s : State) (code : Nat) (d : Desc) (st : Status) (result : Word) (hk : Keeps s0 s) : Keeps s0 (descComplete s code d st result) := by
  unfold descComplete
  repeat' first
    | assumption
    | (with_reducible refine keeps_foldl _ _ (fun _ _ _ => ?_) _ ?_)
    | (with_reducible refine keeps_foldl_1 _ _ _ (fun _ _ _ => ?_) ?_)
    | (with_reducible refine keeps_foldl_2 _ _ _ (fun _ _ _ => ?_) ?_)
    | (with_reducible refine keeps_foldl_22 _ _ _ (fun _ _ _ => ?_) ?_)
    | (with_reducible refine keeps_foldl_21 _ _ _ (fun _ _ _ => ?_) ?_)
    | (with_reducible refine keeps_foldl_221 _ _ _ (fun _ _ _ => ?_) ?_)
    | (with_reducible refine keeps_foldl_222 _ _ _ (fun _ _ _ => ?_) ?_)
    | (simp (maxDischargeDepth := 40) only [Keeps.refl, keeps_mk, keeps_ite, outKeeps_next, outKeeps_ite, bodyKeeps_retire, bodyKeeps_exc, bodyKeeps_wait, bodyKeeps_stay, bodyKeeps_gone, bodyKeeps_posted, bodyKeeps_ite, freezeSw_keeps, descFinish_keeps, descRemove_keeps, *]; done)
    | split
    | (dsimp only)

@[simp] theorem descMalformed_keeps {s0 : State} (s : State) (code : Nat) (d : Desc) (hk : Keeps s0 s) : Keeps s0 (descMalformed s code d) := by
  unfold descMalformed
  simp (maxDischargeDepth := 40) only [Keeps.refl, keeps_mk, keeps_ite, outKeeps_next, outKeeps_ite, bodyKeeps_retire, bodyKeeps_exc, bodyKeeps_wait, bodyKeeps_stay, bodyKeeps_gone, bodyKeeps_posted, bodyKeeps_ite, freezeSw_keeps, descComplete_keeps, *]

@[simp] theorem loadHead_keeps {s0 : State} (s : State) (L : Nat) (hw : Nat) (hk : Keeps s0 s) : Keeps s0 (loadHead s L hw) := by
  unfold loadHead
  repeat' first
    | assumption
    | (with_reducible refine keeps_foldl _ _ (fun _ _ _ => ?_) _ ?_)
    | (with_reducible refine keeps_foldl_1 _ _ _ (fun _ _ _ => ?_) ?_)
    | (with_reducible refine keeps_foldl_2 _ _ _ (fun _ _ _ => ?_) ?_)
    | (with_reducible refine keeps_foldl_22 _ _ _ (fun _ _ _ => ?_) ?_)
    | (with_reducible refine keeps_foldl_21 _ _ _ (fun _ _ _ => ?_) ?_)
    | (with_reducible refine keeps_foldl_221 _ _ _ (fun _ _ _ => ?_) ?_)
    | (with_reducible refine keeps_foldl_222 _ _ _ (fun _ _ _ => ?_) ?_)
    | (simp (maxDischargeDepth := 40) only [Keeps.refl, keeps_mk, keeps_ite, outKeeps_next, outKeeps_ite, bodyKeeps_retire, bodyKeeps_exc, bodyKeeps_wait, bodyKeeps_stay, bodyKeeps_gone, bodyKeeps_posted, bodyKeeps_ite, frontSet_keeps, freezeTile_keeps, tileUpd_keeps, areaRead_keeps, *]; done)
    | split
    | (dsimp only)

@[simp] theorem swapOut_keeps {s0 : State} (s : State) (L : Nat) (hw : Nat) (requeue : Bool) (hk : Keeps s0 s) : Keeps s0 (swapOut s L hw requeue) := by
  unfold swapOut
  repeat' first
    | assumption
    | (with_reducible refine keeps_foldl _ _ (fun _ _ _ => ?_) _ ?_)
    | (with_reducible refine keeps_foldl_1 _ _ _ (fun _ _ _ => ?_) ?_)
    | (with_reducible refine keeps_foldl_2 _ _ _ (fun _ _ _ => ?_) ?_)
    | (with_reducible refine keeps_foldl_22 _ _ _ (fun _ _ _ => ?_) ?_)
    | (with_reducible refine keeps_foldl_21 _ _ _ (fun _ _ _ => ?_) ?_)
    | (with_reducible refine keeps_foldl_221 _ _ _ (fun _ _ _ => ?_) ?_)
    | (with_reducible refine keeps_foldl_222 _ _ _ (fun _ _ _ => ?_) ?_)
    | (simp (maxDischargeDepth := 40) only [Keeps.refl, keeps_mk, keeps_ite, outKeeps_next, outKeeps_ite, bodyKeeps_retire, bodyKeeps_exc, bodyKeeps_wait, bodyKeeps_stay, bodyKeeps_gone, bodyKeeps_posted, bodyKeeps_ite, freezeTile_keeps, loadHead_keeps, areaWrite_keeps, tileUpd_keeps, *]; done)
    | split
    | (dsimp only)

end Sys2Proof.Machine
end

