-- ==== Sys2Proof/Laws/Keeps/Flash.lean ====
section
/-! SUPPORT. The operations of Machine/Flash.lean keep the queue of waiting commands and the canonical form of the memories. -/

namespace Sys2Proof.Machine

set_option linter.unusedSimpArgs false

@[simp] theorem logPut_keeps {s0 : State} (s : State) (r : LogRec) (hk : Keeps s0 s) : Keeps s0 (logPut s r) := by
  unfold logPut
  simp (maxDischargeDepth := 40) only [Keeps.refl, keeps_mk, keeps_ite, outKeeps_next, outKeeps_ite, bodyKeeps_retire, bodyKeeps_exc, bodyKeeps_wait, bodyKeeps_stay, bodyKeeps_gone, bodyKeeps_posted, bodyKeeps_ite, *]

@[simp] theorem cwFetch_keeps {s0 : State} (s : State) (l : Nat) (hk : Keeps s0 s) : Keeps s0 (cwFetch s l).2 := by
  unfold cwFetch
  repeat' first
    | assumption
    | (with_reducible refine keeps_foldl _ _ (fun _ _ _ => ?_) _ ?_)
    | (with_reducible refine keeps_foldl_1 _ _ _ (fun _ _ _ => ?_) ?_)
    | (with_reducible refine keeps_foldl_2 _ _ _ (fun _ _ _ => ?_) ?_)
    | (with_reducible refine keeps_foldl_22 _ _ _ (fun _ _ _ => ?_) ?_)
    | (with_reducible refine keeps_foldl_21 _ _ _ (fun _ _ _ => ?_) ?_)
    | (with_reducible refine keeps_foldl_221 _ _ _ (fun _ _ _ => ?_) ?_)
    | (with_reducible refine keeps_foldl_222 _ _ _ (fun _ _ _ => ?_) ?_)
    | (simp (maxDischargeDepth := 40) only [Keeps.refl, keeps_mk, keeps_ite, outKeeps_next, outKeeps_ite, bodyKeeps_retire, bodyKeeps_exc, bodyKeeps_wait, bodyKeeps_stay, bodyKeeps_gone, bodyKeeps_posted, bodyKeeps_ite, *]; done)
    | split
    | (dsimp only)

@[simp] theorem lbaFetch_keeps {s0 : State} (s : State) (lba : Nat) (hk : Keeps s0 s) : Keeps s0 (lbaFetch s lba).2 := by
  unfold lbaFetch
  repeat' first
    | assumption
    | (with_reducible refine keeps_foldl _ _ (fun _ _ _ => ?_) _ ?_)
    | (with_reducible refine keeps_foldl_1 _ _ _ (fun _ _ _ => ?_) ?_)
    | (with_reducible refine keeps_foldl_2 _ _ _ (fun _ _ _ => ?_) ?_)
    | (with_reducible refine keeps_foldl_22 _ _ _ (fun _ _ _ => ?_) ?_)
    | (with_reducible refine keeps_foldl_21 _ _ _ (fun _ _ _ => ?_) ?_)
    | (with_reducible refine keeps_foldl_221 _ _ _ (fun _ _ _ => ?_) ?_)
    | (with_reducible refine keeps_foldl_222 _ _ _ (fun _ _ _ => ?_) ?_)
    | (simp (maxDischargeDepth := 40) only [Keeps.refl, keeps_mk, keeps_ite, outKeeps_next, outKeeps_ite, bodyKeeps_retire, bodyKeeps_exc, bodyKeeps_wait, bodyKeeps_stay, bodyKeeps_gone, bodyKeeps_posted, bodyKeeps_ite, cwFetch_keeps, *]; done)
    | split
    | (dsimp only)

@[simp] theorem lbasFetch_keeps {s0 : State} (s : State) (lbas : List Nat) (hk : Keeps s0 s) : Keeps s0 (lbasFetch s lbas).2 := by
  unfold lbasFetch
  repeat' first
    | assumption
    | (with_reducible refine keeps_foldl _ _ (fun _ _ _ => ?_) _ ?_)
    | (with_reducible refine keeps_foldl_1 _ _ _ (fun _ _ _ => ?_) ?_)
    | (with_reducible refine keeps_foldl_2 _ _ _ (fun _ _ _ => ?_) ?_)
    | (with_reducible refine keeps_foldl_22 _ _ _ (fun _ _ _ => ?_) ?_)
    | (with_reducible refine keeps_foldl_21 _ _ _ (fun _ _ _ => ?_) ?_)
    | (with_reducible refine keeps_foldl_221 _ _ _ (fun _ _ _ => ?_) ?_)
    | (with_reducible refine keeps_foldl_222 _ _ _ (fun _ _ _ => ?_) ?_)
    | (simp (maxDischargeDepth := 40) only [Keeps.refl, keeps_mk, keeps_ite, outKeeps_next, outKeeps_ite, bodyKeeps_retire, bodyKeeps_exc, bodyKeeps_wait, bodyKeeps_stay, bodyKeeps_gone, bodyKeeps_posted, bodyKeeps_ite, lbaFetch_keeps, *]; done)
    | split
    | (dsimp only)

@[simp] theorem lbasDone_keeps {s0 : State} (s : State) (lbas : List Nat) (hk : Keeps s0 s) : Keeps s0 (lbasDone s lbas) := by
  unfold lbasDone
  simp (maxDischargeDepth := 40) only [Keeps.refl, keeps_mk, keeps_ite, outKeeps_next, outKeeps_ite, bodyKeeps_retire, bodyKeeps_exc, bodyKeeps_wait, bodyKeeps_stay, bodyKeeps_gone, bodyKeeps_posted, bodyKeeps_ite, *]

@[simp] theorem pumpOne_keeps {s0 : State} (s : State) (x : Bool × Nat) (hk : Keeps s0 s) : Keeps s0 (pumpOne s x) := by
  unfold pumpOne
  repeat' first
    | assumption
    | (with_reducible refine keeps_foldl _ _ (fun _ _ _ => ?_) _ ?_)
    | (with_reducible refine keeps_foldl_1 _ _ _ (fun _ _ _ => ?_) ?_)
    | (with_reducible refine keeps_foldl_2 _ _ _ (fun _ _ _ => ?_) ?_)
    | (with_reducible refine keeps_foldl_22 _ _ _ (fun _ _ _ => ?_) ?_)
    | (with_reducible refine keeps_foldl_21 _ _ _ (fun _ _ _ => ?_) ?_)
    | (with_reducible refine keeps_foldl_221 _ _ _ (fun _ _ _ => ?_) ?_)
    | (with_reducible refine keeps_foldl_222 _ _ _ (fun _ _ _ => ?_) ?_)
    | (simp (maxDischargeDepth := 40) only [Keeps.refl, keeps_mk, keeps_ite, outKeeps_next, outKeeps_ite, bodyKeeps_retire, bodyKeeps_exc, bodyKeeps_wait, bodyKeeps_stay, bodyKeeps_gone, bodyKeeps_posted, bodyKeeps_ite, lbasFetch_keeps, lbasDone_keeps, *]; done)
    | split
    | (dsimp only)

@[simp] theorem checkpointNow_keeps {s0 : State} (s : State) (hk : Keeps s0 s) : Keeps s0 (checkpointNow s) := by
  unfold checkpointNow
  simp (maxDischargeDepth := 40) only [Keeps.refl, keeps_mk, keeps_ite, outKeeps_next, outKeeps_ite, bodyKeeps_retire, bodyKeeps_exc, bodyKeeps_wait, bodyKeeps_stay, bodyKeeps_gone, bodyKeeps_posted, bodyKeeps_ite, *]

@[simp] theorem roCheck_keeps {s0 : State} (s : State) (hk : Keeps s0 s) : Keeps s0 (roCheck s) := by
  unfold roCheck
  simp (maxDischargeDepth := 40) only [Keeps.refl, keeps_mk, keeps_ite, outKeeps_next, outKeeps_ite, bodyKeeps_retire, bodyKeeps_exc, bodyKeeps_wait, bodyKeeps_stay, bodyKeeps_gone, bodyKeeps_posted, bodyKeeps_ite, checkpointNow_keeps, *]

@[simp] theorem ftlPump_keeps {s0 : State} (s : State) (hk : Keeps s0 s) : Keeps s0 (ftlPump s) := by
  unfold ftlPump
  repeat' first
    | assumption
    | (with_reducible refine keeps_foldl _ _ (fun _ _ _ => ?_) _ ?_)
    | (with_reducible refine keeps_foldl_1 _ _ _ (fun _ _ _ => ?_) ?_)
    | (with_reducible refine keeps_foldl_2 _ _ _ (fun _ _ _ => ?_) ?_)
    | (with_reducible refine keeps_foldl_22 _ _ _ (fun _ _ _ => ?_) ?_)
    | (with_reducible refine keeps_foldl_21 _ _ _ (fun _ _ _ => ?_) ?_)
    | (with_reducible refine keeps_foldl_221 _ _ _ (fun _ _ _ => ?_) ?_)
    | (with_reducible refine keeps_foldl_222 _ _ _ (fun _ _ _ => ?_) ?_)
    | split
    | (simp (maxDischargeDepth := 40) only [Keeps.refl, keeps_mk, keeps_ite, outKeeps_next, outKeeps_ite, bodyKeeps_retire, bodyKeeps_exc, bodyKeeps_wait, bodyKeeps_stay, bodyKeeps_gone, bodyKeeps_posted, bodyKeeps_ite, roCheck_keeps, pumpOne_keeps, *]; done)
    | (with_reducible refine outKeeps_next ?_)
    | (with_reducible apply roCheck_keeps)
    | (with_reducible apply pumpOne_keeps)
    | (with_reducible apply keeps_mk)
    | (with_reducible intro _ _)
    | (dsimp only)

@[simp] theorem wbufPut_keeps {s0 : State} (s : State) (lba : Nat) (d : Mem) (hk : Keeps s0 s) : Keeps s0 (wbufPut s lba d) := by
  unfold wbufPut
  simp (maxDischargeDepth := 40) only [Keeps.refl, keeps_mk, keeps_ite, outKeeps_next, outKeeps_ite, bodyKeeps_retire, bodyKeeps_exc, bodyKeeps_wait, bodyKeeps_stay, bodyKeeps_gone, bodyKeeps_posted, bodyKeeps_ite, *]

@[simp] theorem lbasDurable_keeps {s0 : State} (s : State) (p : Nat → Bool) (hk : Keeps s0 s) : Keeps s0 (lbasDurable s p).2 := by
  unfold lbasDurable
  repeat' first
    | assumption
    | (with_reducible refine keeps_foldl _ _ (fun _ _ _ => ?_) _ ?_)
    | (with_reducible refine keeps_foldl_1 _ _ _ (fun _ _ _ => ?_) ?_)
    | (with_reducible refine keeps_foldl_2 _ _ _ (fun _ _ _ => ?_) ?_)
    | (with_reducible refine keeps_foldl_22 _ _ _ (fun _ _ _ => ?_) ?_)
    | (with_reducible refine keeps_foldl_21 _ _ _ (fun _ _ _ => ?_) ?_)
    | (with_reducible refine keeps_foldl_221 _ _ _ (fun _ _ _ => ?_) ?_)
    | (with_reducible refine keeps_foldl_222 _ _ _ (fun _ _ _ => ?_) ?_)
    | (simp (maxDischargeDepth := 40) only [Keeps.refl, keeps_mk, keeps_ite, outKeeps_next, outKeeps_ite, bodyKeeps_retire, bodyKeeps_exc, bodyKeeps_wait, bodyKeeps_stay, bodyKeeps_gone, bodyKeeps_posted, bodyKeeps_ite, *]; done)
    | split
    | (dsimp only)

@[simp] theorem trimOne_keeps {s0 : State} (s : State) (x : Bool × Nat) (hk : Keeps s0 s) : Keeps s0 (trimOne s x).2 := by
  unfold trimOne
  repeat' first
    | assumption
    | (with_reducible refine keeps_foldl _ _ (fun _ _ _ => ?_) _ ?_)
    | (with_reducible refine keeps_foldl_1 _ _ _ (fun _ _ _ => ?_) ?_)
    | (with_reducible refine keeps_foldl_2 _ _ _ (fun _ _ _ => ?_) ?_)
    | (with_reducible refine keeps_foldl_22 _ _ _ (fun _ _ _ => ?_) ?_)
    | (with_reducible refine keeps_foldl_21 _ _ _ (fun _ _ _ => ?_) ?_)
    | (with_reducible refine keeps_foldl_221 _ _ _ (fun _ _ _ => ?_) ?_)
    | (with_reducible refine keeps_foldl_222 _ _ _ (fun _ _ _ => ?_) ?_)
    | (simp (maxDischargeDepth := 40) only [Keeps.refl, keeps_mk, keeps_ite, outKeeps_next, outKeeps_ite, bodyKeeps_retire, bodyKeeps_exc, bodyKeeps_wait, bodyKeeps_stay, bodyKeeps_gone, bodyKeeps_posted, bodyKeeps_ite, logPut_keeps, *]; done)
    | split
    | (dsimp only)

@[simp] theorem freeStatus_keeps {s0 : State} (s : State) (hk : Keeps s0 s) : Keeps s0 (freeStatus s).2 := by
  unfold freeStatus
  simp (maxDischargeDepth := 40) only [Keeps.refl, keeps_mk, keeps_ite, outKeeps_next, outKeeps_ite, bodyKeeps_retire, bodyKeeps_exc, bodyKeeps_wait, bodyKeeps_stay, bodyKeeps_gone, bodyKeeps_posted, bodyKeeps_ite, *]

@[simp] theorem nandError_keeps {s0 : State} (s : State) (l : Nat) (hk : Keeps s0 s) : Keeps s0 (nandError s l) := by
  unfold nandError
  simp (maxDischargeDepth := 40) only [Keeps.refl, keeps_mk, keeps_ite, outKeeps_next, outKeeps_ite, bodyKeeps_retire, bodyKeeps_exc, bodyKeeps_wait, bodyKeeps_stay, bodyKeeps_gone, bodyKeeps_posted, bodyKeeps_ite, deviceError_keeps, freeStatus_keeps, *]

@[simp] theorem euRetire_keeps {s0 : State} (s : State) (u : Nat) (hk : Keeps s0 s) : Keeps s0 (euRetire s u) := by
  unfold euRetire
  simp (maxDischargeDepth := 40) only [Keeps.refl, keeps_mk, keeps_ite, outKeeps_next, outKeeps_ite, bodyKeeps_retire, bodyKeeps_exc, bodyKeeps_wait, bodyKeeps_stay, bodyKeeps_gone, bodyKeeps_posted, bodyKeeps_ite, roCheck_keeps, logPut_keeps, *]

@[simp] theorem execNandReadDone_keeps {s0 : State} (loc : Word) (ok : Bool) (bits : Nat) (s : State) (hk : Keeps s0 s) : OutKeeps s0 (execNandReadDone loc ok bits s) := by
  unfold execNandReadDone
  repeat' first
    | assumption
    | (with_reducible refine keeps_foldl _ _ (fun _ _ _ => ?_) _ ?_)
    | (with_reducible refine keeps_foldl_1 _ _ _ (fun _ _ _ => ?_) ?_)
    | (with_reducible refine keeps_foldl_2 _ _ _ (fun _ _ _ => ?_) ?_)
    | (with_reducible refine keeps_foldl_22 _ _ _ (fun _ _ _ => ?_) ?_)
    | (with_reducible refine keeps_foldl_21 _ _ _ (fun _ _ _ => ?_) ?_)
    | (with_reducible refine keeps_foldl_221 _ _ _ (fun _ _ _ => ?_) ?_)
    | (with_reducible refine keeps_foldl_222 _ _ _ (fun _ _ _ => ?_) ?_)
    | split
    | (simp (maxDischargeDepth := 40) only [Keeps.refl, keeps_mk, keeps_ite, outKeeps_next, outKeeps_ite, bodyKeeps_retire, bodyKeeps_exc, bodyKeeps_wait, bodyKeeps_stay, bodyKeeps_gone, bodyKeeps_posted, bodyKeeps_ite, engCount_keeps, ftlPump_keeps, step_keeps, *]; done)
    | (with_reducible refine outKeeps_next ?_)
    | (with_reducible apply engCount_keeps)
    | (with_reducible apply ftlPump_keeps)
    | (with_reducible apply step_keeps)
    | (with_reducible apply keeps_mk)
    | (with_reducible intro _ _)
    | (dsimp only)

@[simp] theorem execNandProgramDone_keeps {s0 : State} (loc : Word) (ok : Bool) (s : State) (hk : Keeps s0 s) : OutKeeps s0 (execNandProgramDone loc ok s) := by
  unfold execNandProgramDone
  repeat' first
    | assumption
    | (with_reducible refine keeps_foldl _ _ (fun _ _ _ => ?_) _ ?_)
    | (with_reducible refine keeps_foldl_1 _ _ _ (fun _ _ _ => ?_) ?_)
    | (with_reducible refine keeps_foldl_2 _ _ _ (fun _ _ _ => ?_) ?_)
    | (with_reducible refine keeps_foldl_22 _ _ _ (fun _ _ _ => ?_) ?_)
    | (with_reducible refine keeps_foldl_21 _ _ _ (fun _ _ _ => ?_) ?_)
    | (with_reducible refine keeps_foldl_221 _ _ _ (fun _ _ _ => ?_) ?_)
    | (with_reducible refine keeps_foldl_222 _ _ _ (fun _ _ _ => ?_) ?_)
    | (simp (maxDischargeDepth := 40) only [Keeps.refl, keeps_mk, keeps_ite, outKeeps_next, outKeeps_ite, bodyKeeps_retire, bodyKeeps_exc, bodyKeeps_wait, bodyKeeps_stay, bodyKeeps_gone, bodyKeeps_posted, bodyKeeps_ite, ftlPump_keeps, nandError_keeps, logPut_keeps, *]; done)
    | split
    | (dsimp only)

@[simp] theorem execLogFlushTimer_keeps {s0 : State} (s : State) (hk : Keeps s0 s) : OutKeeps s0 (execLogFlushTimer s) := by
  unfold execLogFlushTimer
  simp (maxDischargeDepth := 40) only [Keeps.refl, keeps_mk, keeps_ite, outKeeps_next, outKeeps_ite, bodyKeeps_retire, bodyKeeps_exc, bodyKeeps_wait, bodyKeeps_stay, bodyKeeps_gone, bodyKeeps_posted, bodyKeeps_ite, *]

@[simp] theorem gcMove_keeps {s0 : State} (lun : Nat) (s : State) (e : (Bool × Nat) × Nat) (hk : Keeps s0 s) : Keeps s0 (gcMove lun s e) := by
  unfold gcMove
  repeat' first
    | assumption
    | (intro _)
    | (with_reducible refine keeps_foldl _ _ (fun _ _ _ => ?_) _ ?_)
    | (with_reducible refine keeps_foldl_1 _ _ _ (fun _ _ _ => ?_) ?_)
    | (with_reducible refine keeps_foldl_2 _ _ _ (fun _ _ _ => ?_) ?_)
    | (with_reducible refine keeps_foldl_22 _ _ _ (fun _ _ _ => ?_) ?_)
    | (with_reducible refine keeps_foldl_21 _ _ _ (fun _ _ _ => ?_) ?_)
    | (with_reducible refine keeps_foldl_221 _ _ _ (fun _ _ _ => ?_) ?_)
    | (with_reducible refine keeps_foldl_222 _ _ _ (fun _ _ _ => ?_) ?_)
    | (with_reducible apply cwFetch_keeps)
    | (simp only [keeps_mk_iff])
    | (with_reducible apply outKeeps_next)
    | (with_reducible apply bodyKeeps_retire)
    | (with_reducible apply bodyKeeps_exc)
    | (with_reducible apply bodyKeeps_wait)
    | (with_reducible apply bodyKeeps_stay)
    | (with_reducible apply bodyKeeps_gone)
    | (with_reducible apply bodyKeeps_posted)
    | split
    | (dsimp only)
    | (simp (maxDischargeDepth := 40) only [Keeps.refl, keeps_mk, keeps_ite, outKeeps_next, outKeeps_ite, bodyKeeps_retire, bodyKeeps_exc, bodyKeeps_wait, bodyKeeps_stay, bodyKeeps_gone, bodyKeeps_posted, bodyKeeps_ite, cwFetch_keeps, *]; done)

@[simp] theorem gcStep_keeps {s0 : State} (s : State) (lun : Nat) (v : Nat) (hk : Keeps s0 s) : Keeps s0 (gcStep s lun v) := by
  unfold gcStep
  repeat' first
    | assumption
    | (with_reducible refine keeps_foldl _ _ (fun _ _ _ => ?_) _ ?_)
    | (with_reducible refine keeps_foldl_1 _ _ _ (fun _ _ _ => ?_) ?_)
    | (with_reducible refine keeps_foldl_2 _ _ _ (fun _ _ _ => ?_) ?_)
    | (with_reducible refine keeps_foldl_22 _ _ _ (fun _ _ _ => ?_) ?_)
    | (with_reducible refine keeps_foldl_21 _ _ _ (fun _ _ _ => ?_) ?_)
    | (with_reducible refine keeps_foldl_221 _ _ _ (fun _ _ _ => ?_) ?_)
    | (with_reducible refine keeps_foldl_222 _ _ _ (fun _ _ _ => ?_) ?_)
    | split
    | (simp (maxDischargeDepth := 40) only [Keeps.refl, keeps_mk, keeps_ite, outKeeps_next, outKeeps_ite, bodyKeeps_retire, bodyKeeps_exc, bodyKeeps_wait, bodyKeeps_stay, bodyKeeps_gone, bodyKeeps_posted, bodyKeeps_ite, euRetire_keeps, logPut_keeps, gcMove_keeps, *]; done)
    | (with_reducible refine outKeeps_next ?_)
    | (with_reducible apply euRetire_keeps)
    | (with_reducible apply logPut_keeps)
    | (with_reducible apply gcMove_keeps)
    | (with_reducible apply keeps_mk)
    | (with_reducible intro _ _)
    | (dsimp only)

@[simp] theorem execGcCollect_keeps {s0 : State} (lun : Nat) (s : State) (hk : Keeps s0 s) : OutKeeps s0 (execGcCollect lun s) := by
  unfold execGcCollect
  repeat' first
    | assumption
    | (with_reducible refine keeps_foldl _ _ (fun _ _ _ => ?_) _ ?_)
    | (with_reducible refine keeps_foldl_1 _ _ _ (fun _ _ _ => ?_) ?_)
    | (with_reducible refine keeps_foldl_2 _ _ _ (fun _ _ _ => ?_) ?_)
    | (with_reducible refine keeps_foldl_22 _ _ _ (fun _ _ _ => ?_) ?_)
    | (with_reducible refine keeps_foldl_21 _ _ _ (fun _ _ _ => ?_) ?_)
    | (with_reducible refine keeps_foldl_221 _ _ _ (fun _ _ _ => ?_) ?_)
    | (with_reducible refine keeps_foldl_222 _ _ _ (fun _ _ _ => ?_) ?_)
    | (simp (maxDischargeDepth := 40) only [Keeps.refl, keeps_mk, keeps_ite, outKeeps_next, outKeeps_ite, bodyKeeps_retire, bodyKeeps_exc, bodyKeeps_wait, bodyKeeps_stay, bodyKeeps_gone, bodyKeeps_posted, bodyKeeps_ite, gcStep_keeps, *]; done)
    | split
    | (dsimp only)

@[simp] theorem execNandEraseDone_keeps {s0 : State} (loc : Word) (ok : Bool) (s : State) (hk : Keeps s0 s) : OutKeeps s0 (execNandEraseDone loc ok s) := by
  unfold execNandEraseDone
  simp (maxDischargeDepth := 40) only [Keeps.refl, keeps_mk, keeps_ite, outKeeps_next, outKeeps_ite, bodyKeeps_retire, bodyKeeps_exc, bodyKeeps_wait, bodyKeeps_stay, bodyKeeps_gone, bodyKeeps_posted, bodyKeeps_ite, ftlPump_keeps, euRetire_keeps, nandError_keeps, logPut_keeps, *]

@[simp] theorem execMapCheckpoint_keeps {s0 : State} (s : State) (hk : Keeps s0 s) : OutKeeps s0 (execMapCheckpoint s) := by
  unfold execMapCheckpoint
  simp (maxDischargeDepth := 40) only [Keeps.refl, keeps_mk, keeps_ite, outKeeps_next, outKeeps_ite, bodyKeeps_retire, bodyKeeps_exc, bodyKeeps_wait, bodyKeeps_stay, bodyKeeps_gone, bodyKeeps_posted, bodyKeeps_ite, checkpointNow_keeps, *]

@[simp] theorem execChannelRetrain_keeps {s0 : State} (ch : Fin 64) (s : State) (hk : Keeps s0 s) : OutKeeps s0 (execChannelRetrain ch s) := by
  unfold execChannelRetrain
  simp (maxDischargeDepth := 40) only [Keeps.refl, keeps_mk, keeps_ite, outKeeps_next, outKeeps_ite, bodyKeeps_retire, bodyKeeps_exc, bodyKeeps_wait, bodyKeeps_stay, bodyKeeps_gone, bodyKeeps_posted, bodyKeeps_ite, *]

@[simp] theorem execTargetTimeout_keeps {s0 : State} (ch : Fin 64) (tgt : Fin 16) (s : State) (hk : Keeps s0 s) : OutKeeps s0 (execTargetTimeout ch tgt s) := by
  unfold execTargetTimeout
  repeat' first
    | assumption
    | (with_reducible refine keeps_foldl _ _ (fun _ _ _ => ?_) _ ?_)
    | (with_reducible refine keeps_foldl_1 _ _ _ (fun _ _ _ => ?_) ?_)
    | (with_reducible refine keeps_foldl_2 _ _ _ (fun _ _ _ => ?_) ?_)
    | (with_reducible refine keeps_foldl_22 _ _ _ (fun _ _ _ => ?_) ?_)
    | (with_reducible refine keeps_foldl_21 _ _ _ (fun _ _ _ => ?_) ?_)
    | (with_reducible refine keeps_foldl_221 _ _ _ (fun _ _ _ => ?_) ?_)
    | (with_reducible refine keeps_foldl_222 _ _ _ (fun _ _ _ => ?_) ?_)
    | split
    | (simp (maxDischargeDepth := 40) only [Keeps.refl, keeps_mk, keeps_ite, outKeeps_next, outKeeps_ite, bodyKeeps_retire, bodyKeeps_exc, bodyKeeps_wait, bodyKeeps_stay, bodyKeeps_gone, bodyKeeps_posted, bodyKeeps_ite, ftlPump_keeps, nandError_keeps, logPut_keeps, *]; done)
    | (with_reducible refine outKeeps_next ?_)
    | (with_reducible apply ftlPump_keeps)
    | (with_reducible apply nandError_keeps)
    | (with_reducible apply logPut_keeps)
    | (with_reducible apply keeps_mk)
    | (with_reducible intro _ _)
    | (dsimp only)

@[simp] theorem mediaFormat_keeps {s0 : State} (s : State) (v : Word) (hk : Keeps s0 s) : Keeps s0 (mediaFormat s v) := by
  unfold mediaFormat
  simp (maxDischargeDepth := 40) only [Keeps.refl, keeps_mk, keeps_ite, outKeeps_next, outKeeps_ite, bodyKeeps_retire, bodyKeeps_exc, bodyKeeps_wait, bodyKeeps_stay, bodyKeeps_gone, bodyKeeps_posted, bodyKeeps_ite, *]

@[simp] theorem execFormat_keeps {s0 : State} (v : Word) (s : State) (hk : Keeps s0 s) : OutKeeps s0 (execFormat v s) := by
  unfold execFormat
  simp (maxDischargeDepth := 40) only [Keeps.refl, keeps_mk, keeps_ite, outKeeps_next, outKeeps_ite, bodyKeeps_retire, bodyKeeps_exc, bodyKeeps_wait, bodyKeeps_stay, bodyKeeps_gone, bodyKeeps_posted, bodyKeeps_ite, mediaFormat_keeps, *]

@[simp] theorem spareMinPut_keeps {s0 : State} (s : State) (v : BitVec 32) (hk : Keeps s0 s) : Keeps s0 (spareMinPut s v) := by
  unfold spareMinPut
  simp (maxDischargeDepth := 40) only [Keeps.refl, keeps_mk, keeps_ite, outKeeps_next, outKeeps_ite, bodyKeeps_retire, bodyKeeps_exc, bodyKeeps_wait, bodyKeeps_stay, bodyKeeps_gone, bodyKeeps_posted, bodyKeeps_ite, roCheck_keeps, *]

@[simp] theorem execSpareMinWrite_keeps {s0 : State} (v : BitVec 32) (s : State) (hk : Keeps s0 s) : OutKeeps s0 (execSpareMinWrite v s) := by
  unfold execSpareMinWrite
  simp (maxDischargeDepth := 40) only [Keeps.refl, keeps_mk, keeps_ite, outKeeps_next, outKeeps_ite, bodyKeeps_retire, bodyKeeps_exc, bodyKeeps_wait, bodyKeeps_stay, bodyKeeps_gone, bodyKeeps_posted, bodyKeeps_ite, spareMinPut_keeps, *]

@[simp] theorem mediaReplay_keeps {s0 : State} (s : State) (newer : Bool) (hk : Keeps s0 s) : Keeps s0 (mediaReplay s newer) := by
  unfold mediaReplay
  simp (maxDischargeDepth := 40) only [Keeps.refl, keeps_mk, keeps_ite, outKeeps_next, outKeeps_ite, bodyKeeps_retire, bodyKeeps_exc, bodyKeeps_wait, bodyKeeps_stay, bodyKeeps_gone, bodyKeeps_posted, bodyKeeps_ite, checkpointNow_keeps, *]

@[simp] theorem journalReload_keeps {s0 : State} (s : State) (mirror : Bool) (hk : Keeps s0 s) : Keeps s0 (journalReload s mirror) := by
  unfold journalReload
  simp (maxDischargeDepth := 40) only [Keeps.refl, keeps_mk, keeps_ite, outKeeps_next, outKeeps_ite, bodyKeeps_retire, bodyKeeps_exc, bodyKeeps_wait, bodyKeeps_stay, bodyKeeps_gone, bodyKeeps_posted, bodyKeeps_ite, *]

@[simp] theorem recoveryEnd_keeps {s0 : State} (mirror : Bool) (s : State) (ok : Bool) (hk : Keeps s0 s) : Keeps s0 (recoveryEnd mirror s ok) := by
  unfold recoveryEnd
  simp (maxDischargeDepth := 40) only [Keeps.refl, keeps_mk, keeps_ite, outKeeps_next, outKeeps_ite, bodyKeeps_retire, bodyKeeps_exc, bodyKeeps_wait, bodyKeeps_stay, bodyKeeps_gone, bodyKeeps_posted, bodyKeeps_ite, journalReload_keeps, *]

@[simp] theorem recoveryFail_keeps {s0 : State} (s : State) (hk : Keeps s0 s) : Keeps s0 (recoveryFail s) := by
  unfold recoveryFail
  simp (maxDischargeDepth := 40) only [Keeps.refl, keeps_mk, keeps_ite, outKeeps_next, outKeeps_ite, bodyKeeps_retire, bodyKeeps_exc, bodyKeeps_wait, bodyKeeps_stay, bodyKeeps_gone, bodyKeeps_posted, bodyKeeps_ite, *]

@[simp] theorem mediaRecover_keeps {s0 : State} (r : MediaFound) (s : State) (hk : Keeps s0 s) : Keeps s0 (mediaRecover r s) := by
  unfold mediaRecover
  simp (maxDischargeDepth := 40) only [Keeps.refl, keeps_mk, keeps_ite, outKeeps_next, outKeeps_ite, bodyKeeps_retire, bodyKeeps_exc, bodyKeeps_wait, bodyKeeps_stay, bodyKeeps_gone, bodyKeeps_posted, bodyKeeps_ite, recoveryEnd_keeps, recoveryFail_keeps, mediaReplay_keeps, *]

end Sys2Proof.Machine
end

