-- ==== Sys2Proof/Laws/Keeps/JobEnd.lean ====
section
/-! SUPPORT. The operations of Machine/JobEnd.lean keep the queue of waiting commands and the canonical form of the memories. -/

namespace Sys2Proof.Machine

set_option linter.unusedSimpArgs false

@[simp] theorem poolsReclaim_keeps {s0 : State} (s : State) (quotas : List Nat) (hk : Keeps s0 s) : Keeps s0 (poolsReclaim s quotas) := by
  unfold poolsReclaim
  repeat' first
    | assumption
    | (with_reducible refine keeps_foldl _ _ (fun _ _ _ => ?_) _ ?_)
    | (with_reducible refine keeps_foldl_1 _ _ _ (fun _ _ _ => ?_) ?_)
    | (with_reducible refine keeps_foldl_2 _ _ _ (fun _ _ _ => ?_) ?_)
    | (with_reducible refine keeps_foldl_22 _ _ _ (fun _ _ _ => ?_) ?_)
    | (with_reducible refine keeps_foldl_21 _ _ _ (fun _ _ _ => ?_) ?_)
    | (with_reducible refine keeps_foldl_221 _ _ _ (fun _ _ _ => ?_) ?_)
    | (with_reducible refine keeps_foldl_222 _ _ _ (fun _ _ _ => ?_) ?_)
    | (simp (maxDischargeDepth := 40) only [Keeps.refl, keeps_mk, keeps_ite, outKeeps_next, outKeeps_ite, bodyKeeps_retire, bodyKeeps_exc, bodyKeeps_wait, bodyKeeps_stay, bodyKeeps_gone, bodyKeeps_posted, bodyKeeps_ite, physNat_keeps, bufFree_keeps, *]; done)
    | split
    | (dsimp only)

@[simp] theorem poolsDropJob_keeps {s0 : State} (s : State) (j : BitVec 16) (hk : Keeps s0 s) : Keeps s0 (poolsDropJob s j) := by
  unfold poolsDropJob
  simp (maxDischargeDepth := 40) only [Keeps.refl, keeps_mk, keeps_ite, outKeeps_next, outKeeps_ite, bodyKeeps_retire, bodyKeeps_exc, bodyKeeps_wait, bodyKeeps_stay, bodyKeeps_gone, bodyKeeps_posted, bodyKeeps_ite, *]

@[simp] theorem streamSet_keeps {s0 : State} (s : State) (k : Nat) (x : BrlStream) (hk : Keeps s0 s) : Keeps s0 (streamSet s k x) := by
  unfold streamSet
  simp (maxDischargeDepth := 40) only [Keeps.refl, keeps_mk, keeps_ite, outKeeps_next, outKeeps_ite, bodyKeeps_retire, bodyKeeps_exc, bodyKeeps_wait, bodyKeeps_stay, bodyKeeps_gone, bodyKeeps_posted, bodyKeeps_ite, *]

@[simp] theorem streamFree_keeps {s0 : State} (s : State) (k : Nat) (hk : Keeps s0 s) : Keeps s0 (streamFree s k) := by
  unfold streamFree
  simp (maxDischargeDepth := 40) only [Keeps.refl, keeps_mk, keeps_ite, outKeeps_next, outKeeps_ite, bodyKeeps_retire, bodyKeeps_exc, bodyKeeps_wait, bodyKeeps_stay, bodyKeeps_gone, bodyKeeps_posted, bodyKeeps_ite, streamSet_keeps, *]

@[simp] theorem streamsFree_keeps {s0 : State} (s : State) (p : BrlStream → Bool) (hk : Keeps s0 s) : Keeps s0 (streamsFree s p) := by
  unfold streamsFree
  repeat' first
    | assumption
    | (with_reducible refine keeps_foldl _ _ (fun _ _ _ => ?_) _ ?_)
    | (with_reducible refine keeps_foldl_1 _ _ _ (fun _ _ _ => ?_) ?_)
    | (with_reducible refine keeps_foldl_2 _ _ _ (fun _ _ _ => ?_) ?_)
    | (with_reducible refine keeps_foldl_22 _ _ _ (fun _ _ _ => ?_) ?_)
    | (with_reducible refine keeps_foldl_21 _ _ _ (fun _ _ _ => ?_) ?_)
    | (with_reducible refine keeps_foldl_221 _ _ _ (fun _ _ _ => ?_) ?_)
    | (with_reducible refine keeps_foldl_222 _ _ _ (fun _ _ _ => ?_) ?_)
    | (simp (maxDischargeDepth := 40) only [Keeps.refl, keeps_mk, keeps_ite, outKeeps_next, outKeeps_ite, bodyKeeps_retire, bodyKeeps_exc, bodyKeeps_wait, bodyKeeps_stay, bodyKeeps_gone, bodyKeeps_posted, bodyKeeps_ite, streamFree_keeps, *]; done)
    | split
    | (dsimp only)

@[simp] theorem slotsFree_keeps {s0 : State} (s : State) (p : Nat → TokSlot → Bool) (hk : Keeps s0 s) : Keeps s0 (slotsFree s p) := by
  unfold slotsFree
  simp (maxDischargeDepth := 40) only [Keeps.refl, keeps_mk, keeps_ite, outKeeps_next, outKeeps_ite, bodyKeeps_retire, bodyKeeps_exc, bodyKeeps_wait, bodyKeeps_stay, bodyKeeps_gone, bodyKeeps_posted, bodyKeeps_ite, *]

@[simp] theorem recSeal_keeps {s0 : State} (s : State) (r : Recording) (hk : Keeps s0 s) : Keeps s0 (recSeal s r) := by
  unfold recSeal
  simp (maxDischargeDepth := 40) only [Keeps.refl, keeps_mk, keeps_ite, outKeeps_next, outKeeps_ite, bodyKeeps_retire, bodyKeeps_exc, bodyKeeps_wait, bodyKeeps_stay, bodyKeeps_gone, bodyKeeps_posted, bodyKeeps_ite, ftlPump_keeps, wbufPut_keeps, *]

@[simp] theorem recsSeal_keeps {s0 : State} (s : State) (j : BitVec 16) (hk : Keeps s0 s) : Keeps s0 (recsSeal s j) := by
  unfold recsSeal
  repeat' first
    | assumption
    | (with_reducible refine keeps_foldl _ _ (fun _ _ _ => ?_) _ ?_)
    | (with_reducible refine keeps_foldl_1 _ _ _ (fun _ _ _ => ?_) ?_)
    | (with_reducible refine keeps_foldl_2 _ _ _ (fun _ _ _ => ?_) ?_)
    | (with_reducible refine keeps_foldl_22 _ _ _ (fun _ _ _ => ?_) ?_)
    | (with_reducible refine keeps_foldl_21 _ _ _ (fun _ _ _ => ?_) ?_)
    | (with_reducible refine keeps_foldl_221 _ _ _ (fun _ _ _ => ?_) ?_)
    | (with_reducible refine keeps_foldl_222 _ _ _ (fun _ _ _ => ?_) ?_)
    | (simp (maxDischargeDepth := 40) only [Keeps.refl, keeps_mk, keeps_ite, outKeeps_next, outKeeps_ite, bodyKeeps_retire, bodyKeeps_exc, bodyKeeps_wait, bodyKeeps_stay, bodyKeeps_gone, bodyKeeps_posted, bodyKeeps_ite, recSeal_keeps, *]; done)
    | split
    | (dsimp only)

@[simp] theorem fillHw_keeps {s0 : State} (s : State) (L : Nat) (hk : Keeps s0 s) : Keeps s0 (fillHw s L) := by
  unfold fillHw
  repeat' first
    | assumption
    | (with_reducible refine keeps_foldl _ _ (fun _ _ _ => ?_) _ ?_)
    | (with_reducible refine keeps_foldl_1 _ _ _ (fun _ _ _ => ?_) ?_)
    | (with_reducible refine keeps_foldl_2 _ _ _ (fun _ _ _ => ?_) ?_)
    | (with_reducible refine keeps_foldl_22 _ _ _ (fun _ _ _ => ?_) ?_)
    | (with_reducible refine keeps_foldl_21 _ _ _ (fun _ _ _ => ?_) ?_)
    | (with_reducible refine keeps_foldl_221 _ _ _ (fun _ _ _ => ?_) ?_)
    | (with_reducible refine keeps_foldl_222 _ _ _ (fun _ _ _ => ?_) ?_)
    | (simp (maxDischargeDepth := 40) only [Keeps.refl, keeps_mk, keeps_ite, outKeeps_next, outKeeps_ite, bodyKeeps_retire, bodyKeeps_exc, bodyKeeps_wait, bodyKeeps_stay, bodyKeeps_gone, bodyKeeps_posted, bodyKeeps_ite, loadHead_keeps, *]; done)
    | split
    | (dsimp only)

@[simp] theorem fillTile_keeps {s0 : State} (s : State) (L : Nat) (hk : Keeps s0 s) : Keeps s0 (fillTile s L) :=
  keeps_foldl _ _ (fun t _ h => fillHw_keeps t L h) s hk

@[simp] theorem jobUnload_keeps {s0 : State} (s : State) (j : BitVec 16) (hk : Keeps s0 s) : Keeps s0 (jobUnload s j) := by
  unfold jobUnload
  exact keeps_foldl _ _ (fun t L h => fillTile_keeps t L h) _ (keeps_mk hk ..)

@[simp] theorem jobAbort_keeps {s0 : State} (s : State) (j : BitVec 16) (hk : Keeps s0 s) : Keeps s0 (jobAbort s j) := by
  unfold jobAbort
  simp (maxDischargeDepth := 40) only [Keeps.refl, keeps_mk, keeps_ite, outKeeps_next, outKeeps_ite, bodyKeeps_retire, bodyKeeps_exc, bodyKeeps_wait, bodyKeeps_stay, bodyKeeps_gone, bodyKeeps_posted, bodyKeeps_ite, opsAbort_keeps, descAbort_keeps, wrsAbort_keeps, poolsDropJob_keeps, *]

@[simp] theorem unitsIdle_keeps {s0 : State} (s : State) (us : List Nat) (hk : Keeps s0 s) : Keeps s0 (unitsIdle s us) := by
  unfold unitsIdle
  repeat' first
    | assumption
    | (with_reducible refine keeps_foldl _ _ (fun _ _ _ => ?_) _ ?_)
    | (with_reducible refine keeps_foldl_1 _ _ _ (fun _ _ _ => ?_) ?_)
    | (with_reducible refine keeps_foldl_2 _ _ _ (fun _ _ _ => ?_) ?_)
    | (with_reducible refine keeps_foldl_22 _ _ _ (fun _ _ _ => ?_) ?_)
    | (with_reducible refine keeps_foldl_21 _ _ _ (fun _ _ _ => ?_) ?_)
    | (with_reducible refine keeps_foldl_221 _ _ _ (fun _ _ _ => ?_) ?_)
    | (with_reducible refine keeps_foldl_222 _ _ _ (fun _ _ _ => ?_) ?_)
    | (simp (maxDischargeDepth := 40) only [Keeps.refl, keeps_mk, keeps_ite, outKeeps_next, outKeeps_ite, bodyKeeps_retire, bodyKeeps_exc, bodyKeeps_wait, bodyKeeps_stay, bodyKeeps_gone, bodyKeeps_posted, bodyKeeps_ite, unitsMove_keeps, *]; done)
    | split
    | (dsimp only)

@[simp] theorem jobEnd_keeps {s0 : State} (s : State) (j : BitVec 16) (st : Status) (hk : Keeps s0 s) : Keeps s0 (jobEnd s j st) := by
  unfold jobEnd
  cases hx : jobOf s j with
  | none => exact hk
  | some x =>
    have h3 : Keeps s0 (slotsFree (streamsFree (poolsReclaim (jobUnload (recsSeal (jobAbort s j) j) j) [x.quotaCtx, x.quotaQp, x.quotaEng]) fun b => b.job = j) fun _ t => t.job = j) :=
      slotsFree_keeps _ _ (streamsFree_keeps _ _ (poolsReclaim_keeps _ _ (jobUnload_keeps _ _ (recsSeal_keeps _ _ (jobAbort_keeps _ _ hk)))))
    dsimp only
    generalize slotsFree (streamsFree (poolsReclaim (jobUnload (recsSeal (jobAbort s j) j) j) [x.quotaCtx, x.quotaQp, x.quotaEng]) fun b => b.job = j) (fun _ t => t.job = j) = s3 at h3 ⊢
    have h4 : Keeps s0 ((s3.adds.filter fun a => a.job = j).foldl (fun s a => ctrAdd s a.ctr a.amt) s3) := keeps_foldl _ _ (fun t a h => ctrAdd_keeps t _ _ h) _ h3
    generalize (s3.adds.filter fun a => a.job = j).foldl (fun s a => ctrAdd s a.ctr a.amt) s3 = s4 at h4 ⊢
    exact unitsIdle_keeps _ _ h4

@[simp] theorem jobCheckEnd_keeps {s0 : State} (s : State) (j : BitVec 16) (hk : Keeps s0 s) : Keeps s0 (jobCheckEnd s j) := by
  unfold jobCheckEnd
  simp (maxDischargeDepth := 40) only [Keeps.refl, keeps_mk, keeps_ite, outKeeps_next, outKeeps_ite, bodyKeeps_retire, bodyKeeps_exc, bodyKeeps_wait, bodyKeeps_stay, bodyKeeps_gone, bodyKeeps_posted, bodyKeeps_ite, jobEnd_keeps, *]

end Sys2Proof.Machine
end

