-- ==== Sys2Proof/Laws/Keeps/Operands.lean ====
section
/-! SUPPORT. The operations of Machine/Operands.lean keep the queue of waiting commands and the canonical form of the memories. -/

namespace Sys2Proof.Machine

set_option linter.unusedSimpArgs false

@[simp] theorem rgetHides_keeps {s0 : State} (s : State) (c : Ctx) (a : Nat) (len : Nat) (m : Mem) (hk : Keeps s0 s) : Keeps s0 (rgetHides s c a len m).2 := by
  unfold rgetHides
  repeat' first
    | assumption
    | (with_reducible refine keeps_foldl _ _ (fun _ _ _ => ?_) _ ?_)
    | (with_reducible refine keeps_foldl_1 _ _ _ (fun _ _ _ => ?_) ?_)
    | (with_reducible refine keeps_foldl_2 _ _ _ (fun _ _ _ => ?_) ?_)
    | (with_reducible refine keeps_foldl_22 _ _ _ (fun _ _ _ => ?_) ?_)
    | (with_reducible refine keeps_foldl_21 _ _ _ (fun _ _ _ => ?_) ?_)
    | (with_reducible refine keeps_foldl_221 _ _ _ (fun _ _ _ => ?_) ?_)
    | (with_reducible refine keeps_foldl_222 _ _ _ (fun _ _ _ => ?_) ?_)
    | (simp (maxDischargeDepth := 40) only [Keeps.refl, keeps_mk, keeps_ite, outKeeps_next, outKeeps_ite, bodyKeeps_retire, bodyKeeps_exc, bodyKeeps_wait, bodyKeeps_stay, bodyKeeps_gone, bodyKeeps_posted, bodyKeeps_ite, freeCells_keeps, *]; done)
    | split
    | (dsimp only)

@[simp] theorem winRead_keeps {s0 : State} (s : State) (L : Nat) (c : Ctx) (o : Nat) (len : Nat) (hk : Keeps s0 s) : Keeps s0 (winRead s L c o len).2.2 := by
  unfold winRead
  simp (maxDischargeDepth := 40) only [Keeps.refl, keeps_mk, keeps_ite, outKeeps_next, outKeeps_ite, bodyKeeps_retire, bodyKeeps_exc, bodyKeeps_wait, bodyKeeps_stay, bodyKeeps_gone, bodyKeeps_posted, bodyKeeps_ite, tsRead_keeps, rgetHides_keeps, *]

@[simp] theorem rputTaints_keeps {s0 : State} (s : State) (a : Nat) (len : Nat) (hk : Keeps s0 s) : Keeps s0 (rputTaints s a len) := by
  unfold rputTaints
  repeat' first
    | assumption
    | (with_reducible refine keeps_foldl _ _ (fun _ _ _ => ?_) _ ?_)
    | (with_reducible refine keeps_foldl_1 _ _ _ (fun _ _ _ => ?_) ?_)
    | (with_reducible refine keeps_foldl_2 _ _ _ (fun _ _ _ => ?_) ?_)
    | (with_reducible refine keeps_foldl_22 _ _ _ (fun _ _ _ => ?_) ?_)
    | (with_reducible refine keeps_foldl_21 _ _ _ (fun _ _ _ => ?_) ?_)
    | (with_reducible refine keeps_foldl_221 _ _ _ (fun _ _ _ => ?_) ?_)
    | (with_reducible refine keeps_foldl_222 _ _ _ (fun _ _ _ => ?_) ?_)
    | (simp (maxDischargeDepth := 40) only [Keeps.refl, keeps_mk, keeps_ite, outKeeps_next, outKeeps_ite, bodyKeeps_retire, bodyKeeps_exc, bodyKeeps_wait, bodyKeeps_stay, bodyKeeps_gone, bodyKeeps_posted, bodyKeeps_ite, freeCells_keeps, *]; done)
    | split
    | (dsimp only)

@[simp] theorem winWrite_keeps {s0 : State} (s : State) (L : Nat) (c : Ctx) (o : Nat) (len : Nat) (src : Mem) (hk : Keeps s0 s) : Keeps s0 (winWrite s L c o len src) := by
  unfold winWrite
  simp (maxDischargeDepth := 40) only [Keeps.refl, keeps_mk, keeps_ite, outKeeps_next, outKeeps_ite, bodyKeeps_retire, bodyKeeps_exc, bodyKeeps_wait, bodyKeeps_stay, bodyKeeps_gone, bodyKeeps_posted, bodyKeeps_ite, tsWrite_keeps, rputTaints_keeps, *]

end Sys2Proof.Machine
end

