-- ==== Sys2Proof/Laws/Keeps/Issue.lean ====
section
/-! SUPPORT. The operations of Machine/Issue.lean keep the queue of waiting commands and the canonical form of the memories. -/

namespace Sys2Proof.Machine

set_option linter.unusedSimpArgs false

@[simp] theorem recoveryMarks_keeps {s0 : State} (s : State) (L : Nat) (e : Exc) (hk : Keeps s0 s) : Keeps s0 (recoveryMarks s L e) := by
  unfold recoveryMarks
  simp (maxDischargeDepth := 40) only [Keeps.refl, keeps_mk, keeps_ite, outKeeps_next, outKeeps_ite, bodyKeeps_retire, bodyKeeps_exc, bodyKeeps_wait, bodyKeeps_stay, bodyKeeps_gone, bodyKeeps_posted, bodyKeeps_ite, setSuspect_keeps, addTrouble_keeps, *]

@[simp] theorem takeExc_keeps {s0 : State} (s : State) (L : Nat) (hw : Nat) (c : Ctx) (e : Exc) (hk : Keeps s0 s) : Keeps s0 (takeExc s L hw c e) := by
  unfold takeExc
  simp (maxDischargeDepth := 40) only [Keeps.refl, keeps_mk, keeps_ite, outKeeps_next, outKeeps_ite, bodyKeeps_retire, bodyKeeps_exc, bodyKeeps_wait, bodyKeeps_stay, bodyKeeps_gone, bodyKeeps_posted, bodyKeeps_ite, ctxSet_keeps, freezeTile_keeps, jobEnd_keeps, recoveryMarks_keeps, *]

@[simp] theorem traceWrite_keeps {s0 : State} (s : State) (L : Nat) (rec_ : Bytes) (hk : Keeps s0 s) : Keeps s0 (traceWrite s L rec_) := by
  unfold traceWrite
  repeat' first
    | assumption
    | (with_reducible refine keeps_foldl _ _ (fun _ _ _ => ?_) _ ?_)
    | (with_reducible refine keeps_foldl_1 _ _ _ (fun _ _ _ => ?_) ?_)
    | (with_reducible refine keeps_foldl_2 _ _ _ (fun _ _ _ => ?_) ?_)
    | (with_reducible refine keeps_foldl_22 _ _ _ (fun _ _ _ => ?_) ?_)
    | (with_reducible refine keeps_foldl_21 _ _ _ (fun _ _ _ => ?_) ?_)
    | (with_reducible refine keeps_foldl_221 _ _ _ (fun _ _ _ => ?_) ?_)
    | (with_reducible refine keeps_foldl_222 _ _ _ (fun _ _ _ => ?_) ?_)
    | (simp (maxDischargeDepth := 40) only [Keeps.refl, keeps_mk, keeps_ite, outKeeps_next, outKeeps_ite, bodyKeeps_retire, bodyKeeps_exc, bodyKeeps_wait, bodyKeeps_stay, bodyKeeps_gone, bodyKeeps_posted, bodyKeeps_ite, physPut_keeps, physRead_keeps, ownFail_keeps, *]; done)
    | split
    | (dsimp only)

@[simp] theorem traceRetire_keeps {s0 : State} (s : State) (L : Nat) (ord : Nat) (kind : Nat) (seg : Nat) (rec_ : Bytes) (hk : Keeps s0 s) : Keeps s0 (traceRetire s L ord kind seg rec_) := by
  unfold traceRetire
  repeat' first
    | assumption
    | (with_reducible refine keeps_foldl _ _ (fun _ _ _ => ?_) _ ?_)
    | (with_reducible refine keeps_foldl_1 _ _ _ (fun _ _ _ => ?_) ?_)
    | (with_reducible refine keeps_foldl_2 _ _ _ (fun _ _ _ => ?_) ?_)
    | (with_reducible refine keeps_foldl_22 _ _ _ (fun _ _ _ => ?_) ?_)
    | (with_reducible refine keeps_foldl_21 _ _ _ (fun _ _ _ => ?_) ?_)
    | (with_reducible refine keeps_foldl_221 _ _ _ (fun _ _ _ => ?_) ?_)
    | (with_reducible refine keeps_foldl_222 _ _ _ (fun _ _ _ => ?_) ?_)
    | (simp (maxDischargeDepth := 40) only [Keeps.refl, keeps_mk, keeps_ite, outKeeps_next, outKeeps_ite, bodyKeeps_retire, bodyKeeps_exc, bodyKeeps_wait, bodyKeeps_stay, bodyKeeps_gone, bodyKeeps_posted, bodyKeeps_ite, traceWrite_keeps, *]; done)
    | split
    | (dsimp only)

@[simp] theorem fetch_keeps {s0 : State} (s : State) (c : Ctx) (i : Issue) (hk : Keeps s0 s) : Keeps s0 (fetch s c i).2.2 := by
  unfold fetch
  repeat' first
    | assumption
    | (with_reducible refine keeps_foldl _ _ (fun _ _ _ => ?_) _ ?_)
    | (with_reducible refine keeps_foldl_1 _ _ _ (fun _ _ _ => ?_) ?_)
    | (with_reducible refine keeps_foldl_2 _ _ _ (fun _ _ _ => ?_) ?_)
    | (with_reducible refine keeps_foldl_22 _ _ _ (fun _ _ _ => ?_) ?_)
    | (with_reducible refine keeps_foldl_21 _ _ _ (fun _ _ _ => ?_) ?_)
    | (with_reducible refine keeps_foldl_221 _ _ _ (fun _ _ _ => ?_) ?_)
    | (with_reducible refine keeps_foldl_222 _ _ _ (fun _ _ _ => ?_) ?_)
    | (simp (maxDischargeDepth := 40) only [Keeps.refl, keeps_mk, keeps_ite, outKeeps_next, outKeeps_ite, bodyKeeps_retire, bodyKeeps_exc, bodyKeeps_wait, bodyKeeps_stay, bodyKeeps_gone, bodyKeeps_posted, bodyKeeps_ite, xlSpan_keeps, *]; done)
    | split
    | (dsimp only)

@[simp] theorem paceRetire_keeps {s0 : State} (s : State) (L : Nat) (c : Ctx) (d : Deps) (hk : Keeps s0 s) : Keeps s0 (paceRetire s L c d).1 := by
  unfold paceRetire
  repeat' first
    | assumption
    | (with_reducible refine keeps_foldl _ _ (fun _ _ _ => ?_) _ ?_)
    | (with_reducible refine keeps_foldl_1 _ _ _ (fun _ _ _ => ?_) ?_)
    | (with_reducible refine keeps_foldl_2 _ _ _ (fun _ _ _ => ?_) ?_)
    | (with_reducible refine keeps_foldl_22 _ _ _ (fun _ _ _ => ?_) ?_)
    | (with_reducible refine keeps_foldl_21 _ _ _ (fun _ _ _ => ?_) ?_)
    | (with_reducible refine keeps_foldl_221 _ _ _ (fun _ _ _ => ?_) ?_)
    | (with_reducible refine keeps_foldl_222 _ _ _ (fun _ _ _ => ?_) ?_)
    | (simp (maxDischargeDepth := 40) only [Keeps.refl, keeps_mk, keeps_ite, outKeeps_next, outKeeps_ite, bodyKeeps_retire, bodyKeeps_exc, bodyKeeps_wait, bodyKeeps_stay, bodyKeeps_gone, bodyKeeps_posted, bodyKeeps_ite, tileUpd_keeps, tick_keeps, *]; done)
    | split
    | (dsimp only)

@[simp] theorem lsReport_keeps {s0 : State} (s : State) (key : Nat) (batch : Word) (st : BitVec 3) (hk : Keeps s0 s) : Keeps s0 (lsReport s key batch st) := by
  unfold lsReport
  simp (maxDischargeDepth := 40) only [Keeps.refl, keeps_mk, keeps_ite, outKeeps_next, outKeeps_ite, bodyKeeps_retire, bodyKeeps_exc, bodyKeeps_wait, bodyKeeps_stay, bodyKeeps_gone, bodyKeeps_posted, bodyKeeps_ite, addTrouble_keeps, *]

@[simp] theorem lsCompare_keeps {s0 : State} (s : State) (hk : Keeps s0 s) : Keeps s0 (lsCompare s) := by
  unfold lsCompare
  repeat' first
    | assumption
    | (with_reducible refine keeps_foldl _ _ (fun _ _ _ => ?_) _ ?_)
    | (with_reducible refine keeps_foldl_1 _ _ _ (fun _ _ _ => ?_) ?_)
    | (with_reducible refine keeps_foldl_2 _ _ _ (fun _ _ _ => ?_) ?_)
    | (with_reducible refine keeps_foldl_22 _ _ _ (fun _ _ _ => ?_) ?_)
    | (with_reducible refine keeps_foldl_21 _ _ _ (fun _ _ _ => ?_) ?_)
    | (with_reducible refine keeps_foldl_221 _ _ _ (fun _ _ _ => ?_) ?_)
    | (with_reducible refine keeps_foldl_222 _ _ _ (fun _ _ _ => ?_) ?_)
    | (simp (maxDischargeDepth := 40) only [Keeps.refl, keeps_mk, keeps_ite, outKeeps_next, outKeeps_ite, bodyKeeps_retire, bodyKeeps_exc, bodyKeeps_wait, bodyKeeps_stay, bodyKeeps_gone, bodyKeeps_posted, bodyKeeps_ite, lsReport_keeps, *]; done)
    | split
    | (dsimp only)

@[simp] theorem lsOwn_keeps {s0 : State} (s : State) (key : Nat) (batch : Word) (dg : Bytes) (hk : Keeps s0 s) : Keeps s0 (lsOwn s key batch dg) := by
  unfold lsOwn
  simp (maxDischargeDepth := 40) only [Keeps.refl, keeps_mk, keeps_ite, outKeeps_next, outKeeps_ite, bodyKeeps_retire, bodyKeeps_exc, bodyKeeps_wait, bodyKeeps_stay, bodyKeeps_gone, bodyKeeps_posted, bodyKeeps_ite, send_keeps, lsCompare_keeps, *]

@[simp] theorem segRetire_keeps {s0 : State} (s : State) (L : Nat) (c0 : Ctx) (c : Ctx) (rec_ : Bytes) (hk : Keeps s0 s) : Keeps s0 (segRetire s L c0 c rec_) := by
  unfold segRetire
  simp (maxDischargeDepth := 40) only [Keeps.refl, keeps_mk, keeps_ite, outKeeps_next, outKeeps_ite, bodyKeeps_retire, bodyKeeps_exc, bodyKeeps_wait, bodyKeeps_stay, bodyKeeps_gone, bodyKeeps_posted, bodyKeeps_ite, lsOwn_keeps, *]

@[simp] theorem retireCore_keeps {s0 : State} (s : State) (L : Nat) (d : Deps) (c0 : Ctx) (c : Ctx) (pc : Word) (mw : List (Nat × Bytes)) (hk : Keeps s0 s) : Keeps s0 (retireCore s L d c0 c pc mw).1 := by
  unfold retireCore
  repeat' first
    | assumption
    | (with_reducible refine keeps_foldl _ _ (fun _ _ _ => ?_) _ ?_)
    | (with_reducible refine keeps_foldl_1 _ _ _ (fun _ _ _ => ?_) ?_)
    | (with_reducible refine keeps_foldl_2 _ _ _ (fun _ _ _ => ?_) ?_)
    | (with_reducible refine keeps_foldl_22 _ _ _ (fun _ _ _ => ?_) ?_)
    | (with_reducible refine keeps_foldl_21 _ _ _ (fun _ _ _ => ?_) ?_)
    | (with_reducible refine keeps_foldl_221 _ _ _ (fun _ _ _ => ?_) ?_)
    | (with_reducible refine keeps_foldl_222 _ _ _ (fun _ _ _ => ?_) ?_)
    | split
    | (simp (maxDischargeDepth := 40) only [Keeps.refl, keeps_mk, keeps_ite, outKeeps_next, outKeeps_ite, bodyKeeps_retire, bodyKeeps_exc, bodyKeeps_wait, bodyKeeps_stay, bodyKeeps_gone, bodyKeeps_posted, bodyKeeps_ite, segRetire_keeps, paceRetire_keeps, traceRetire_keeps, step_keeps, *]; done)
    | (with_reducible refine outKeeps_next ?_)
    | (with_reducible apply segRetire_keeps)
    | (with_reducible apply paceRetire_keeps)
    | (with_reducible apply traceRetire_keeps)
    | (with_reducible apply step_keeps)
    | (with_reducible apply keeps_mk)
    | (with_reducible intro _ _)
    | (dsimp only)

@[simp] theorem lsCheck_keeps {s0 : State} (s : State) (hk : Keeps s0 s) : Keeps s0 (lsCheck s) := by
  unfold lsCheck
  repeat' first
    | assumption
    | (with_reducible refine keeps_foldl _ _ (fun _ _ _ => ?_) _ ?_)
    | (with_reducible refine keeps_foldl_1 _ _ _ (fun _ _ _ => ?_) ?_)
    | (with_reducible refine keeps_foldl_2 _ _ _ (fun _ _ _ => ?_) ?_)
    | (with_reducible refine keeps_foldl_22 _ _ _ (fun _ _ _ => ?_) ?_)
    | (with_reducible refine keeps_foldl_21 _ _ _ (fun _ _ _ => ?_) ?_)
    | (with_reducible refine keeps_foldl_221 _ _ _ (fun _ _ _ => ?_) ?_)
    | (with_reducible refine keeps_foldl_222 _ _ _ (fun _ _ _ => ?_) ?_)
    | (simp (maxDischargeDepth := 40) only [Keeps.refl, keeps_mk, keeps_ite, outKeeps_next, outKeeps_ite, bodyKeeps_retire, bodyKeeps_exc, bodyKeeps_wait, bodyKeeps_stay, bodyKeeps_gone, bodyKeeps_posted, bodyKeeps_ite, freezeTile_keeps, *]; done)
    | split
    | (dsimp only)

@[simp] theorem retire_keeps {s0 : State} (s : State) (L : Nat) (hw : Nat) (i : Issue) (d : Deps) (c0 : Ctx) (c : Ctx) (next : Option Word) (mw : List (Nat × Bytes)) (hk : Keeps s0 s) : Keeps s0 (retire s L hw i d c0 c next mw) := by
  unfold retire
  simp (maxDischargeDepth := 40) only [Keeps.refl, keeps_mk, keeps_ite, outKeeps_next, outKeeps_ite, bodyKeeps_retire, bodyKeeps_exc, bodyKeeps_wait, bodyKeeps_stay, bodyKeeps_gone, bodyKeeps_posted, bodyKeeps_ite, ctxSet_keeps, retireCore_keeps, lsCheck_keeps, *]

@[simp] theorem ctxEnd_keeps {s0 : State} (s : State) (L : Nat) (hw : Nat) (c : Ctx) (cc : Option Nat) (t : Tag) (hk : Keeps s0 s) : Keeps s0 (ctxEnd s L hw c cc t) := by
  unfold ctxEnd
  repeat' first
    | assumption
    | (with_reducible refine keeps_foldl _ _ (fun _ _ _ => ?_) _ ?_)
    | (with_reducible refine keeps_foldl_1 _ _ _ (fun _ _ _ => ?_) ?_)
    | (with_reducible refine keeps_foldl_2 _ _ _ (fun _ _ _ => ?_) ?_)
    | (with_reducible refine keeps_foldl_22 _ _ _ (fun _ _ _ => ?_) ?_)
    | (with_reducible refine keeps_foldl_21 _ _ _ (fun _ _ _ => ?_) ?_)
    | (with_reducible refine keeps_foldl_221 _ _ _ (fun _ _ _ => ?_) ?_)
    | (with_reducible refine keeps_foldl_222 _ _ _ (fun _ _ _ => ?_) ?_)
    | (simp (maxDischargeDepth := 40) only [Keeps.refl, keeps_mk, keeps_ite, outKeeps_next, outKeeps_ite, bodyKeeps_retire, bodyKeeps_exc, bodyKeeps_wait, bodyKeeps_stay, bodyKeeps_gone, bodyKeeps_posted, bodyKeeps_ite, ctrAddTagged_keeps, frontDrop_keeps, loadHead_keeps, ctxDel_keeps, opsForget_keeps, jobCheckEnd_keeps, *]; done)
    | split
    | (dsimp only)

@[simp] theorem blockSave_keeps {s0 : State} (s : State) (L : Nat) (hw : Nat) (hk : Keeps s0 s) : Keeps s0 (blockSave s L hw) := by
  unfold blockSave
  simp (maxDischargeDepth := 40) only [Keeps.refl, keeps_mk, keeps_ite, outKeeps_next, outKeeps_ite, bodyKeeps_retire, bodyKeeps_exc, bodyKeeps_wait, bodyKeeps_stay, bodyKeeps_gone, bodyKeeps_posted, bodyKeeps_ite, swapOut_keeps, *]

@[simp] theorem issue_keeps {s0 : State} (s : State) (i : Issue) (d : Deps) (enc : Bool) (body : State → Ctx → Body) (hk : Keeps s0 s) (h_body : ∀ (x1 : State) (x2 : Ctx), Keeps s0 x1 → BodyKeeps s0 (body x1 x2)) : Keeps s0 (issue s i d enc body) := by
  unfold issue
  dsimp only
  cases ctxGet s i.tile.val i.hw.val with
  | none => exact hk
  | some c =>
    dsimp only
    split
    · exact hk
    · have h1 := fetch_keeps s c i hk
      generalize fetch s c i = f at h1 ⊢
      generalize (if (!f.1.isEmpty) = true then f.1 ++ stepExc c else if (!(enc && profileOk c d)) = true then ({ cause := 0x06, st := stIllegal } : Exc) :: stepExc c else []) = early
      split
      · split
        · exact takeExc_keeps _ _ _ _ _ h1
        · exact h1
      · have h2 := h_body f.2.2 f.2.1 h1
        cases hb : body f.2.2 f.2.1 <;> rw [hb] at h2 <;> dsimp only
        · split
          · exact takeExc_keeps _ _ _ _ _ h1
          · exact retire_keeps _ _ _ _ _ _ _ _ _ h2
        · split
          · exact takeExc_keeps _ _ _ _ _ h2
          · exact h2
        · split
          · exact takeExc_keeps _ _ _ _ _ h1
          · split
            all_goals first | exact blockSave_keeps _ _ _ (ctxSet_keeps _ _ _ _ h2) | exact ctxSet_keeps _ _ _ _ h2
        · split
          · exact takeExc_keeps _ _ _ _ _ h1
          · exact ctxSet_keeps _ _ _ _ h2
        · split
          · exact takeExc_keeps _ _ _ _ _ h1
          · exact ctxEnd_keeps _ _ _ _ _ _ (retireCore_keeps _ _ _ _ _ _ _ h2)
        · split
          · exact takeExc_keeps _ _ _ _ _ h1
          · exact retire_keeps _ _ _ _ _ _ _ _ _ h2

@[simp] theorem exc1_keeps {s0 : State} (s : State) (cause : Nat) (st : Status) (addr : optParam Word 0) (hk : Keeps s0 s) : BodyKeeps s0 (exc1 s cause st addr) := by
  unfold exc1
  simp (maxDischargeDepth := 40) only [Keeps.refl, keeps_mk, keeps_ite, outKeeps_next, outKeeps_ite, bodyKeeps_retire, bodyKeeps_exc, bodyKeeps_wait, bodyKeeps_stay, bodyKeeps_gone, bodyKeeps_posted, bodyKeeps_ite, *]

@[simp] theorem ret_keeps {s0 : State} (s : State) (c : Ctx) (hk : Keeps s0 s) : BodyKeeps s0 (ret s c) := by
  unfold ret
  simp (maxDischargeDepth := 40) only [Keeps.refl, keeps_mk, keeps_ite, outKeeps_next, outKeeps_ite, bodyKeeps_retire, bodyKeeps_exc, bodyKeeps_wait, bodyKeeps_stay, bodyKeeps_gone, bodyKeeps_posted, bodyKeeps_ite, retire_keeps, *]

end Sys2Proof.Machine
end

