-- ==== Sys2Proof/Laws/Keeps/Cullet.lean ====
section
/-! SUPPORT. The operations of Machine/Cullet.lean keep the queue of waiting commands and the canonical form of the memories. -/

namespace Sys2Proof.Machine

set_option linter.unusedSimpArgs false

@[simp] theorem callocOp_keeps {s0 : State} (i : Issue) (f : R3) (nb : Bool) (s : State) (hk : Keeps s0 s) : Keeps s0 (callocOp i f nb s) := by
  unfold callocOp
  repeat' first
    | assumption
    | (intro _)
    | (with_reducible refine keeps_foldl _ _ (fun _ _ _ => ?_) _ ?_)
    | (with_reducible refine keeps_foldl_1 _ _ _ (fun _ _ _ => ?_) ?_)
    | (with_reducible refine keeps_foldl_2 _ _ _ (fun _ _ _ => ?_) ?_)
    | (with_reducible refine keeps_foldl_22 _ _ _ (fun _ _ _ => ?_) ?_)
    | (with_reducible refine keeps_foldl_21 _ _ _ (fun _ _ _ => ?_) ?_)
    | (with_reducible refine keeps_foldl_221 _ _ _ (fun _ _ _ => ?_) ?_)
    | (with_reducible refine keeps_foldl_222 _ _ _ (fun _ _ _ => ?_) ?_)
    | (with_reducible apply poolUpd_keeps)
    | (with_reducible apply alloc_keeps)
    | (with_reducible apply tdcCount_keeps)
    | (with_reducible apply issue_keeps)
    | (with_reducible apply exc1_keeps)
    | (with_reducible apply ret_keeps)
    | (with_reducible apply keeps_mk)
    | (with_reducible apply outKeeps_next)
    | (with_reducible apply bodyKeeps_retire)
    | (with_reducible apply bodyKeeps_exc)
    | (with_reducible apply bodyKeeps_wait)
    | (with_reducible apply bodyKeeps_stay)
    | (with_reducible apply bodyKeeps_gone)
    | (with_reducible apply bodyKeeps_posted)
    | split
    | (dsimp only)
    | (simp (maxDischargeDepth := 40) only [Keeps.refl, keeps_mk, keeps_ite, outKeeps_next, outKeeps_ite, bodyKeeps_retire, bodyKeeps_exc, bodyKeeps_wait, bodyKeeps_stay, bodyKeeps_gone, bodyKeeps_posted, bodyKeeps_ite, poolUpd_keeps, alloc_keeps, tdcCount_keeps, issue_keeps, exc1_keeps, ret_keeps, *]; done)

@[simp] theorem execCalloc_keeps {s0 : State} (i : Issue) (f : R3) (s : State) (hk : Keeps s0 s) : OutKeeps s0 (execCalloc i f s) := by
  unfold execCalloc
  simp (maxDischargeDepth := 40) only [Keeps.refl, keeps_mk, keeps_ite, outKeeps_next, outKeeps_ite, bodyKeeps_retire, bodyKeeps_exc, bodyKeeps_wait, bodyKeeps_stay, bodyKeeps_gone, bodyKeeps_posted, bodyKeeps_ite, callocOp_keeps, *]

@[simp] theorem execCallocn_keeps {s0 : State} (i : Issue) (f : R3) (s : State) (hk : Keeps s0 s) : OutKeeps s0 (execCallocn i f s) := by
  unfold execCallocn
  simp (maxDischargeDepth := 40) only [Keeps.refl, keeps_mk, keeps_ite, outKeeps_next, outKeeps_ite, bodyKeeps_retire, bodyKeeps_exc, bodyKeeps_wait, bodyKeeps_stay, bodyKeeps_gone, bodyKeeps_posted, bodyKeeps_ite, callocOp_keeps, *]

@[simp] theorem refOp_keeps {s0 : State} (i : Issue) (f : R3) (enc : Bool) (early : Ctx → List Exc) (op : State → Ctx → Word → RefOut × State) (s : State) (h_op : ∀ (x1 : State) (x2 : Ctx) (x3 : Word), Keeps s0 x1 → Keeps s0 (op x1 x2 x3).2) (hk : Keeps s0 s) : Keeps s0 (refOp i f enc early op s) := by
  unfold refOp
  repeat' first
    | assumption
    | (intro _)
    | (with_reducible refine keeps_foldl _ _ (fun _ _ _ => ?_) _ ?_)
    | (with_reducible refine keeps_foldl_1 _ _ _ (fun _ _ _ => ?_) ?_)
    | (with_reducible refine keeps_foldl_2 _ _ _ (fun _ _ _ => ?_) ?_)
    | (with_reducible refine keeps_foldl_22 _ _ _ (fun _ _ _ => ?_) ?_)
    | (with_reducible refine keeps_foldl_21 _ _ _ (fun _ _ _ => ?_) ?_)
    | (with_reducible refine keeps_foldl_221 _ _ _ (fun _ _ _ => ?_) ?_)
    | (with_reducible refine keeps_foldl_222 _ _ _ (fun _ _ _ => ?_) ?_)
    | (with_reducible apply issue_keeps)
    | (with_reducible apply exc1_keeps)
    | (with_reducible apply ret_keeps)
    | (simp only [keeps_mk_iff])
    | (with_reducible apply outKeeps_next)
    | (with_reducible apply bodyKeeps_retire)
    | (with_reducible apply bodyKeeps_exc)
    | (with_reducible apply bodyKeeps_wait)
    | (with_reducible apply bodyKeeps_stay)
    | (with_reducible apply bodyKeeps_gone)
    | (with_reducible apply bodyKeeps_posted)
    | split
    | (dsimp only)
    | (simp (maxDischargeDepth := 40) only [Keeps.refl, keeps_mk, keeps_ite, outKeeps_next, outKeeps_ite, bodyKeeps_retire, bodyKeeps_exc, bodyKeeps_wait, bodyKeeps_stay, bodyKeeps_gone, bodyKeeps_posted, bodyKeeps_ite, issue_keeps, exc1_keeps, ret_keeps, *]; done)

@[simp] theorem execCref_keeps {s0 : State} (i : Issue) (f : R3) (s : State) (hk : Keeps s0 s) : OutKeeps s0 (execCref i f s) := by
  unfold execCref
  repeat' first
    | assumption
    | (with_reducible refine keeps_foldl _ _ (fun _ _ _ => ?_) _ ?_)
    | (with_reducible refine keeps_foldl_1 _ _ _ (fun _ _ _ => ?_) ?_)
    | (with_reducible refine keeps_foldl_2 _ _ _ (fun _ _ _ => ?_) ?_)
    | (with_reducible refine keeps_foldl_22 _ _ _ (fun _ _ _ => ?_) ?_)
    | (with_reducible refine keeps_foldl_21 _ _ _ (fun _ _ _ => ?_) ?_)
    | (with_reducible refine keeps_foldl_221 _ _ _ (fun _ _ _ => ?_) ?_)
    | (with_reducible refine keeps_foldl_222 _ _ _ (fun _ _ _ => ?_) ?_)
    | split
    | (simp (maxDischargeDepth := 40) only [Keeps.refl, keeps_mk, keeps_ite, outKeeps_next, outKeeps_ite, bodyKeeps_retire, bodyKeeps_exc, bodyKeeps_wait, bodyKeeps_stay, bodyKeeps_gone, bodyKeeps_posted, bodyKeeps_ite, handleRef_keeps, refOp_keeps, *]; done)
    | (with_reducible refine outKeeps_next ?_)
    | (with_reducible apply handleRef_keeps)
    | (with_reducible apply refOp_keeps)
    | (with_reducible apply keeps_mk)
    | (with_reducible intro _ _)
    | (dsimp only)

@[simp] theorem execCfree_keeps {s0 : State} (i : Issue) (f : R3) (s : State) (hk : Keeps s0 s) : OutKeeps s0 (execCfree i f s) := by
  unfold execCfree
  repeat' first
    | assumption
    | (with_reducible refine keeps_foldl _ _ (fun _ _ _ => ?_) _ ?_)
    | (with_reducible refine keeps_foldl_1 _ _ _ (fun _ _ _ => ?_) ?_)
    | (with_reducible refine keeps_foldl_2 _ _ _ (fun _ _ _ => ?_) ?_)
    | (with_reducible refine keeps_foldl_22 _ _ _ (fun _ _ _ => ?_) ?_)
    | (with_reducible refine keeps_foldl_21 _ _ _ (fun _ _ _ => ?_) ?_)
    | (with_reducible refine keeps_foldl_221 _ _ _ (fun _ _ _ => ?_) ?_)
    | (with_reducible refine keeps_foldl_222 _ _ _ (fun _ _ _ => ?_) ?_)
    | split
    | (simp (maxDischargeDepth := 40) only [Keeps.refl, keeps_mk, keeps_ite, outKeeps_next, outKeeps_ite, bodyKeeps_retire, bodyKeeps_exc, bodyKeeps_wait, bodyKeeps_stay, bodyKeeps_gone, bodyKeeps_posted, bodyKeeps_ite, handleRelease_keeps, refOp_keeps, *]; done)
    | (with_reducible refine outKeeps_next ?_)
    | (with_reducible apply handleRelease_keeps)
    | (with_reducible apply refOp_keeps)
    | (with_reducible apply keeps_mk)
    | (with_reducible intro _ _)
    | (dsimp only)

@[simp] theorem poolEnable_keeps {s0 : State} (s : State) (n : Nat) (hk : Keeps s0 s) : Keeps s0 (poolEnable s n) := by
  unfold poolEnable
  dsimp only
  split
  · exact hk
  split
  · exact poolSet_keeps _ _ _ hk
  have h1 := physWrite_keeps s (stateAddr (poolGet s n) 0) (8 * (poolGet s n).count.toNat) (memOfBytes 0 ((List.range (poolGet s n).count.toNat).flatMap fun _ => leBytes 8 (mkStateWord 0 (poolGet s n).genSeed.toNat 0 false))) hk
  generalize physWrite s (stateAddr (poolGet s n) 0) (8 * (poolGet s n).count.toNat) (memOfBytes 0 ((List.range (poolGet s n).count.toNat).flatMap fun _ => leBytes 8 (mkStateWord 0 (poolGet s n).genSeed.toNat 0 false))) = w at h1 ⊢
  have h2 := keeps_foldl_22 (s0 := s0) (List.range 4096) (fun (acc : Status × Nat × State) q =>
      let a := quotaAddr acc.2.2 q n + 4
      let r := physPut acc.2.2 a (zeros 4)
      if acc.1 = stOk then (r.1, a, r.2) else acc) (w.1, stateAddr (poolGet s n) 0, w.2) (fun t q h => by
        dsimp only
        split
        · exact physPut_keeps _ _ _ h
        · exact h) h1
  dsimp only at h2
  generalize (List.range 4096).foldl (fun (acc : Status × Nat × State) q =>
      if acc.1 = stOk then ((physPut acc.2.2 (quotaAddr acc.2.2 q n + 4) (zeros 4)).1, quotaAddr acc.2.2 q n + 4, (physPut acc.2.2 (quotaAddr acc.2.2 q n + 4) (zeros 4)).2) else acc)
      (w.1, stateAddr (poolGet s n) 0, w.2) = z at h2 ⊢
  split
  · exact poolSet_keeps _ _ _ h2
  · exact ownFail_keeps _ _ _ _ (poolSet_keeps _ _ _ h2)

@[simp] theorem poolDisable_keeps {s0 : State} (s : State) (n : Nat) (hk : Keeps s0 s) : Keeps s0 (poolDisable s n) := by
  unfold poolDisable
  simp (maxDischargeDepth := 40) only [Keeps.refl, keeps_mk, keeps_ite, outKeeps_next, outKeeps_ite, bodyKeeps_retire, bodyKeeps_exc, bodyKeeps_wait, bodyKeeps_stay, bodyKeeps_gone, bodyKeeps_posted, bodyKeeps_ite, poolSet_keeps, *]

@[simp] theorem execPoolEnable_keeps {s0 : State} (p : Fin 64) (s : State) (hk : Keeps s0 s) : OutKeeps s0 (execPoolEnable p s) := by
  unfold execPoolEnable
  simp (maxDischargeDepth := 40) only [Keeps.refl, keeps_mk, keeps_ite, outKeeps_next, outKeeps_ite, bodyKeeps_retire, bodyKeeps_exc, bodyKeeps_wait, bodyKeeps_stay, bodyKeeps_gone, bodyKeeps_posted, bodyKeeps_ite, poolEnable_keeps, *]

@[simp] theorem execPoolDisable_keeps {s0 : State} (p : Fin 64) (s : State) (hk : Keeps s0 s) : OutKeeps s0 (execPoolDisable p s) := by
  unfold execPoolDisable
  simp (maxDischargeDepth := 40) only [Keeps.refl, keeps_mk, keeps_ite, outKeeps_next, outKeeps_ite, bodyKeeps_retire, bodyKeeps_exc, bodyKeeps_wait, bodyKeeps_stay, bodyKeeps_gone, bodyKeeps_posted, bodyKeeps_ite, poolDisable_keeps, *]

@[simp] theorem culRetire_keeps {s0 : State} (s : State) (L : Nat) (hw : Nat) (c : Ctx) (rd : Nat) (h : Word) (hk : Keeps s0 s) : Keeps s0 (culRetire s L hw c rd h) := by
  unfold culRetire
  simp (maxDischargeDepth := 40) only [Keeps.refl, keeps_mk, keeps_ite, outKeeps_next, outKeeps_ite, bodyKeeps_retire, bodyKeeps_exc, bodyKeeps_wait, bodyKeeps_stay, bodyKeeps_gone, bodyKeeps_posted, bodyKeeps_ite, ctxSet_keeps, retireCore_keeps, *]

@[simp] theorem culRetireSaved_keeps {s0 : State} (s : State) (v : Saved) (L : Nat) (rd : Nat) (h : Word) (hk : Keeps s0 s) : Keeps s0 (culRetireSaved s v L rd h) := by
  unfold culRetireSaved
  simp (maxDischargeDepth := 40) only [Keeps.refl, keeps_mk, keeps_ite, outKeeps_next, outKeeps_ite, bodyKeeps_retire, bodyKeeps_exc, bodyKeeps_wait, bodyKeeps_stay, bodyKeeps_gone, bodyKeeps_posted, bodyKeeps_ite, freezeTile_keeps, areaWrite_keeps, tileUpd_keeps, areaRead_keeps, retireCore_keeps, *]

@[simp] theorem serveCtx_keeps {s0 : State} (s : State) (sw : Nat) (h : Word) (hk : Keeps s0 s) : Keeps s0 (serveCtx s sw h) := by
  unfold serveCtx
  repeat' first
    | assumption
    | (with_reducible refine keeps_foldl _ _ (fun _ _ _ => ?_) _ ?_)
    | (with_reducible refine keeps_foldl_1 _ _ _ (fun _ _ _ => ?_) ?_)
    | (with_reducible refine keeps_foldl_2 _ _ _ (fun _ _ _ => ?_) ?_)
    | (with_reducible refine keeps_foldl_22 _ _ _ (fun _ _ _ => ?_) ?_)
    | (with_reducible refine keeps_foldl_21 _ _ _ (fun _ _ _ => ?_) ?_)
    | (with_reducible refine keeps_foldl_221 _ _ _ (fun _ _ _ => ?_) ?_)
    | (with_reducible refine keeps_foldl_222 _ _ _ (fun _ _ _ => ?_) ?_)
    | (simp (maxDischargeDepth := 40) only [Keeps.refl, keeps_mk, keeps_ite, outKeeps_next, outKeeps_ite, bodyKeeps_retire, bodyKeeps_exc, bodyKeeps_wait, bodyKeeps_stay, bodyKeeps_gone, bodyKeeps_posted, bodyKeeps_ite, culRetireSaved_keeps, culRetire_keeps, *]; done)
    | split
    | (dsimp only)

@[simp] theorem serveBad_keeps {s0 : State} (s : State) (sw : Nat) (st : Status) (hk : Keeps s0 s) : Keeps s0 (serveBad s sw st) := by
  unfold serveBad
  repeat' first
    | assumption
    | (with_reducible refine keeps_foldl _ _ (fun _ _ _ => ?_) _ ?_)
    | (with_reducible refine keeps_foldl_1 _ _ _ (fun _ _ _ => ?_) ?_)
    | (with_reducible refine keeps_foldl_2 _ _ _ (fun _ _ _ => ?_) ?_)
    | (with_reducible refine keeps_foldl_22 _ _ _ (fun _ _ _ => ?_) ?_)
    | (with_reducible refine keeps_foldl_21 _ _ _ (fun _ _ _ => ?_) ?_)
    | (with_reducible refine keeps_foldl_221 _ _ _ (fun _ _ _ => ?_) ?_)
    | (with_reducible refine keeps_foldl_222 _ _ _ (fun _ _ _ => ?_) ?_)
    | (simp (maxDischargeDepth := 40) only [Keeps.refl, keeps_mk, keeps_ite, outKeeps_next, outKeeps_ite, bodyKeeps_retire, bodyKeeps_exc, bodyKeeps_wait, bodyKeeps_stay, bodyKeeps_gone, bodyKeeps_posted, bodyKeeps_ite, freezeTile_keeps, areaWrite_keeps, areaRead_keeps, takeExc_keeps, *]; done)
    | split
    | (dsimp only)

@[simp] theorem serveDesc_keeps {s0 : State} (s : State) (id : Nat) (h : Word) (hk : Keeps s0 s) : Keeps s0 (serveDesc s id h) := by
  unfold serveDesc
  simp (maxDischargeDepth := 40) only [Keeps.refl, keeps_mk, keeps_ite, outKeeps_next, outKeeps_ite, bodyKeeps_retire, bodyKeeps_exc, bodyKeeps_wait, bodyKeeps_stay, bodyKeeps_gone, bodyKeeps_posted, bodyKeeps_ite, *]

@[simp] theorem waiterServe_keeps {s0 : State} (s : State) (p : Nat) (hk : Keeps s0 s) : Keeps s0 (waiterServe s p) := by
  unfold waiterServe
  repeat' first
    | assumption
    | (with_reducible refine keeps_foldl _ _ (fun _ _ _ => ?_) _ ?_)
    | (with_reducible refine keeps_foldl_1 _ _ _ (fun _ _ _ => ?_) ?_)
    | (with_reducible refine keeps_foldl_2 _ _ _ (fun _ _ _ => ?_) ?_)
    | (with_reducible refine keeps_foldl_22 _ _ _ (fun _ _ _ => ?_) ?_)
    | (with_reducible refine keeps_foldl_21 _ _ _ (fun _ _ _ => ?_) ?_)
    | (with_reducible refine keeps_foldl_221 _ _ _ (fun _ _ _ => ?_) ?_)
    | (with_reducible refine keeps_foldl_222 _ _ _ (fun _ _ _ => ?_) ?_)
    | (simp (maxDischargeDepth := 40) only [Keeps.refl, keeps_mk, keeps_ite, outKeeps_next, outKeeps_ite, bodyKeeps_retire, bodyKeeps_exc, bodyKeeps_wait, bodyKeeps_stay, bodyKeeps_gone, bodyKeeps_posted, bodyKeeps_ite, poolUpd_keeps, alloc_keeps, serveBad_keeps, serveDesc_keeps, serveCtx_keeps, *]; done)
    | split
    | (dsimp only)

end Sys2Proof.Machine
end

