-- ==== Sys2Proof/Laws/Keeps/Scalar.lean ====
section
/-! SUPPORT. The operations of Machine/Scalar.lean keep the queue of waiting commands and the canonical form of the memories. -/

namespace Sys2Proof.Machine

set_option linter.unusedSimpArgs false

@[simp] theorem execAlu_keeps {s0 : State} (i : Issue) (f : RFmt) (s : State) (hk : Keeps s0 s) : OutKeeps s0 (execAlu i f s) := by
  unfold execAlu
  repeat' first
    | assumption
    | (with_reducible refine keeps_foldl _ _ (fun _ _ _ => ?_) _ ?_)
    | (with_reducible refine keeps_foldl_1 _ _ _ (fun _ _ _ => ?_) ?_)
    | (with_reducible refine keeps_foldl_2 _ _ _ (fun _ _ _ => ?_) ?_)
    | (with_reducible refine keeps_foldl_22 _ _ _ (fun _ _ _ => ?_) ?_)
    | (with_reducible refine keeps_foldl_21 _ _ _ (fun _ _ _ => ?_) ?_)
    | (with_reducible refine keeps_foldl_221 _ _ _ (fun _ _ _ => ?_) ?_)
    | (with_reducible refine keeps_foldl_222 _ _ _ (fun _ _ _ => ?_) ?_)
    | split
    | (simp (maxDischargeDepth := 40) only [Keeps.refl, keeps_mk, keeps_ite, outKeeps_next, outKeeps_ite, bodyKeeps_retire, bodyKeeps_exc, bodyKeeps_wait, bodyKeeps_stay, bodyKeeps_gone, bodyKeeps_posted, bodyKeeps_ite, issue_keeps, ret_keeps, *]; done)
    | (with_reducible refine outKeeps_next ?_)
    | (with_reducible apply issue_keeps)
    | (with_reducible apply ret_keeps)
    | (with_reducible apply keeps_mk)
    | (with_reducible intro _ _)
    | (dsimp only)

@[simp] theorem immOp_keeps {s0 : State} (i : Issue) (f : IFmt) (fn : Word → Word → Word) (s : State) (hk : Keeps s0 s) : Keeps s0 (immOp i f fn s) := by
  unfold immOp
  repeat' first
    | assumption
    | (with_reducible refine keeps_foldl _ _ (fun _ _ _ => ?_) _ ?_)
    | (with_reducible refine keeps_foldl_1 _ _ _ (fun _ _ _ => ?_) ?_)
    | (with_reducible refine keeps_foldl_2 _ _ _ (fun _ _ _ => ?_) ?_)
    | (with_reducible refine keeps_foldl_22 _ _ _ (fun _ _ _ => ?_) ?_)
    | (with_reducible refine keeps_foldl_21 _ _ _ (fun _ _ _ => ?_) ?_)
    | (with_reducible refine keeps_foldl_221 _ _ _ (fun _ _ _ => ?_) ?_)
    | (with_reducible refine keeps_foldl_222 _ _ _ (fun _ _ _ => ?_) ?_)
    | split
    | (simp (maxDischargeDepth := 40) only [Keeps.refl, keeps_mk, keeps_ite, outKeeps_next, outKeeps_ite, bodyKeeps_retire, bodyKeeps_exc, bodyKeeps_wait, bodyKeeps_stay, bodyKeeps_gone, bodyKeeps_posted, bodyKeeps_ite, issue_keeps, ret_keeps, *]; done)
    | (with_reducible refine outKeeps_next ?_)
    | (with_reducible apply issue_keeps)
    | (with_reducible apply ret_keeps)
    | (with_reducible apply keeps_mk)
    | (with_reducible intro _ _)
    | (dsimp only)

@[simp] theorem execAddi_keeps {s0 : State} (i : Issue) (f : IFmt) (s : State) (hk : Keeps s0 s) : OutKeeps s0 (execAddi i f s) := by
  unfold execAddi
  simp (maxDischargeDepth := 40) only [Keeps.refl, keeps_mk, keeps_ite, outKeeps_next, outKeeps_ite, bodyKeeps_retire, bodyKeeps_exc, bodyKeeps_wait, bodyKeeps_stay, bodyKeeps_gone, bodyKeeps_posted, bodyKeeps_ite, immOp_keeps, *]

@[simp] theorem execAndi_keeps {s0 : State} (i : Issue) (f : IFmt) (s : State) (hk : Keeps s0 s) : OutKeeps s0 (execAndi i f s) := by
  unfold execAndi
  simp (maxDischargeDepth := 40) only [Keeps.refl, keeps_mk, keeps_ite, outKeeps_next, outKeeps_ite, bodyKeeps_retire, bodyKeeps_exc, bodyKeeps_wait, bodyKeeps_stay, bodyKeeps_gone, bodyKeeps_posted, bodyKeeps_ite, immOp_keeps, *]

@[simp] theorem execOri_keeps {s0 : State} (i : Issue) (f : IFmt) (s : State) (hk : Keeps s0 s) : OutKeeps s0 (execOri i f s) := by
  unfold execOri
  simp (maxDischargeDepth := 40) only [Keeps.refl, keeps_mk, keeps_ite, outKeeps_next, outKeeps_ite, bodyKeeps_retire, bodyKeeps_exc, bodyKeeps_wait, bodyKeeps_stay, bodyKeeps_gone, bodyKeeps_posted, bodyKeeps_ite, immOp_keeps, *]

@[simp] theorem execXori_keeps {s0 : State} (i : Issue) (f : IFmt) (s : State) (hk : Keeps s0 s) : OutKeeps s0 (execXori i f s) := by
  unfold execXori
  simp (maxDischargeDepth := 40) only [Keeps.refl, keeps_mk, keeps_ite, outKeeps_next, outKeeps_ite, bodyKeeps_retire, bodyKeeps_exc, bodyKeeps_wait, bodyKeeps_stay, bodyKeeps_gone, bodyKeeps_posted, bodyKeeps_ite, immOp_keeps, *]

@[simp] theorem execSlti_keeps {s0 : State} (i : Issue) (f : IFmt) (s : State) (hk : Keeps s0 s) : OutKeeps s0 (execSlti i f s) := by
  unfold execSlti
  simp (maxDischargeDepth := 40) only [Keeps.refl, keeps_mk, keeps_ite, outKeeps_next, outKeeps_ite, bodyKeeps_retire, bodyKeeps_exc, bodyKeeps_wait, bodyKeeps_stay, bodyKeeps_gone, bodyKeeps_posted, bodyKeeps_ite, immOp_keeps, *]

@[simp] theorem execSltiu_keeps {s0 : State} (i : Issue) (f : IFmt) (s : State) (hk : Keeps s0 s) : OutKeeps s0 (execSltiu i f s) := by
  unfold execSltiu
  simp (maxDischargeDepth := 40) only [Keeps.refl, keeps_mk, keeps_ite, outKeeps_next, outKeeps_ite, bodyKeeps_retire, bodyKeeps_exc, bodyKeeps_wait, bodyKeeps_stay, bodyKeeps_gone, bodyKeeps_posted, bodyKeeps_ite, immOp_keeps, *]

@[simp] theorem shiftOp_keeps {s0 : State} (i : Issue) (f : ShFmt) (fn : Word → Nat → Word) (s : State) (hk : Keeps s0 s) : Keeps s0 (shiftOp i f fn s) := by
  unfold shiftOp
  repeat' first
    | assumption
    | (with_reducible refine keeps_foldl _ _ (fun _ _ _ => ?_) _ ?_)
    | (with_reducible refine keeps_foldl_1 _ _ _ (fun _ _ _ => ?_) ?_)
    | (with_reducible refine keeps_foldl_2 _ _ _ (fun _ _ _ => ?_) ?_)
    | (with_reducible refine keeps_foldl_22 _ _ _ (fun _ _ _ => ?_) ?_)
    | (with_reducible refine keeps_foldl_21 _ _ _ (fun _ _ _ => ?_) ?_)
    | (with_reducible refine keeps_foldl_221 _ _ _ (fun _ _ _ => ?_) ?_)
    | (with_reducible refine keeps_foldl_222 _ _ _ (fun _ _ _ => ?_) ?_)
    | split
    | (simp (maxDischargeDepth := 40) only [Keeps.refl, keeps_mk, keeps_ite, outKeeps_next, outKeeps_ite, bodyKeeps_retire, bodyKeeps_exc, bodyKeeps_wait, bodyKeeps_stay, bodyKeeps_gone, bodyKeeps_posted, bodyKeeps_ite, issue_keeps, ret_keeps, *]; done)
    | (with_reducible refine outKeeps_next ?_)
    | (with_reducible apply issue_keeps)
    | (with_reducible apply ret_keeps)
    | (with_reducible apply keeps_mk)
    | (with_reducible intro _ _)
    | (dsimp only)

@[simp] theorem execSlli_keeps {s0 : State} (i : Issue) (f : ShFmt) (s : State) (hk : Keeps s0 s) : OutKeeps s0 (execSlli i f s) := by
  unfold execSlli
  simp (maxDischargeDepth := 40) only [Keeps.refl, keeps_mk, keeps_ite, outKeeps_next, outKeeps_ite, bodyKeeps_retire, bodyKeeps_exc, bodyKeeps_wait, bodyKeeps_stay, bodyKeeps_gone, bodyKeeps_posted, bodyKeeps_ite, shiftOp_keeps, *]

@[simp] theorem execSrli_keeps {s0 : State} (i : Issue) (f : ShFmt) (s : State) (hk : Keeps s0 s) : OutKeeps s0 (execSrli i f s) := by
  unfold execSrli
  simp (maxDischargeDepth := 40) only [Keeps.refl, keeps_mk, keeps_ite, outKeeps_next, outKeeps_ite, bodyKeeps_retire, bodyKeeps_exc, bodyKeeps_wait, bodyKeeps_stay, bodyKeeps_gone, bodyKeeps_posted, bodyKeeps_ite, shiftOp_keeps, *]

@[simp] theorem execSrai_keeps {s0 : State} (i : Issue) (f : ShFmt) (s : State) (hk : Keeps s0 s) : OutKeeps s0 (execSrai i f s) := by
  unfold execSrai
  simp (maxDischargeDepth := 40) only [Keeps.refl, keeps_mk, keeps_ite, outKeeps_next, outKeeps_ite, bodyKeeps_retire, bodyKeeps_exc, bodyKeeps_wait, bodyKeeps_stay, bodyKeeps_gone, bodyKeeps_posted, bodyKeeps_ite, shiftOp_keeps, *]

@[simp] theorem execRori_keeps {s0 : State} (i : Issue) (f : ShFmt) (s : State) (hk : Keeps s0 s) : OutKeeps s0 (execRori i f s) := by
  unfold execRori
  simp (maxDischargeDepth := 40) only [Keeps.refl, keeps_mk, keeps_ite, outKeeps_next, outKeeps_ite, bodyKeeps_retire, bodyKeeps_exc, bodyKeeps_wait, bodyKeeps_stay, bodyKeeps_gone, bodyKeeps_posted, bodyKeeps_ite, shiftOp_keeps, *]

@[simp] theorem execLi_keeps {s0 : State} (i : Issue) (f : JFmt) (s : State) (hk : Keeps s0 s) : OutKeeps s0 (execLi i f s) := by
  unfold execLi
  repeat' first
    | assumption
    | (with_reducible refine keeps_foldl _ _ (fun _ _ _ => ?_) _ ?_)
    | (with_reducible refine keeps_foldl_1 _ _ _ (fun _ _ _ => ?_) ?_)
    | (with_reducible refine keeps_foldl_2 _ _ _ (fun _ _ _ => ?_) ?_)
    | (with_reducible refine keeps_foldl_22 _ _ _ (fun _ _ _ => ?_) ?_)
    | (with_reducible refine keeps_foldl_21 _ _ _ (fun _ _ _ => ?_) ?_)
    | (with_reducible refine keeps_foldl_221 _ _ _ (fun _ _ _ => ?_) ?_)
    | (with_reducible refine keeps_foldl_222 _ _ _ (fun _ _ _ => ?_) ?_)
    | split
    | (simp (maxDischargeDepth := 40) only [Keeps.refl, keeps_mk, keeps_ite, outKeeps_next, outKeeps_ite, bodyKeeps_retire, bodyKeeps_exc, bodyKeeps_wait, bodyKeeps_stay, bodyKeeps_gone, bodyKeeps_posted, bodyKeeps_ite, issue_keeps, ret_keeps, *]; done)
    | (with_reducible refine outKeeps_next ?_)
    | (with_reducible apply issue_keeps)
    | (with_reducible apply ret_keeps)
    | (with_reducible apply keeps_mk)
    | (with_reducible intro _ _)
    | (dsimp only)

@[simp] theorem execLih_keeps {s0 : State} (i : Issue) (f : JFmt) (s : State) (hk : Keeps s0 s) : OutKeeps s0 (execLih i f s) := by
  unfold execLih
  repeat' first
    | assumption
    | (with_reducible refine keeps_foldl _ _ (fun _ _ _ => ?_) _ ?_)
    | (with_reducible refine keeps_foldl_1 _ _ _ (fun _ _ _ => ?_) ?_)
    | (with_reducible refine keeps_foldl_2 _ _ _ (fun _ _ _ => ?_) ?_)
    | (with_reducible refine keeps_foldl_22 _ _ _ (fun _ _ _ => ?_) ?_)
    | (with_reducible refine keeps_foldl_21 _ _ _ (fun _ _ _ => ?_) ?_)
    | (with_reducible refine keeps_foldl_221 _ _ _ (fun _ _ _ => ?_) ?_)
    | (with_reducible refine keeps_foldl_222 _ _ _ (fun _ _ _ => ?_) ?_)
    | split
    | (simp (maxDischargeDepth := 40) only [Keeps.refl, keeps_mk, keeps_ite, outKeeps_next, outKeeps_ite, bodyKeeps_retire, bodyKeeps_exc, bodyKeeps_wait, bodyKeeps_stay, bodyKeeps_gone, bodyKeeps_posted, bodyKeeps_ite, issue_keeps, ret_keeps, *]; done)
    | (with_reducible refine outKeeps_next ?_)
    | (with_reducible apply issue_keeps)
    | (with_reducible apply ret_keeps)
    | (with_reducible apply keeps_mk)
    | (with_reducible intro _ _)
    | (dsimp only)

@[simp] theorem execLd_keeps {s0 : State} (i : Issue) (f : MFmt) (s : State) (hk : Keeps s0 s) : OutKeeps s0 (execLd i f s) := by
  unfold execLd
  repeat' first
    | assumption
    | (intro _)
    | (with_reducible refine keeps_foldl _ _ (fun _ _ _ => ?_) _ ?_)
    | (with_reducible refine keeps_foldl_1 _ _ _ (fun _ _ _ => ?_) ?_)
    | (with_reducible refine keeps_foldl_2 _ _ _ (fun _ _ _ => ?_) ?_)
    | (with_reducible refine keeps_foldl_22 _ _ _ (fun _ _ _ => ?_) ?_)
    | (with_reducible refine keeps_foldl_21 _ _ _ (fun _ _ _ => ?_) ?_)
    | (with_reducible refine keeps_foldl_221 _ _ _ (fun _ _ _ => ?_) ?_)
    | (with_reducible refine keeps_foldl_222 _ _ _ (fun _ _ _ => ?_) ?_)
    | (with_reducible apply winRead_keeps)
    | (with_reducible apply issue_keeps)
    | (with_reducible apply ret_keeps)
    | (with_reducible apply keeps_mk)
    | (with_reducible apply outKeeps_next)
    | (with_reducible apply bodyKeeps_retire)
    | (with_reducible apply bodyKeeps_exc)
    | (with_reducible apply bodyKeeps_wait)
    | (with_reducible apply bodyKeeps_stay)
    | (with_reducible apply bodyKeeps_gone)
    | (with_reducible apply bodyKeeps_posted)
    | split
    | (dsimp only)
    | (simp (maxDischargeDepth := 40) only [Keeps.refl, keeps_mk, keeps_ite, outKeeps_next, outKeeps_ite, bodyKeeps_retire, bodyKeeps_exc, bodyKeeps_wait, bodyKeeps_stay, bodyKeeps_gone, bodyKeeps_posted, bodyKeeps_ite, winRead_keeps, issue_keeps, ret_keeps, *]; done)

@[simp] theorem execSt_keeps {s0 : State} (i : Issue) (f : MFmt) (s : State) (hk : Keeps s0 s) : OutKeeps s0 (execSt i f s) := by
  unfold execSt
  repeat' first
    | assumption
    | (intro _)
    | (with_reducible refine keeps_foldl _ _ (fun _ _ _ => ?_) _ ?_)
    | (with_reducible refine keeps_foldl_1 _ _ _ (fun _ _ _ => ?_) ?_)
    | (with_reducible refine keeps_foldl_2 _ _ _ (fun _ _ _ => ?_) ?_)
    | (with_reducible refine keeps_foldl_22 _ _ _ (fun _ _ _ => ?_) ?_)
    | (with_reducible refine keeps_foldl_21 _ _ _ (fun _ _ _ => ?_) ?_)
    | (with_reducible refine keeps_foldl_221 _ _ _ (fun _ _ _ => ?_) ?_)
    | (with_reducible refine keeps_foldl_222 _ _ _ (fun _ _ _ => ?_) ?_)
    | (with_reducible apply winWrite_keeps)
    | (with_reducible apply issue_keeps)
    | (with_reducible apply retire_keeps)
    | (with_reducible apply keeps_mk)
    | (with_reducible apply outKeeps_next)
    | (with_reducible apply bodyKeeps_retire)
    | (with_reducible apply bodyKeeps_exc)
    | (with_reducible apply bodyKeeps_wait)
    | (with_reducible apply bodyKeeps_stay)
    | (with_reducible apply bodyKeeps_gone)
    | (with_reducible apply bodyKeeps_posted)
    | split
    | (dsimp only)
    | (simp (maxDischargeDepth := 40) only [Keeps.refl, keeps_mk, keeps_ite, outKeeps_next, outKeeps_ite, bodyKeeps_retire, bodyKeeps_exc, bodyKeeps_wait, bodyKeeps_stay, bodyKeeps_gone, bodyKeeps_posted, bodyKeeps_ite, winWrite_keeps, issue_keeps, retire_keeps, *]; done)

@[simp] theorem execVld_keeps {s0 : State} (i : Issue) (f : MFmt) (s : State) (hk : Keeps s0 s) : OutKeeps s0 (execVld i f s) := by
  unfold execVld
  repeat' first
    | assumption
    | (intro _)
    | (with_reducible refine keeps_foldl _ _ (fun _ _ _ => ?_) _ ?_)
    | (with_reducible refine keeps_foldl_1 _ _ _ (fun _ _ _ => ?_) ?_)
    | (with_reducible refine keeps_foldl_2 _ _ _ (fun _ _ _ => ?_) ?_)
    | (with_reducible refine keeps_foldl_22 _ _ _ (fun _ _ _ => ?_) ?_)
    | (with_reducible refine keeps_foldl_21 _ _ _ (fun _ _ _ => ?_) ?_)
    | (with_reducible refine keeps_foldl_221 _ _ _ (fun _ _ _ => ?_) ?_)
    | (with_reducible refine keeps_foldl_222 _ _ _ (fun _ _ _ => ?_) ?_)
    | (with_reducible apply winRead_keeps)
    | (with_reducible apply issue_keeps)
    | (with_reducible apply ret_keeps)
    | (with_reducible apply keeps_mk)
    | (with_reducible apply outKeeps_next)
    | (with_reducible apply bodyKeeps_retire)
    | (with_reducible apply bodyKeeps_exc)
    | (with_reducible apply bodyKeeps_wait)
    | (with_reducible apply bodyKeeps_stay)
    | (with_reducible apply bodyKeeps_gone)
    | (with_reducible apply bodyKeeps_posted)
    | split
    | (dsimp only)
    | (simp (maxDischargeDepth := 40) only [Keeps.refl, keeps_mk, keeps_ite, outKeeps_next, outKeeps_ite, bodyKeeps_retire, bodyKeeps_exc, bodyKeeps_wait, bodyKeeps_stay, bodyKeeps_gone, bodyKeeps_posted, bodyKeeps_ite, winRead_keeps, issue_keeps, ret_keeps, *]; done)

@[simp] theorem execVst_keeps {s0 : State} (i : Issue) (f : MFmt) (s : State) (hk : Keeps s0 s) : OutKeeps s0 (execVst i f s) := by
  unfold execVst
  repeat' first
    | assumption
    | (intro _)
    | (with_reducible refine keeps_foldl _ _ (fun _ _ _ => ?_) _ ?_)
    | (with_reducible refine keeps_foldl_1 _ _ _ (fun _ _ _ => ?_) ?_)
    | (with_reducible refine keeps_foldl_2 _ _ _ (fun _ _ _ => ?_) ?_)
    | (with_reducible refine keeps_foldl_22 _ _ _ (fun _ _ _ => ?_) ?_)
    | (with_reducible refine keeps_foldl_21 _ _ _ (fun _ _ _ => ?_) ?_)
    | (with_reducible refine keeps_foldl_221 _ _ _ (fun _ _ _ => ?_) ?_)
    | (with_reducible refine keeps_foldl_222 _ _ _ (fun _ _ _ => ?_) ?_)
    | (with_reducible apply winWrite_keeps)
    | (with_reducible apply issue_keeps)
    | (with_reducible apply retire_keeps)
    | (with_reducible apply keeps_mk)
    | (with_reducible apply outKeeps_next)
    | (with_reducible apply bodyKeeps_retire)
    | (with_reducible apply bodyKeeps_exc)
    | (with_reducible apply bodyKeeps_wait)
    | (with_reducible apply bodyKeeps_stay)
    | (with_reducible apply bodyKeeps_gone)
    | (with_reducible apply bodyKeeps_posted)
    | split
    | (dsimp only)
    | (simp (maxDischargeDepth := 40) only [Keeps.refl, keeps_mk, keeps_ite, outKeeps_next, outKeeps_ite, bodyKeeps_retire, bodyKeeps_exc, bodyKeeps_wait, bodyKeeps_stay, bodyKeeps_gone, bodyKeeps_posted, bodyKeeps_ite, winWrite_keeps, issue_keeps, retire_keeps, *]; done)

@[simp] theorem branchOp_keeps {s0 : State} (i : Issue) (f : BFmt) (t : Word → Word → Bool) (s : State) (hk : Keeps s0 s) : Keeps s0 (branchOp i f t s) := by
  unfold branchOp
  repeat' first
    | assumption
    | (intro _)
    | (with_reducible refine keeps_foldl _ _ (fun _ _ _ => ?_) _ ?_)
    | (with_reducible refine keeps_foldl_1 _ _ _ (fun _ _ _ => ?_) ?_)
    | (with_reducible refine keeps_foldl_2 _ _ _ (fun _ _ _ => ?_) ?_)
    | (with_reducible refine keeps_foldl_22 _ _ _ (fun _ _ _ => ?_) ?_)
    | (with_reducible refine keeps_foldl_21 _ _ _ (fun _ _ _ => ?_) ?_)
    | (with_reducible refine keeps_foldl_221 _ _ _ (fun _ _ _ => ?_) ?_)
    | (with_reducible refine keeps_foldl_222 _ _ _ (fun _ _ _ => ?_) ?_)
    | (with_reducible apply issue_keeps)
    | (with_reducible apply retire_keeps)
    | (with_reducible apply keeps_mk)
    | (with_reducible apply outKeeps_next)
    | (with_reducible apply bodyKeeps_retire)
    | (with_reducible apply bodyKeeps_exc)
    | (with_reducible apply bodyKeeps_wait)
    | (with_reducible apply bodyKeeps_stay)
    | (with_reducible apply bodyKeeps_gone)
    | (with_reducible apply bodyKeeps_posted)
    | split
    | (dsimp only)
    | (simp (maxDischargeDepth := 40) only [Keeps.refl, keeps_mk, keeps_ite, outKeeps_next, outKeeps_ite, bodyKeeps_retire, bodyKeeps_exc, bodyKeeps_wait, bodyKeeps_stay, bodyKeeps_gone, bodyKeeps_posted, bodyKeeps_ite, issue_keeps, retire_keeps, *]; done)

@[simp] theorem execBeq_keeps {s0 : State} (i : Issue) (f : BFmt) (s : State) (hk : Keeps s0 s) : OutKeeps s0 (execBeq i f s) := by
  unfold execBeq
  simp (maxDischargeDepth := 40) only [Keeps.refl, keeps_mk, keeps_ite, outKeeps_next, outKeeps_ite, bodyKeeps_retire, bodyKeeps_exc, bodyKeeps_wait, bodyKeeps_stay, bodyKeeps_gone, bodyKeeps_posted, bodyKeeps_ite, branchOp_keeps, *]

@[simp] theorem execBne_keeps {s0 : State} (i : Issue) (f : BFmt) (s : State) (hk : Keeps s0 s) : OutKeeps s0 (execBne i f s) := by
  unfold execBne
  simp (maxDischargeDepth := 40) only [Keeps.refl, keeps_mk, keeps_ite, outKeeps_next, outKeeps_ite, bodyKeeps_retire, bodyKeeps_exc, bodyKeeps_wait, bodyKeeps_stay, bodyKeeps_gone, bodyKeeps_posted, bodyKeeps_ite, branchOp_keeps, *]

@[simp] theorem execBlt_keeps {s0 : State} (i : Issue) (f : BFmt) (s : State) (hk : Keeps s0 s) : OutKeeps s0 (execBlt i f s) := by
  unfold execBlt
  simp (maxDischargeDepth := 40) only [Keeps.refl, keeps_mk, keeps_ite, outKeeps_next, outKeeps_ite, bodyKeeps_retire, bodyKeeps_exc, bodyKeeps_wait, bodyKeeps_stay, bodyKeeps_gone, bodyKeeps_posted, bodyKeeps_ite, branchOp_keeps, *]

@[simp] theorem execBge_keeps {s0 : State} (i : Issue) (f : BFmt) (s : State) (hk : Keeps s0 s) : OutKeeps s0 (execBge i f s) := by
  unfold execBge
  simp (maxDischargeDepth := 40) only [Keeps.refl, keeps_mk, keeps_ite, outKeeps_next, outKeeps_ite, bodyKeeps_retire, bodyKeeps_exc, bodyKeeps_wait, bodyKeeps_stay, bodyKeeps_gone, bodyKeeps_posted, bodyKeeps_ite, branchOp_keeps, *]

@[simp] theorem execBltu_keeps {s0 : State} (i : Issue) (f : BFmt) (s : State) (hk : Keeps s0 s) : OutKeeps s0 (execBltu i f s) := by
  unfold execBltu
  simp (maxDischargeDepth := 40) only [Keeps.refl, keeps_mk, keeps_ite, outKeeps_next, outKeeps_ite, bodyKeeps_retire, bodyKeeps_exc, bodyKeeps_wait, bodyKeeps_stay, bodyKeeps_gone, bodyKeeps_posted, bodyKeeps_ite, branchOp_keeps, *]

@[simp] theorem execBgeu_keeps {s0 : State} (i : Issue) (f : BFmt) (s : State) (hk : Keeps s0 s) : OutKeeps s0 (execBgeu i f s) := by
  unfold execBgeu
  simp (maxDischargeDepth := 40) only [Keeps.refl, keeps_mk, keeps_ite, outKeeps_next, outKeeps_ite, bodyKeeps_retire, bodyKeeps_exc, bodyKeeps_wait, bodyKeeps_stay, bodyKeeps_gone, bodyKeeps_posted, bodyKeeps_ite, branchOp_keeps, *]

@[simp] theorem execJal_keeps {s0 : State} (i : Issue) (f : JFmt) (s : State) (hk : Keeps s0 s) : OutKeeps s0 (execJal i f s) := by
  unfold execJal
  repeat' first
    | assumption
    | (intro _)
    | (with_reducible refine keeps_foldl _ _ (fun _ _ _ => ?_) _ ?_)
    | (with_reducible refine keeps_foldl_1 _ _ _ (fun _ _ _ => ?_) ?_)
    | (with_reducible refine keeps_foldl_2 _ _ _ (fun _ _ _ => ?_) ?_)
    | (with_reducible refine keeps_foldl_22 _ _ _ (fun _ _ _ => ?_) ?_)
    | (with_reducible refine keeps_foldl_21 _ _ _ (fun _ _ _ => ?_) ?_)
    | (with_reducible refine keeps_foldl_221 _ _ _ (fun _ _ _ => ?_) ?_)
    | (with_reducible refine keeps_foldl_222 _ _ _ (fun _ _ _ => ?_) ?_)
    | (with_reducible apply issue_keeps)
    | (with_reducible apply retire_keeps)
    | (with_reducible apply keeps_mk)
    | (with_reducible apply outKeeps_next)
    | (with_reducible apply bodyKeeps_retire)
    | (with_reducible apply bodyKeeps_exc)
    | (with_reducible apply bodyKeeps_wait)
    | (with_reducible apply bodyKeeps_stay)
    | (with_reducible apply bodyKeeps_gone)
    | (with_reducible apply bodyKeeps_posted)
    | split
    | (dsimp only)
    | (simp (maxDischargeDepth := 40) only [Keeps.refl, keeps_mk, keeps_ite, outKeeps_next, outKeeps_ite, bodyKeeps_retire, bodyKeeps_exc, bodyKeeps_wait, bodyKeeps_stay, bodyKeeps_gone, bodyKeeps_posted, bodyKeeps_ite, issue_keeps, retire_keeps, *]; done)

@[simp] theorem execJalr_keeps {s0 : State} (i : Issue) (f : IFmt) (s : State) (hk : Keeps s0 s) : OutKeeps s0 (execJalr i f s) := by
  unfold execJalr
  repeat' first
    | assumption
    | (intro _)
    | (with_reducible refine keeps_foldl _ _ (fun _ _ _ => ?_) _ ?_)
    | (with_reducible refine keeps_foldl_1 _ _ _ (fun _ _ _ => ?_) ?_)
    | (with_reducible refine keeps_foldl_2 _ _ _ (fun _ _ _ => ?_) ?_)
    | (with_reducible refine keeps_foldl_22 _ _ _ (fun _ _ _ => ?_) ?_)
    | (with_reducible refine keeps_foldl_21 _ _ _ (fun _ _ _ => ?_) ?_)
    | (with_reducible refine keeps_foldl_221 _ _ _ (fun _ _ _ => ?_) ?_)
    | (with_reducible refine keeps_foldl_222 _ _ _ (fun _ _ _ => ?_) ?_)
    | (with_reducible apply issue_keeps)
    | (with_reducible apply exc1_keeps)
    | (with_reducible apply retire_keeps)
    | (with_reducible apply keeps_mk)
    | (with_reducible apply outKeeps_next)
    | (with_reducible apply bodyKeeps_retire)
    | (with_reducible apply bodyKeeps_exc)
    | (with_reducible apply bodyKeeps_wait)
    | (with_reducible apply bodyKeeps_stay)
    | (with_reducible apply bodyKeeps_gone)
    | (with_reducible apply bodyKeeps_posted)
    | split
    | (dsimp only)
    | (simp (maxDischargeDepth := 40) only [Keeps.refl, keeps_mk, keeps_ite, outKeeps_next, outKeeps_ite, bodyKeeps_retire, bodyKeeps_exc, bodyKeeps_wait, bodyKeeps_stay, bodyKeeps_gone, bodyKeeps_posted, bodyKeeps_ite, issue_keeps, exc1_keeps, retire_keeps, *]; done)

@[simp] theorem execSrr_keeps {s0 : State} (i : Issue) (f : IFmt) (s : State) (hk : Keeps s0 s) : OutKeeps s0 (execSrr i f s) := by
  unfold execSrr
  repeat' first
    | assumption
    | (with_reducible refine keeps_foldl _ _ (fun _ _ _ => ?_) _ ?_)
    | (with_reducible refine keeps_foldl_1 _ _ _ (fun _ _ _ => ?_) ?_)
    | (with_reducible refine keeps_foldl_2 _ _ _ (fun _ _ _ => ?_) ?_)
    | (with_reducible refine keeps_foldl_22 _ _ _ (fun _ _ _ => ?_) ?_)
    | (with_reducible refine keeps_foldl_21 _ _ _ (fun _ _ _ => ?_) ?_)
    | (with_reducible refine keeps_foldl_221 _ _ _ (fun _ _ _ => ?_) ?_)
    | (with_reducible refine keeps_foldl_222 _ _ _ (fun _ _ _ => ?_) ?_)
    | split
    | (simp (maxDischargeDepth := 40) only [Keeps.refl, keeps_mk, keeps_ite, outKeeps_next, outKeeps_ite, bodyKeeps_retire, bodyKeeps_exc, bodyKeeps_wait, bodyKeeps_stay, bodyKeeps_gone, bodyKeeps_posted, bodyKeeps_ite, issue_keeps, exc1_keeps, ret_keeps, *]; done)
    | (with_reducible refine outKeeps_next ?_)
    | (with_reducible apply issue_keeps)
    | (with_reducible apply exc1_keeps)
    | (with_reducible apply ret_keeps)
    | (with_reducible apply keeps_mk)
    | (with_reducible intro _ _)
    | (dsimp only)

@[simp] theorem execSrw_keeps {s0 : State} (i : Issue) (f : IFmt) (s : State) (hk : Keeps s0 s) : OutKeeps s0 (execSrw i f s) := by
  unfold execSrw
  repeat' first
    | assumption
    | (with_reducible refine keeps_foldl _ _ (fun _ _ _ => ?_) _ ?_)
    | (with_reducible refine keeps_foldl_1 _ _ _ (fun _ _ _ => ?_) ?_)
    | (with_reducible refine keeps_foldl_2 _ _ _ (fun _ _ _ => ?_) ?_)
    | (with_reducible refine keeps_foldl_22 _ _ _ (fun _ _ _ => ?_) ?_)
    | (with_reducible refine keeps_foldl_21 _ _ _ (fun _ _ _ => ?_) ?_)
    | (with_reducible refine keeps_foldl_221 _ _ _ (fun _ _ _ => ?_) ?_)
    | (with_reducible refine keeps_foldl_222 _ _ _ (fun _ _ _ => ?_) ?_)
    | split
    | (simp (maxDischargeDepth := 40) only [Keeps.refl, keeps_mk, keeps_ite, outKeeps_next, outKeeps_ite, bodyKeeps_retire, bodyKeeps_exc, bodyKeeps_wait, bodyKeeps_stay, bodyKeeps_gone, bodyKeeps_posted, bodyKeeps_ite, issue_keeps, exc1_keeps, ret_keeps, *]; done)
    | (with_reducible refine outKeeps_next ?_)
    | (with_reducible apply issue_keeps)
    | (with_reducible apply exc1_keeps)
    | (with_reducible apply ret_keeps)
    | (with_reducible apply keeps_mk)
    | (with_reducible intro _ _)
    | (dsimp only)

@[simp] theorem execEcall_keeps {s0 : State} (i : Issue) (f : R3) (s : State) (hk : Keeps s0 s) : OutKeeps s0 (execEcall i f s) := by
  unfold execEcall
  repeat' first
    | assumption
    | (with_reducible refine keeps_foldl _ _ (fun _ _ _ => ?_) _ ?_)
    | (with_reducible refine keeps_foldl_1 _ _ _ (fun _ _ _ => ?_) ?_)
    | (with_reducible refine keeps_foldl_2 _ _ _ (fun _ _ _ => ?_) ?_)
    | (with_reducible refine keeps_foldl_22 _ _ _ (fun _ _ _ => ?_) ?_)
    | (with_reducible refine keeps_foldl_21 _ _ _ (fun _ _ _ => ?_) ?_)
    | (with_reducible refine keeps_foldl_221 _ _ _ (fun _ _ _ => ?_) ?_)
    | (with_reducible refine keeps_foldl_222 _ _ _ (fun _ _ _ => ?_) ?_)
    | split
    | (simp (maxDischargeDepth := 40) only [Keeps.refl, keeps_mk, keeps_ite, outKeeps_next, outKeeps_ite, bodyKeeps_retire, bodyKeeps_exc, bodyKeeps_wait, bodyKeeps_stay, bodyKeeps_gone, bodyKeeps_posted, bodyKeeps_ite, issue_keeps, exc1_keeps, *]; done)
    | (with_reducible refine outKeeps_next ?_)
    | (with_reducible apply issue_keeps)
    | (with_reducible apply exc1_keeps)
    | (with_reducible apply keeps_mk)
    | (with_reducible intro _ _)
    | (dsimp only)

@[simp] theorem execBreak_keeps {s0 : State} (i : Issue) (f : R3) (s : State) (hk : Keeps s0 s) : OutKeeps s0 (execBreak i f s) := by
  unfold execBreak
  repeat' first
    | assumption
    | (with_reducible refine keeps_foldl _ _ (fun _ _ _ => ?_) _ ?_)
    | (with_reducible refine keeps_foldl_1 _ _ _ (fun _ _ _ => ?_) ?_)
    | (with_reducible refine keeps_foldl_2 _ _ _ (fun _ _ _ => ?_) ?_)
    | (with_reducible refine keeps_foldl_22 _ _ _ (fun _ _ _ => ?_) ?_)
    | (with_reducible refine keeps_foldl_21 _ _ _ (fun _ _ _ => ?_) ?_)
    | (with_reducible refine keeps_foldl_221 _ _ _ (fun _ _ _ => ?_) ?_)
    | (with_reducible refine keeps_foldl_222 _ _ _ (fun _ _ _ => ?_) ?_)
    | split
    | (simp (maxDischargeDepth := 40) only [Keeps.refl, keeps_mk, keeps_ite, outKeeps_next, outKeeps_ite, bodyKeeps_retire, bodyKeeps_exc, bodyKeeps_wait, bodyKeeps_stay, bodyKeeps_gone, bodyKeeps_posted, bodyKeeps_ite, issue_keeps, exc1_keeps, *]; done)
    | (with_reducible refine outKeeps_next ?_)
    | (with_reducible apply issue_keeps)
    | (with_reducible apply exc1_keeps)
    | (with_reducible apply keeps_mk)
    | (with_reducible intro _ _)
    | (dsimp only)

@[simp] theorem execXret_keeps {s0 : State} (i : Issue) (f : R3) (s : State) (hk : Keeps s0 s) : OutKeeps s0 (execXret i f s) := by
  unfold execXret
  repeat' first
    | assumption
    | (intro _)
    | (with_reducible refine keeps_foldl _ _ (fun _ _ _ => ?_) _ ?_)
    | (with_reducible refine keeps_foldl_1 _ _ _ (fun _ _ _ => ?_) ?_)
    | (with_reducible refine keeps_foldl_2 _ _ _ (fun _ _ _ => ?_) ?_)
    | (with_reducible refine keeps_foldl_22 _ _ _ (fun _ _ _ => ?_) ?_)
    | (with_reducible refine keeps_foldl_21 _ _ _ (fun _ _ _ => ?_) ?_)
    | (with_reducible refine keeps_foldl_221 _ _ _ (fun _ _ _ => ?_) ?_)
    | (with_reducible refine keeps_foldl_222 _ _ _ (fun _ _ _ => ?_) ?_)
    | (with_reducible apply issue_keeps)
    | (with_reducible apply exc1_keeps)
    | (with_reducible apply retire_keeps)
    | (with_reducible apply keeps_mk)
    | (with_reducible apply outKeeps_next)
    | (with_reducible apply bodyKeeps_retire)
    | (with_reducible apply bodyKeeps_exc)
    | (with_reducible apply bodyKeeps_wait)
    | (with_reducible apply bodyKeeps_stay)
    | (with_reducible apply bodyKeeps_gone)
    | (with_reducible apply bodyKeeps_posted)
    | split
    | (dsimp only)
    | (simp (maxDischargeDepth := 40) only [Keeps.refl, keeps_mk, keeps_ite, outKeeps_next, outKeeps_ite, bodyKeeps_retire, bodyKeeps_exc, bodyKeeps_wait, bodyKeeps_stay, bodyKeeps_gone, bodyKeeps_posted, bodyKeeps_ite, issue_keeps, exc1_keeps, retire_keeps, *]; done)

@[simp] theorem remoteFailed_keeps {s0 : State} (s : State) (c : Ctx) (hk : Keeps s0 s) : BodyKeeps s0 (remoteFailed s c) := by
  unfold remoteFailed
  simp (maxDischargeDepth := 40) only [Keeps.refl, keeps_mk, keeps_ite, outKeeps_next, outKeeps_ite, bodyKeeps_retire, bodyKeeps_exc, bodyKeeps_wait, bodyKeeps_stay, bodyKeeps_gone, bodyKeeps_posted, bodyKeeps_ite, exc1_keeps, *]

@[simp] theorem execRfence_keeps {s0 : State} (i : Issue) (f : R3) (s : State) (hk : Keeps s0 s) : OutKeeps s0 (execRfence i f s) := by
  unfold execRfence
  repeat' first
    | assumption
    | (intro _)
    | (with_reducible refine keeps_foldl _ _ (fun _ _ _ => ?_) _ ?_)
    | (with_reducible refine keeps_foldl_1 _ _ _ (fun _ _ _ => ?_) ?_)
    | (with_reducible refine keeps_foldl_2 _ _ _ (fun _ _ _ => ?_) ?_)
    | (with_reducible refine keeps_foldl_22 _ _ _ (fun _ _ _ => ?_) ?_)
    | (with_reducible refine keeps_foldl_21 _ _ _ (fun _ _ _ => ?_) ?_)
    | (with_reducible refine keeps_foldl_221 _ _ _ (fun _ _ _ => ?_) ?_)
    | (with_reducible refine keeps_foldl_222 _ _ _ (fun _ _ _ => ?_) ?_)
    | (with_reducible apply opsForget_keeps)
    | (with_reducible apply issue_keeps)
    | (with_reducible apply retire_keeps)
    | (with_reducible apply remoteFailed_keeps)
    | (with_reducible apply keeps_mk)
    | (with_reducible apply outKeeps_next)
    | (with_reducible apply bodyKeeps_retire)
    | (with_reducible apply bodyKeeps_exc)
    | (with_reducible apply bodyKeeps_wait)
    | (with_reducible apply bodyKeeps_stay)
    | (with_reducible apply bodyKeeps_gone)
    | (with_reducible apply bodyKeeps_posted)
    | split
    | (dsimp only)
    | (simp (maxDischargeDepth := 40) only [Keeps.refl, keeps_mk, keeps_ite, outKeeps_next, outKeeps_ite, bodyKeeps_retire, bodyKeeps_exc, bodyKeeps_wait, bodyKeeps_stay, bodyKeeps_gone, bodyKeeps_posted, bodyKeeps_ite, opsForget_keeps, issue_keeps, retire_keeps, remoteFailed_keeps, *]; done)

@[simp] theorem execTlbinv_keeps {s0 : State} (i : Issue) (f : R3) (s : State) (hk : Keeps s0 s) : OutKeeps s0 (execTlbinv i f s) := by
  unfold execTlbinv
  repeat' first
    | assumption
    | (intro _)
    | (with_reducible refine keeps_foldl _ _ (fun _ _ _ => ?_) _ ?_)
    | (with_reducible refine keeps_foldl_1 _ _ _ (fun _ _ _ => ?_) ?_)
    | (with_reducible refine keeps_foldl_2 _ _ _ (fun _ _ _ => ?_) ?_)
    | (with_reducible refine keeps_foldl_22 _ _ _ (fun _ _ _ => ?_) ?_)
    | (with_reducible refine keeps_foldl_21 _ _ _ (fun _ _ _ => ?_) ?_)
    | (with_reducible refine keeps_foldl_221 _ _ _ (fun _ _ _ => ?_) ?_)
    | (with_reducible refine keeps_foldl_222 _ _ _ (fun _ _ _ => ?_) ?_)
    | (with_reducible apply issue_keeps)
    | (with_reducible apply exc1_keeps)
    | (with_reducible apply retire_keeps)
    | (with_reducible apply keeps_mk)
    | (with_reducible apply outKeeps_next)
    | (with_reducible apply bodyKeeps_retire)
    | (with_reducible apply bodyKeeps_exc)
    | (with_reducible apply bodyKeeps_wait)
    | (with_reducible apply bodyKeeps_stay)
    | (with_reducible apply bodyKeeps_gone)
    | (with_reducible apply bodyKeeps_posted)
    | split
    | (dsimp only)
    | (simp (maxDischargeDepth := 40) only [Keeps.refl, keeps_mk, keeps_ite, outKeeps_next, outKeeps_ite, bodyKeeps_retire, bodyKeeps_exc, bodyKeeps_wait, bodyKeeps_stay, bodyKeeps_gone, bodyKeeps_posted, bodyKeeps_ite, issue_keeps, exc1_keeps, retire_keeps, *]; done)

end Sys2Proof.Machine
end

