-- ==== Sys2Proof/Laws/Keeps/Remote.lean ====
section
/-! SUPPORT. The operations of Machine/Remote.lean keep the queue of waiting commands and the canonical form of the memories. -/

namespace Sys2Proof.Machine

set_option linter.unusedSimpArgs false

@[simp] theorem qpSet_keeps {s0 : State} (s : State) (n : Nat) (q : Qp) (hk : Keeps s0 s) : Keeps s0 (qpSet s n q) := by
  unfold qpSet
  simp (maxDischargeDepth := 40) only [Keeps.refl, keeps_mk, keeps_ite, outKeeps_next, outKeeps_ite, bodyKeeps_retire, bodyKeeps_exc, bodyKeeps_wait, bodyKeeps_stay, bodyKeeps_gone, bodyKeeps_posted, bodyKeeps_ite, *]

@[simp] theorem qpUpd_keeps {s0 : State} (s : State) (n : Nat) (f : Qp → Qp) (hk : Keeps s0 s) : Keeps s0 (qpUpd s n f) := by
  unfold qpUpd
  simp (maxDischargeDepth := 40) only [Keeps.refl, keeps_mk, keeps_ite, outKeeps_next, outKeeps_ite, bodyKeeps_retire, bodyKeeps_exc, bodyKeeps_wait, bodyKeeps_stay, bodyKeeps_gone, bodyKeeps_posted, bodyKeeps_ite, qpSet_keeps, *]

@[simp] theorem reach_keeps {s0 : State} (s : State) (c : Ctx) (va : Word) (len : Nat) (a : Acc) (put : Bool) (hk : Keeps s0 s) : Keeps s0 (reach s c va len a put).2.2.2 := by
  unfold reach
  repeat' first
    | assumption
    | (with_reducible refine keeps_foldl _ _ (fun _ _ _ => ?_) _ ?_)
    | (with_reducible refine keeps_foldl_1 _ _ _ (fun _ _ _ => ?_) ?_)
    | (with_reducible refine keeps_foldl_2 _ _ _ (fun _ _ _ => ?_) ?_)
    | (with_reducible refine keeps_foldl_22 _ _ _ (fun _ _ _ => ?_) ?_)
    | (with_reducible refine keeps_foldl_21 _ _ _ (fun _ _ _ => ?_) ?_)
    | (with_reducible refine keeps_foldl_221 _ _ _ (fun _ _ _ => ?_) ?_)
    | (with_reducible refine keeps_foldl_222 _ _ _ (fun _ _ _ => ?_) ?_)
    | (simp (maxDischargeDepth := 40) only [Keeps.refl, keeps_mk, keeps_ite, outKeeps_next, outKeeps_ite, bodyKeeps_retire, bodyKeeps_exc, bodyKeeps_wait, bodyKeeps_stay, bodyKeeps_gone, bodyKeeps_posted, bodyKeeps_ite, xlSpan_keeps, *]; done)
    | split
    | (dsimp only)

@[simp] theorem sqPost_keeps {s0 : State} (s : State) (n : Nat) (w : Wreq) (hk : Keeps s0 s) : Keeps s0 (sqPost s n w) := by
  unfold sqPost
  simp (maxDischargeDepth := 40) only [Keeps.refl, keeps_mk, keeps_ite, outKeeps_next, outKeeps_ite, bodyKeeps_retire, bodyKeeps_exc, bodyKeeps_wait, bodyKeeps_stay, bodyKeeps_gone, bodyKeeps_posted, bodyKeeps_ite, physPut_keeps, qpUpd_keeps, *]

@[simp] theorem opIssue_keeps {s0 : State} (s : State) (c : Ctx) (L : Nat) (r : Word) (o : RemoteOp) (w : Wreq) (ps : List (Nat × Nat)) (hk : Keeps s0 s) : BodyKeeps s0 (opIssue s c L r o w ps) := by
  unfold opIssue
  simp (maxDischargeDepth := 40) only [Keeps.refl, keeps_mk, keeps_ite, outKeeps_next, outKeeps_ite, bodyKeeps_retire, bodyKeeps_exc, bodyKeeps_wait, bodyKeeps_stay, bodyKeeps_gone, bodyKeeps_posted, bodyKeeps_ite, sqPost_keeps, *]

@[simp] theorem localOperand_keeps {s0 : State} (s : State) (c : Ctx) (L : Nat) (win : Bool) (a : Word) (len : Nat) (acc : Acc) (hk : Keeps s0 s) : Keeps s0 (localOperand s c L win a len acc).2.2.2.2 := by
  unfold localOperand
  repeat' first
    | assumption
    | (with_reducible refine keeps_foldl _ _ (fun _ _ _ => ?_) _ ?_)
    | (with_reducible refine keeps_foldl_1 _ _ _ (fun _ _ _ => ?_) ?_)
    | (with_reducible refine keeps_foldl_2 _ _ _ (fun _ _ _ => ?_) ?_)
    | (with_reducible refine keeps_foldl_22 _ _ _ (fun _ _ _ => ?_) ?_)
    | (with_reducible refine keeps_foldl_21 _ _ _ (fun _ _ _ => ?_) ?_)
    | (with_reducible refine keeps_foldl_221 _ _ _ (fun _ _ _ => ?_) ?_)
    | (with_reducible refine keeps_foldl_222 _ _ _ (fun _ _ _ => ?_) ?_)
    | (simp (maxDischargeDepth := 40) only [Keeps.refl, keeps_mk, keeps_ite, outKeeps_next, outKeeps_ite, bodyKeeps_retire, bodyKeeps_exc, bodyKeeps_wait, bodyKeeps_stay, bodyKeeps_gone, bodyKeeps_posted, bodyKeeps_ite, reach_keeps, *]; done)
    | split
    | (dsimp only)

@[simp] theorem putOp_keeps {s0 : State} (i : Issue) (f : RFmt) (imm : Bool) (s : State) (hk : Keeps s0 s) : Keeps s0 (putOp i f imm s) := by
  unfold putOp
  repeat' first
    | assumption
    | (intro _)
    | (with_reducible refine keeps_foldl _ _ (fun _ _ _ => ?_) _ ?_)
    | (with_reducible refine keeps_foldl_1 _ _ _ (fun _ _ _ => ?_) ?_)
    | (with_reducible refine keeps_foldl_2 _ _ _ (fun _ _ _ => ?_) ?_)
    | (with_reducible refine keeps_foldl_22 _ _ _ (fun _ _ _ => ?_) ?_)
    | (with_reducible refine keeps_foldl_21 _ _ _ (fun _ _ _ => ?_) ?_)
    | (with_reducible refine keeps_foldl_221 _ _ _ (fun _ _ _ => ?_) ?_)
    | (with_reducible refine keeps_foldl_222 _ _ _ (fun _ _ _ => ?_) ?_)
    | (with_reducible apply winRead_keeps)
    | (with_reducible apply issue_keeps)
    | (with_reducible apply localOperand_keeps)
    | (with_reducible apply reach_keeps)
    | (with_reducible apply opIssue_keeps)
    | (simp only [keeps_mk_iff])
    | (with_reducible apply outKeeps_next)
    | (with_reducible apply bodyKeeps_retire)
    | (with_reducible apply bodyKeeps_exc)
    | (with_reducible apply bodyKeeps_wait)
    | (with_reducible apply bodyKeeps_stay)
    | (with_reducible apply bodyKeeps_gone)
    | (with_reducible apply bodyKeeps_posted)
    | split
    | (dsimp only)
    | (simp (maxDischargeDepth := 40) only [Keeps.refl, keeps_mk, keeps_ite, outKeeps_next, outKeeps_ite, bodyKeeps_retire, bodyKeeps_exc, bodyKeeps_wait, bodyKeeps_stay, bodyKeeps_gone, bodyKeeps_posted, bodyKeeps_ite, winRead_keeps, issue_keeps, localOperand_keeps, reach_keeps, opIssue_keeps, *]; done)

@[simp] theorem execRput_keeps {s0 : State} (i : Issue) (f : RFmt) (s : State) (hk : Keeps s0 s) : OutKeeps s0 (execRput i f s) := by
  unfold execRput
  simp (maxDischargeDepth := 40) only [Keeps.refl, keeps_mk, keeps_ite, outKeeps_next, outKeeps_ite, bodyKeeps_retire, bodyKeeps_exc, bodyKeeps_wait, bodyKeeps_stay, bodyKeeps_gone, bodyKeeps_posted, bodyKeeps_ite, putOp_keeps, *]

@[simp] theorem execRputi_keeps {s0 : State} (i : Issue) (f : RFmt) (s : State) (hk : Keeps s0 s) : OutKeeps s0 (execRputi i f s) := by
  unfold execRputi
  simp (maxDischargeDepth := 40) only [Keeps.refl, keeps_mk, keeps_ite, outKeeps_next, outKeeps_ite, bodyKeeps_retire, bodyKeeps_exc, bodyKeeps_wait, bodyKeeps_stay, bodyKeeps_gone, bodyKeeps_posted, bodyKeeps_ite, putOp_keeps, *]

@[simp] theorem execRget_keeps {s0 : State} (i : Issue) (f : RFmt) (s : State) (hk : Keeps s0 s) : OutKeeps s0 (execRget i f s) := by
  unfold execRget
  repeat' first
    | assumption
    | (intro _)
    | (with_reducible refine keeps_foldl _ _ (fun _ _ _ => ?_) _ ?_)
    | (with_reducible refine keeps_foldl_1 _ _ _ (fun _ _ _ => ?_) ?_)
    | (with_reducible refine keeps_foldl_2 _ _ _ (fun _ _ _ => ?_) ?_)
    | (with_reducible refine keeps_foldl_22 _ _ _ (fun _ _ _ => ?_) ?_)
    | (with_reducible refine keeps_foldl_21 _ _ _ (fun _ _ _ => ?_) ?_)
    | (with_reducible refine keeps_foldl_221 _ _ _ (fun _ _ _ => ?_) ?_)
    | (with_reducible refine keeps_foldl_222 _ _ _ (fun _ _ _ => ?_) ?_)
    | (with_reducible apply issue_keeps)
    | (with_reducible apply localOperand_keeps)
    | (with_reducible apply reach_keeps)
    | (with_reducible apply opIssue_keeps)
    | (with_reducible apply keeps_mk)
    | (with_reducible apply outKeeps_next)
    | (with_reducible apply bodyKeeps_retire)
    | (with_reducible apply bodyKeeps_exc)
    | (with_reducible apply bodyKeeps_wait)
    | (with_reducible apply bodyKeeps_stay)
    | (with_reducible apply bodyKeeps_gone)
    | (with_reducible apply bodyKeeps_posted)
    | split
    | (dsimp only)
    | (simp (maxDischargeDepth := 40) only [Keeps.refl, keeps_mk, keeps_ite, outKeeps_next, outKeeps_ite, bodyKeeps_retire, bodyKeeps_exc, bodyKeeps_wait, bodyKeeps_stay, bodyKeeps_gone, bodyKeeps_posted, bodyKeeps_ite, issue_keeps, localOperand_keeps, reach_keeps, opIssue_keeps, *]; done)

@[simp] theorem atomicOp_keeps {s0 : State} (i : Issue) (f : RFmt) (cas : Bool) (s : State) (hk : Keeps s0 s) : Keeps s0 (atomicOp i f cas s) := by
  unfold atomicOp
  repeat' first
    | assumption
    | (intro _)
    | (with_reducible refine keeps_foldl _ _ (fun _ _ _ => ?_) _ ?_)
    | (with_reducible refine keeps_foldl_1 _ _ _ (fun _ _ _ => ?_) ?_)
    | (with_reducible refine keeps_foldl_2 _ _ _ (fun _ _ _ => ?_) ?_)
    | (with_reducible refine keeps_foldl_22 _ _ _ (fun _ _ _ => ?_) ?_)
    | (with_reducible refine keeps_foldl_21 _ _ _ (fun _ _ _ => ?_) ?_)
    | (with_reducible refine keeps_foldl_221 _ _ _ (fun _ _ _ => ?_) ?_)
    | (with_reducible refine keeps_foldl_222 _ _ _ (fun _ _ _ => ?_) ?_)
    | (with_reducible apply issue_keeps)
    | (with_reducible apply reach_keeps)
    | (with_reducible apply opIssue_keeps)
    | (with_reducible apply keeps_mk)
    | (with_reducible apply outKeeps_next)
    | (with_reducible apply bodyKeeps_retire)
    | (with_reducible apply bodyKeeps_exc)
    | (with_reducible apply bodyKeeps_wait)
    | (with_reducible apply bodyKeeps_stay)
    | (with_reducible apply bodyKeeps_gone)
    | (with_reducible apply bodyKeeps_posted)
    | split
    | (dsimp only)
    | (simp (maxDischargeDepth := 40) only [Keeps.refl, keeps_mk, keeps_ite, outKeeps_next, outKeeps_ite, bodyKeeps_retire, bodyKeeps_exc, bodyKeeps_wait, bodyKeeps_stay, bodyKeeps_gone, bodyKeeps_posted, bodyKeeps_ite, issue_keeps, reach_keeps, opIssue_keeps, *]; done)

@[simp] theorem execRfadd_keeps {s0 : State} (i : Issue) (f : RFmt) (s : State) (hk : Keeps s0 s) : OutKeeps s0 (execRfadd i f s) := by
  unfold execRfadd
  simp (maxDischargeDepth := 40) only [Keeps.refl, keeps_mk, keeps_ite, outKeeps_next, outKeeps_ite, bodyKeeps_retire, bodyKeeps_exc, bodyKeeps_wait, bodyKeeps_stay, bodyKeeps_gone, bodyKeeps_posted, bodyKeeps_ite, atomicOp_keeps, *]

@[simp] theorem execRcas_keeps {s0 : State} (i : Issue) (f : RFmt) (s : State) (hk : Keeps s0 s) : OutKeeps s0 (execRcas i f s) := by
  unfold execRcas
  simp (maxDischargeDepth := 40) only [Keeps.refl, keeps_mk, keeps_ite, outKeeps_next, outKeeps_ite, bodyKeeps_retire, bodyKeeps_exc, bodyKeeps_wait, bodyKeeps_stay, bodyKeeps_gone, bodyKeeps_posted, bodyKeeps_ite, atomicOp_keeps, *]

@[simp] theorem execSadd_keeps {s0 : State} (i : Issue) (f : RFmt) (s : State) (hk : Keeps s0 s) : OutKeeps s0 (execSadd i f s) := by
  unfold execSadd
  repeat' first
    | assumption
    | (intro _)
    | (with_reducible refine keeps_foldl _ _ (fun _ _ _ => ?_) _ ?_)
    | (with_reducible refine keeps_foldl_1 _ _ _ (fun _ _ _ => ?_) ?_)
    | (with_reducible refine keeps_foldl_2 _ _ _ (fun _ _ _ => ?_) ?_)
    | (with_reducible refine keeps_foldl_22 _ _ _ (fun _ _ _ => ?_) ?_)
    | (with_reducible refine keeps_foldl_21 _ _ _ (fun _ _ _ => ?_) ?_)
    | (with_reducible refine keeps_foldl_221 _ _ _ (fun _ _ _ => ?_) ?_)
    | (with_reducible refine keeps_foldl_222 _ _ _ (fun _ _ _ => ?_) ?_)
    | (with_reducible apply issue_keeps)
    | (with_reducible apply opIssue_keeps)
    | (with_reducible apply keeps_mk)
    | (with_reducible apply outKeeps_next)
    | (with_reducible apply bodyKeeps_retire)
    | (with_reducible apply bodyKeeps_exc)
    | (with_reducible apply bodyKeeps_wait)
    | (with_reducible apply bodyKeeps_stay)
    | (with_reducible apply bodyKeeps_gone)
    | (with_reducible apply bodyKeeps_posted)
    | split
    | (dsimp only)
    | (simp (maxDischargeDepth := 40) only [Keeps.refl, keeps_mk, keeps_ite, outKeeps_next, outKeeps_ite, bodyKeeps_retire, bodyKeeps_exc, bodyKeeps_wait, bodyKeeps_stay, bodyKeeps_gone, bodyKeeps_posted, bodyKeeps_ite, issue_keeps, opIssue_keeps, *]; done)

@[simp] theorem tdcRead_keeps {s0 : State} (s : State) (j : BitVec 16) (own : Nat) (t : Tag) (hk : Keeps s0 s) : Keeps s0 (tdcRead s j own t) := by
  unfold tdcRead
  simp (maxDischargeDepth := 40) only [Keeps.refl, keeps_mk, keeps_ite, outKeeps_next, outKeeps_ite, bodyKeeps_retire, bodyKeeps_exc, bodyKeeps_wait, bodyKeeps_stay, bodyKeeps_gone, bodyKeeps_posted, bodyKeeps_ite, tdcCount_keeps, *]

@[simp] theorem dpAdd_keeps {s0 : State} (s : State) (dp : Nat) (r : DpReq) (hk : Keeps s0 s) : Keeps s0 (dpAdd s dp r) := by
  unfold dpAdd
  simp (maxDischargeDepth := 40) only [Keeps.refl, keeps_mk, keeps_ite, outKeeps_next, outKeeps_ite, bodyKeeps_retire, bodyKeeps_exc, bodyKeeps_wait, bodyKeeps_stay, bodyKeeps_gone, bodyKeeps_posted, bodyKeeps_ite, *]

@[simp] theorem dpDel_keeps {s0 : State} (s : State) (dp : Nat) (src : Nat) (t : Tag) (hk : Keeps s0 s) : Keeps s0 (dpDel s dp src t) := by
  unfold dpDel
  simp (maxDischargeDepth := 40) only [Keeps.refl, keeps_mk, keeps_ite, outKeeps_next, outKeeps_ite, bodyKeeps_retire, bodyKeeps_exc, bodyKeeps_wait, bodyKeeps_stay, bodyKeeps_gone, bodyKeeps_posted, bodyKeeps_ite, *]

@[simp] theorem execSwait_keeps {s0 : State} (i : Issue) (f : RFmt) (s : State) (hk : Keeps s0 s) : OutKeeps s0 (execSwait i f s) := by
  unfold execSwait
  repeat' first
    | assumption
    | (intro _)
    | (with_reducible refine keeps_foldl _ _ (fun _ _ _ => ?_) _ ?_)
    | (with_reducible refine keeps_foldl_1 _ _ _ (fun _ _ _ => ?_) ?_)
    | (with_reducible refine keeps_foldl_2 _ _ _ (fun _ _ _ => ?_) ?_)
    | (with_reducible refine keeps_foldl_22 _ _ _ (fun _ _ _ => ?_) ?_)
    | (with_reducible refine keeps_foldl_21 _ _ _ (fun _ _ _ => ?_) ?_)
    | (with_reducible refine keeps_foldl_221 _ _ _ (fun _ _ _ => ?_) ?_)
    | (with_reducible refine keeps_foldl_222 _ _ _ (fun _ _ _ => ?_) ?_)
    | (with_reducible apply opsForget_keeps)
    | (with_reducible apply issue_keeps)
    | (with_reducible apply ret_keeps)
    | (with_reducible apply tdcRead_keeps)
    | (with_reducible apply dpAdd_keeps)
    | (with_reducible apply keeps_mk)
    | (with_reducible apply outKeeps_next)
    | (with_reducible apply bodyKeeps_retire)
    | (with_reducible apply bodyKeeps_exc)
    | (with_reducible apply bodyKeeps_wait)
    | (with_reducible apply bodyKeeps_stay)
    | (with_reducible apply bodyKeeps_gone)
    | (with_reducible apply bodyKeeps_posted)
    | split
    | (dsimp only)
    | (simp (maxDischargeDepth := 40) only [Keeps.refl, keeps_mk, keeps_ite, outKeeps_next, outKeeps_ite, bodyKeeps_retire, bodyKeeps_exc, bodyKeeps_wait, bodyKeeps_stay, bodyKeeps_gone, bodyKeeps_posted, bodyKeeps_ite, opsForget_keeps, issue_keeps, ret_keeps, tdcRead_keeps, dpAdd_keeps, *]; done)

@[simp] theorem operandRead_keeps {s0 : State} (s : State) (c : Ctx) (va : Word) (len : Nat) (hk : Keeps s0 s) : Keeps s0 (operandRead s c va len).2.2.2 := by
  unfold operandRead
  repeat' first
    | assumption
    | (with_reducible refine keeps_foldl _ _ (fun _ _ _ => ?_) _ ?_)
    | (with_reducible refine keeps_foldl_1 _ _ _ (fun _ _ _ => ?_) ?_)
    | (with_reducible refine keeps_foldl_2 _ _ _ (fun _ _ _ => ?_) ?_)
    | (with_reducible refine keeps_foldl_22 _ _ _ (fun _ _ _ => ?_) ?_)
    | (with_reducible refine keeps_foldl_21 _ _ _ (fun _ _ _ => ?_) ?_)
    | (with_reducible refine keeps_foldl_221 _ _ _ (fun _ _ _ => ?_) ?_)
    | (with_reducible refine keeps_foldl_222 _ _ _ (fun _ _ _ => ?_) ?_)
    | (simp (maxDischargeDepth := 40) only [Keeps.refl, keeps_mk, keeps_ite, outKeeps_next, outKeeps_ite, bodyKeeps_retire, bodyKeeps_exc, bodyKeeps_wait, bodyKeeps_stay, bodyKeeps_gone, bodyKeeps_posted, bodyKeeps_ite, piecesRead_keeps, reach_keeps, *]; done)
    | split
    | (dsimp only)

@[simp] theorem qpostIssue_keeps {s0 : State} (s : State) (c : Ctx) (L n : Nat) (w : Wreq) (hk : Keeps s0 s) : BodyKeeps s0 (qpostIssue s c L n w) := by
  unfold qpostIssue
  simp (maxDischargeDepth := 40) only [keeps_mk, bodyKeeps_posted, sqPost_keeps, *]

@[simp] theorem execQpost_keeps {s0 : State} (i : Issue) (f : RFmt) (s : State) (hk : Keeps s0 s) : OutKeeps s0 (execQpost i f s) := by
  unfold execQpost
  refine outKeeps_next (issue_keeps _ _ _ _ _ hk fun s c hs => ?_)
  have h1 := operandRead_keeps s c (gv c f.rs2) 64 hs
  dsimp only
  generalize operandRead s c (gv c f.rs2) 64 = m at h1 ⊢
  exact bodyKeeps_ite h1 (bodyKeeps_ite h1 (qpostIssue_keeps _ _ _ _ _ h1))

@[simp] theorem engSet_keeps {s0 : State} (s : State) (code : Nat) (q : List Desc) (hk : Keeps s0 s) : Keeps s0 (engSet s code q) := by
  unfold engSet
  simp (maxDischargeDepth := 40) only [Keeps.refl, keeps_mk, keeps_ite, outKeeps_next, outKeeps_ite, bodyKeeps_retire, bodyKeeps_exc, bodyKeeps_wait, bodyKeeps_stay, bodyKeeps_gone, bodyKeeps_posted, bodyKeeps_ite, *]

@[simp] theorem execEpost_keeps {s0 : State} (i : Issue) (f : RFmt) (s : State) (hk : Keeps s0 s) : OutKeeps s0 (execEpost i f s) := by
  unfold execEpost
  repeat' first
    | assumption
    | (intro _)
    | (with_reducible refine keeps_foldl _ _ (fun _ _ _ => ?_) _ ?_)
    | (with_reducible refine keeps_foldl_1 _ _ _ (fun _ _ _ => ?_) ?_)
    | (with_reducible refine keeps_foldl_2 _ _ _ (fun _ _ _ => ?_) ?_)
    | (with_reducible refine keeps_foldl_22 _ _ _ (fun _ _ _ => ?_) ?_)
    | (with_reducible refine keeps_foldl_21 _ _ _ (fun _ _ _ => ?_) ?_)
    | (with_reducible refine keeps_foldl_221 _ _ _ (fun _ _ _ => ?_) ?_)
    | (with_reducible refine keeps_foldl_222 _ _ _ (fun _ _ _ => ?_) ?_)
    | (with_reducible apply frontSet_keeps)
    | (with_reducible apply issue_keeps)
    | (with_reducible apply ret_keeps)
    | (with_reducible apply operandRead_keeps)
    | (with_reducible apply engSet_keeps)
    | (with_reducible apply tick_keeps)
    | (with_reducible apply keeps_mk)
    | (with_reducible apply outKeeps_next)
    | (with_reducible apply bodyKeeps_retire)
    | (with_reducible apply bodyKeeps_exc)
    | (with_reducible apply bodyKeeps_wait)
    | (with_reducible apply bodyKeeps_stay)
    | (with_reducible apply bodyKeeps_gone)
    | (with_reducible apply bodyKeeps_posted)
    | split
    | (dsimp only)
    | (simp (maxDischargeDepth := 40) only [Keeps.refl, keeps_mk, keeps_ite, outKeeps_next, outKeeps_ite, bodyKeeps_retire, bodyKeeps_exc, bodyKeeps_wait, bodyKeeps_stay, bodyKeeps_gone, bodyKeeps_posted, bodyKeeps_ite, frontSet_keeps, issue_keeps, ret_keeps, operandRead_keeps, engSet_keeps, tick_keeps, *]; done)

@[simp] theorem execExit_keeps {s0 : State} (i : Issue) (f : R4) (s : State) (hk : Keeps s0 s) : OutKeeps s0 (execExit i f s) := by
  unfold execExit
  repeat' first
    | assumption
    | (intro _)
    | (with_reducible refine keeps_foldl _ _ (fun _ _ _ => ?_) _ ?_)
    | (with_reducible refine keeps_foldl_1 _ _ _ (fun _ _ _ => ?_) ?_)
    | (with_reducible refine keeps_foldl_2 _ _ _ (fun _ _ _ => ?_) ?_)
    | (with_reducible refine keeps_foldl_22 _ _ _ (fun _ _ _ => ?_) ?_)
    | (with_reducible refine keeps_foldl_21 _ _ _ (fun _ _ _ => ?_) ?_)
    | (with_reducible refine keeps_foldl_221 _ _ _ (fun _ _ _ => ?_) ?_)
    | (with_reducible refine keeps_foldl_222 _ _ _ (fun _ _ _ => ?_) ?_)
    | (with_reducible apply issue_keeps)
    | (with_reducible apply keeps_mk)
    | (with_reducible apply outKeeps_next)
    | (with_reducible apply bodyKeeps_retire)
    | (with_reducible apply bodyKeeps_exc)
    | (with_reducible apply bodyKeeps_wait)
    | (with_reducible apply bodyKeeps_stay)
    | (with_reducible apply bodyKeeps_gone)
    | (with_reducible apply bodyKeeps_posted)
    | split
    | (dsimp only)
    | (simp (maxDischargeDepth := 40) only [Keeps.refl, keeps_mk, keeps_ite, outKeeps_next, outKeeps_ite, bodyKeeps_retire, bodyKeeps_exc, bodyKeeps_wait, bodyKeeps_stay, bodyKeeps_gone, bodyKeeps_posted, bodyKeeps_ite, issue_keeps, *]; done)

@[simp] theorem execSettag_keeps {s0 : State} (i : Issue) (f : R4) (s : State) (hk : Keeps s0 s) : OutKeeps s0 (execSettag i f s) := by
  unfold execSettag
  repeat' first
    | assumption
    | (intro _)
    | (with_reducible refine keeps_foldl _ _ (fun _ _ _ => ?_) _ ?_)
    | (with_reducible refine keeps_foldl_1 _ _ _ (fun _ _ _ => ?_) ?_)
    | (with_reducible refine keeps_foldl_2 _ _ _ (fun _ _ _ => ?_) ?_)
    | (with_reducible refine keeps_foldl_22 _ _ _ (fun _ _ _ => ?_) ?_)
    | (with_reducible refine keeps_foldl_21 _ _ _ (fun _ _ _ => ?_) ?_)
    | (with_reducible refine keeps_foldl_221 _ _ _ (fun _ _ _ => ?_) ?_)
    | (with_reducible refine keeps_foldl_222 _ _ _ (fun _ _ _ => ?_) ?_)
    | (with_reducible apply issue_keeps)
    | (with_reducible apply ret_keeps)
    | (with_reducible apply keeps_mk)
    | (with_reducible apply outKeeps_next)
    | (with_reducible apply bodyKeeps_retire)
    | (with_reducible apply bodyKeeps_exc)
    | (with_reducible apply bodyKeeps_wait)
    | (with_reducible apply bodyKeeps_stay)
    | (with_reducible apply bodyKeeps_gone)
    | (with_reducible apply bodyKeeps_posted)
    | split
    | (dsimp only)
    | (simp (maxDischargeDepth := 40) only [Keeps.refl, keeps_mk, keeps_ite, outKeeps_next, outKeeps_ite, bodyKeeps_retire, bodyKeeps_exc, bodyKeeps_wait, bodyKeeps_stay, bodyKeeps_gone, bodyKeeps_posted, bodyKeeps_ite, issue_keeps, ret_keeps, *]; done)

@[simp] theorem blockStep_keeps {s0 : State} (s : State) (L : Nat) (hk : Keeps s0 s) : Keeps s0 (blockStep s L) := by
  unfold blockStep
  repeat' first
    | assumption
    | (with_reducible apply swapOut_keeps)
    | split

@[simp] theorem tileSettle_keeps {s0 : State} (s : State) (L : Nat) (hk : Keeps s0 s) : Keeps s0 (tileSettle s L) := by
  unfold tileSettle
  exact keeps_foldl _ _ (fun _ _ h => blockStep_keeps _ _ h) _ (fillTile_keeps _ _ hk)

@[simp] theorem ctxSettle_keeps {s0 : State} (s : State) (sw : Nat) (hk : Keeps s0 s) : Keeps s0 (ctxSettle s sw) := by
  unfold ctxSettle
  repeat' first
    | assumption
    | (with_reducible apply blockSave_keeps)
    | split

@[simp] theorem launchAt_keeps {s0 : State} (s : State) (L : Nat) (lo : Nat) (hi : Nat) (c : Ctx) (hk : Keeps s0 s) : Keeps s0 (launchAt s L lo hi c) := by
  unfold launchAt
  simp (maxDischargeDepth := 40) only [Keeps.refl, keeps_mk, keeps_ite, outKeeps_next, outKeeps_ite, bodyKeeps_retire, bodyKeeps_exc, bodyKeeps_wait, bodyKeeps_stay, bodyKeeps_gone, bodyKeeps_posted, bodyKeeps_ite, tileSet_keeps, tileSettle_keeps, *]

@[simp] theorem execLaunch_keeps {s0 : State} (i : Issue) (f : R4) (s : State) (hk : Keeps s0 s) : OutKeeps s0 (execLaunch i f s) := by
  unfold execLaunch
  refine outKeeps_next ?_
  refine issue_keeps _ _ _ _ _ hk ?_
  intro s c hs
  refine bodyKeeps_ite (exc1_keeps _ _ _ _ hs) ?_
  extract_lets h va r w es c1 s1 L lo hi a x priv
  have h1 : Keeps s0 r.2.2.2 := reach_keeps _ _ _ _ _ _ hs
  clear_value r
  have h2 : Keeps s0 s1 := reach_keeps _ _ _ _ _ _ h1
  clear_value w
  have h3 : Keeps s0 a.2.2 := areaRead_keeps _ _ _ h2
  clear_value s1 a
  clear_value x priv L lo hi
  refine bodyKeeps_ite h2 ?_
  refine bodyKeeps_ite (ret_keeps _ _ (freezeTile_keeps _ _ _ _ _ _ h3)) ?_
  refine bodyKeeps_ite h3 (bodyKeeps_ite h3 (ret_keeps _ _ (launchAt_keeps _ _ _ _ _ h3)))

@[simp] theorem execTrmark_keeps {s0 : State} (i : Issue) (f : RFmt) (s : State) (hk : Keeps s0 s) : OutKeeps s0 (execTrmark i f s) := by
  unfold execTrmark
  repeat' first
    | assumption
    | (with_reducible refine keeps_foldl _ _ (fun _ _ _ => ?_) _ ?_)
    | (with_reducible refine keeps_foldl_1 _ _ _ (fun _ _ _ => ?_) ?_)
    | (with_reducible refine keeps_foldl_2 _ _ _ (fun _ _ _ => ?_) ?_)
    | (with_reducible refine keeps_foldl_22 _ _ _ (fun _ _ _ => ?_) ?_)
    | (with_reducible refine keeps_foldl_21 _ _ _ (fun _ _ _ => ?_) ?_)
    | (with_reducible refine keeps_foldl_221 _ _ _ (fun _ _ _ => ?_) ?_)
    | (with_reducible refine keeps_foldl_222 _ _ _ (fun _ _ _ => ?_) ?_)
    | split
    | (simp (maxDischargeDepth := 40) only [Keeps.refl, keeps_mk, keeps_ite, outKeeps_next, outKeeps_ite, bodyKeeps_retire, bodyKeeps_exc, bodyKeeps_wait, bodyKeeps_stay, bodyKeeps_gone, bodyKeeps_posted, bodyKeeps_ite, issue_keeps, ret_keeps, *]; done)
    | (with_reducible refine outKeeps_next ?_)
    | (with_reducible apply issue_keeps)
    | (with_reducible apply ret_keeps)
    | (with_reducible apply keeps_mk)
    | (with_reducible intro _ _)
    | (dsimp only)

end Sys2Proof.Machine
end

