-- ==== Sys2Proof/Laws/Keeps/Rings.lean ====
section
/-! SUPPORT. The operations of Machine/Rings.lean keep the queue of waiting commands and the canonical form of the memories. -/

namespace Sys2Proof.Machine

set_option linter.unusedSimpArgs false

@[simp] theorem ringGet_keeps {s0 : State} (s : State) (r : Nat) (hk : Keeps s0 s) : Keeps s0 (ringGet s r).2 := by
  unfold ringGet
  simp (maxDischargeDepth := 40) only [Keeps.refl, keeps_mk, keeps_ite, outKeeps_next, outKeeps_ite, bodyKeeps_retire, bodyKeeps_exc, bodyKeeps_wait, bodyKeeps_stay, bodyKeeps_gone, bodyKeeps_posted, bodyKeeps_ite, physRead_keeps, *]

@[simp] theorem ringWrite_keeps {s0 : State} (s : State) (r : Nat) (e : RingEntry) (lossy : Bool) (b : Bytes) (add : State → Nat → State) (hk : Keeps s0 s) (h_add : ∀ (x1 : State) (x2 : Nat), Keeps s0 x1 → Keeps s0 (add x1 x2)) : Keeps s0 (ringWrite s r e lossy b add) := by
  unfold ringWrite
  repeat' first
    | assumption
    | (with_reducible refine keeps_foldl _ _ (fun _ _ _ => ?_) _ ?_)
    | (with_reducible refine keeps_foldl_1 _ _ _ (fun _ _ _ => ?_) ?_)
    | (with_reducible refine keeps_foldl_2 _ _ _ (fun _ _ _ => ?_) ?_)
    | (with_reducible refine keeps_foldl_22 _ _ _ (fun _ _ _ => ?_) ?_)
    | (with_reducible refine keeps_foldl_21 _ _ _ (fun _ _ _ => ?_) ?_)
    | (with_reducible refine keeps_foldl_221 _ _ _ (fun _ _ _ => ?_) ?_)
    | (with_reducible refine keeps_foldl_222 _ _ _ (fun _ _ _ => ?_) ?_)
    | (simp (maxDischargeDepth := 40) only [Keeps.refl, keeps_mk, keeps_ite, outKeeps_next, outKeeps_ite, bodyKeeps_retire, bodyKeeps_exc, bodyKeeps_wait, bodyKeeps_stay, bodyKeeps_gone, bodyKeeps_posted, bodyKeeps_ite, physPut_keeps, ownFail_keeps, *]; done)
    | split
    | (dsimp only)

@[simp] theorem eventDeliver_keeps {s0 : State} (s : State) (e : Event) (hk : Keeps s0 s) : Keeps s0 (eventDeliver s e) := by
  unfold eventDeliver
  repeat' first
    | assumption
    | (intro _)
    | (with_reducible refine keeps_foldl _ _ (fun _ _ _ => ?_) _ ?_)
    | (with_reducible refine keeps_foldl_1 _ _ _ (fun _ _ _ => ?_) ?_)
    | (with_reducible refine keeps_foldl_2 _ _ _ (fun _ _ _ => ?_) ?_)
    | (with_reducible refine keeps_foldl_22 _ _ _ (fun _ _ _ => ?_) ?_)
    | (with_reducible refine keeps_foldl_21 _ _ _ (fun _ _ _ => ?_) ?_)
    | (with_reducible refine keeps_foldl_221 _ _ _ (fun _ _ _ => ?_) ?_)
    | (with_reducible refine keeps_foldl_222 _ _ _ (fun _ _ _ => ?_) ?_)
    | (with_reducible apply ctrAdd_keeps)
    | (with_reducible apply bumpEvent_keeps)
    | (with_reducible apply ringGet_keeps)
    | (with_reducible apply ringWrite_keeps)
    | (simp only [keeps_mk_iff])
    | (with_reducible apply outKeeps_next)
    | (with_reducible apply bodyKeeps_retire)
    | (with_reducible apply bodyKeeps_exc)
    | (with_reducible apply bodyKeeps_wait)
    | (with_reducible apply bodyKeeps_stay)
    | (with_reducible apply bodyKeeps_gone)
    | (with_reducible apply bodyKeeps_posted)
    | split
    | (dsimp only)
    | (simp (maxDischargeDepth := 40) only [Keeps.refl, keeps_mk, keeps_ite, outKeeps_next, outKeeps_ite, bodyKeeps_retire, bodyKeeps_exc, bodyKeeps_wait, bodyKeeps_stay, bodyKeeps_gone, bodyKeeps_posted, bodyKeeps_ite, ctrAdd_keeps, bumpEvent_keeps, ringGet_keeps, ringWrite_keeps, *]; done)

@[simp] theorem eventsDeliver_keeps {s0 : State} (s : State) (hk : Keeps s0 s) : Keeps s0 (eventsDeliver s) := by
  unfold eventsDeliver
  repeat' first
    | assumption
    | (with_reducible refine keeps_foldl _ _ (fun _ _ _ => ?_) _ ?_)
    | (with_reducible refine keeps_foldl_1 _ _ _ (fun _ _ _ => ?_) ?_)
    | (with_reducible refine keeps_foldl_2 _ _ _ (fun _ _ _ => ?_) ?_)
    | (with_reducible refine keeps_foldl_22 _ _ _ (fun _ _ _ => ?_) ?_)
    | (with_reducible refine keeps_foldl_21 _ _ _ (fun _ _ _ => ?_) ?_)
    | (with_reducible refine keeps_foldl_221 _ _ _ (fun _ _ _ => ?_) ?_)
    | (with_reducible refine keeps_foldl_222 _ _ _ (fun _ _ _ => ?_) ?_)
    | (simp (maxDischargeDepth := 40) only [Keeps.refl, keeps_mk, keeps_ite, outKeeps_next, outKeeps_ite, bodyKeeps_retire, bodyKeeps_exc, bodyKeeps_wait, bodyKeeps_stay, bodyKeeps_gone, bodyKeeps_posted, bodyKeeps_ite, eventDeliver_keeps, *]; done)
    | split
    | (dsimp only)

@[simp] theorem slipRecord_keeps {s0 : State} (s : State) (unit : Nat) (release : Nat) (late : Nat) (cause : Nat) (cls : Nat) (batch : Word) (detail : Word) (j : BitVec 16) (hk : Keeps s0 s) : Keeps s0 (slipRecord s unit release late cause cls batch detail j) := by
  unfold slipRecord
  repeat' first
    | assumption
    | (with_reducible refine keeps_foldl _ _ (fun _ _ _ => ?_) _ ?_)
    | (with_reducible refine keeps_foldl_1 _ _ _ (fun _ _ _ => ?_) ?_)
    | (with_reducible refine keeps_foldl_2 _ _ _ (fun _ _ _ => ?_) ?_)
    | (with_reducible refine keeps_foldl_22 _ _ _ (fun _ _ _ => ?_) ?_)
    | (with_reducible refine keeps_foldl_21 _ _ _ (fun _ _ _ => ?_) ?_)
    | (with_reducible refine keeps_foldl_221 _ _ _ (fun _ _ _ => ?_) ?_)
    | (with_reducible refine keeps_foldl_222 _ _ _ (fun _ _ _ => ?_) ?_)
    | (simp (maxDischargeDepth := 40) only [Keeps.refl, keeps_mk, keeps_ite, outKeeps_next, outKeeps_ite, bodyKeeps_retire, bodyKeeps_exc, bodyKeeps_wait, bodyKeeps_stay, bodyKeeps_gone, bodyKeeps_posted, bodyKeeps_ite, physPut_keeps, jobUpd_keeps, bumpEvent_keeps, raise_keeps, ownFail_keeps, *]; done)
    | split
    | (dsimp only)

@[simp] theorem replayPassed_keeps {s0 : State} (s : State) (j : BitVec 16) (b : Nat) (hk : Keeps s0 s) : Keeps s0 (replayPassed s j b) := by
  unfold replayPassed
  repeat' first
    | assumption
    | (with_reducible refine keeps_foldl _ _ (fun _ _ _ => ?_) _ ?_)
    | (with_reducible refine keeps_foldl_1 _ _ _ (fun _ _ _ => ?_) ?_)
    | (with_reducible refine keeps_foldl_2 _ _ _ (fun _ _ _ => ?_) ?_)
    | (with_reducible refine keeps_foldl_22 _ _ _ (fun _ _ _ => ?_) ?_)
    | (with_reducible refine keeps_foldl_21 _ _ _ (fun _ _ _ => ?_) ?_)
    | (with_reducible refine keeps_foldl_221 _ _ _ (fun _ _ _ => ?_) ?_)
    | (with_reducible refine keeps_foldl_222 _ _ _ (fun _ _ _ => ?_) ?_)
    | split
    | (simp (maxDischargeDepth := 40) only [Keeps.refl, keeps_mk, keeps_ite, outKeeps_next, outKeeps_ite, bodyKeeps_retire, bodyKeeps_exc, bodyKeeps_wait, bodyKeeps_stay, bodyKeeps_gone, bodyKeeps_posted, bodyKeeps_ite, jobUpd_keeps, slipRecord_keeps, tick_keeps, *]; done)
    | (with_reducible refine outKeeps_next ?_)
    | (with_reducible apply jobUpd_keeps)
    | (with_reducible apply slipRecord_keeps)
    | (with_reducible apply tick_keeps)
    | (with_reducible apply keeps_mk)
    | (with_reducible intro _ _)
    | (dsimp only)

end Sys2Proof.Machine
end

