-- ==== Sys2Proof/Laws/Keeps/Engine.lean ====
section
/-! SUPPORT. The operations of Machine/Engine.lean keep the queue of waiting commands and the canonical form of the memories. -/

namespace Sys2Proof.Machine

set_option linter.unusedSimpArgs false

@[simp] theorem engBad_keeps {α : Type}  : EMKeeps (engBad : EM α) := by
  refine emKeeps_of fun s0 s hk => ?_
  unfold engBad
  repeat' first
    | assumption
    | (intro _)
    | (with_reducible refine keeps_foldl _ _ (fun _ _ _ => ?_) _ ?_)
    | (with_reducible refine keeps_foldl_1 _ _ _ (fun _ _ _ => ?_) ?_)
    | (with_reducible refine keeps_foldl_2 _ _ _ (fun _ _ _ => ?_) ?_)
    | (with_reducible refine keeps_foldl_22 _ _ _ (fun _ _ _ => ?_) ?_)
    | (with_reducible refine keeps_foldl_21 _ _ _ (fun _ _ _ => ?_) ?_)
    | (with_reducible refine keeps_foldl_221 _ _ _ (fun _ _ _ => ?_) ?_)
    | (with_reducible refine keeps_foldl_222 _ _ _ (fun _ _ _ => ?_) ?_)
    | (with_reducible apply keeps_mk)
    | (with_reducible apply outKeeps_next)
    | (with_reducible refine emKeeps_of fun _ _ _ => ?_; done)
    | (simp only [emOut_get_bind, emOut_set_bind, emOut_modify_bind, emOut_pure_bind, emOut_throw_bind, emOut_pure, emOut_throw, emOut_modify, emOut_set])
    | split
    | (with_reducible refine keeps_bind _ _ _ ?_ ?_)
    | (with_reducible refine emKeeps_out ?_ ?_)
    | (dsimp only)
    | (simp (maxDischargeDepth := 40) only [Keeps.refl, keeps_mk, keeps_ite, outKeeps_next, outKeeps_ite, bodyKeeps_retire, bodyKeeps_exc, bodyKeeps_wait, bodyKeeps_stay, bodyKeeps_gone, bodyKeeps_posted, bodyKeeps_ite, *]; done)

@[simp] theorem engNeed_keeps (b : Bool)  : EMKeeps (engNeed b : EM Unit) := by
  intro s0 s hk
  unfold engNeed
  repeat' first
    | assumption
    | (with_reducible refine engBad_keeps  _ _ ?_)
    | (with_reducible refine keeps_bind _ _ _ ?_ fun _ _ _ => ?_)
    | (simp only [emOut_get_bind, emOut_set_bind, emOut_modify_bind, emOut_pure_bind, emOut_throw_bind, emOut_pure, emOut_throw, emOut_modify, emOut_set]; done)
    | (simp only [emOut_get_bind, emOut_set_bind, emOut_modify_bind, emOut_pure_bind, emOut_throw_bind, emOut_pure, emOut_throw, emOut_modify, emOut_set])
    | (simp (maxDischargeDepth := 40) only [Keeps.refl, keeps_mk, keeps_ite, outKeeps_next, outKeeps_ite, bodyKeeps_retire, bodyKeeps_exc, bodyKeeps_wait, bodyKeeps_stay, bodyKeeps_gone, bodyKeeps_posted, bodyKeeps_ite, *]; done)
    | split

@[simp] theorem engStop_keeps {α : Type} (st : Status)  : EMKeeps (engStop st : EM α) := by
  refine emKeeps_of fun s0 s hk => ?_
  unfold engStop
  repeat' first
    | assumption
    | (intro _)
    | (with_reducible refine keeps_foldl _ _ (fun _ _ _ => ?_) _ ?_)
    | (with_reducible refine keeps_foldl_1 _ _ _ (fun _ _ _ => ?_) ?_)
    | (with_reducible refine keeps_foldl_2 _ _ _ (fun _ _ _ => ?_) ?_)
    | (with_reducible refine keeps_foldl_22 _ _ _ (fun _ _ _ => ?_) ?_)
    | (with_reducible refine keeps_foldl_21 _ _ _ (fun _ _ _ => ?_) ?_)
    | (with_reducible refine keeps_foldl_221 _ _ _ (fun _ _ _ => ?_) ?_)
    | (with_reducible refine keeps_foldl_222 _ _ _ (fun _ _ _ => ?_) ?_)
    | (with_reducible apply keeps_mk)
    | (with_reducible apply outKeeps_next)
    | (with_reducible refine emKeeps_of fun _ _ _ => ?_; done)
    | (simp only [emOut_get_bind, emOut_set_bind, emOut_modify_bind, emOut_pure_bind, emOut_throw_bind, emOut_pure, emOut_throw, emOut_modify, emOut_set])
    | split
    | (with_reducible refine keeps_bind _ _ _ ?_ ?_)
    | (with_reducible refine emKeeps_out ?_ ?_)
    | (dsimp only)
    | (simp (maxDischargeDepth := 40) only [Keeps.refl, keeps_mk, keeps_ite, outKeeps_next, outKeeps_ite, bodyKeeps_retire, bodyKeeps_exc, bodyKeeps_wait, bodyKeeps_stay, bodyKeeps_gone, bodyKeeps_posted, bodyKeeps_ite, *]; done)

@[simp] theorem engDo_keeps {s0 : State} (f : State → State) (h_f : ∀ (s0 : State) (x1 : State), Keeps s0 x1 → Keeps s0 (f x1)) : EMKeeps (engDo f : EM Unit) := by
  refine emKeeps_of fun s0 s hk => ?_
  unfold engDo
  repeat' first
    | assumption
    | (intro _)
    | (with_reducible refine keeps_foldl _ _ (fun _ _ _ => ?_) _ ?_)
    | (with_reducible refine keeps_foldl_1 _ _ _ (fun _ _ _ => ?_) ?_)
    | (with_reducible refine keeps_foldl_2 _ _ _ (fun _ _ _ => ?_) ?_)
    | (with_reducible refine keeps_foldl_22 _ _ _ (fun _ _ _ => ?_) ?_)
    | (with_reducible refine keeps_foldl_21 _ _ _ (fun _ _ _ => ?_) ?_)
    | (with_reducible refine keeps_foldl_221 _ _ _ (fun _ _ _ => ?_) ?_)
    | (with_reducible refine keeps_foldl_222 _ _ _ (fun _ _ _ => ?_) ?_)
    | (simp only [keeps_mk_iff])
    | (with_reducible apply outKeeps_next)
    | (simp only [emOut_get_bind, emOut_set_bind, emOut_modify_bind, emOut_pure_bind, emOut_throw_bind, emOut_pure, emOut_throw, emOut_modify, emOut_set])
    | split
    | (with_reducible refine keeps_bind _ _ _ ?_ ?_)
    | (with_reducible refine emKeeps_out ?_ ?_)
    | (dsimp only)
    | (simp (maxDischargeDepth := 40) only [Keeps.refl, keeps_mk, keeps_ite, outKeeps_next, outKeeps_ite, bodyKeeps_retire, bodyKeeps_exc, bodyKeeps_wait, bodyKeeps_stay, bodyKeeps_gone, bodyKeeps_posted, bodyKeeps_ite, *]; done)

@[simp] theorem engPieces_keeps (d : Desc) (va : Nat) (len : Nat) (a : Acc)  : EMKeeps (engPieces d va len a : EM (List (Nat × Nat))) := by
  intro s0 s hk
  unfold engPieces
  repeat' first
    | assumption
    | (with_reducible refine keeps_bind _ _ _ ?_ fun _ _ _ => ?_)
    | (simp only [emOut_get_bind, emOut_set_bind, emOut_modify_bind, emOut_pure_bind, emOut_throw_bind, emOut_pure, emOut_throw, emOut_modify, emOut_set]; done)
    | (simp only [emOut_get_bind, emOut_set_bind, emOut_modify_bind, emOut_pure_bind, emOut_throw_bind, emOut_pure, emOut_throw, emOut_modify, emOut_set])
    | (simp (maxDischargeDepth := 40) only [Keeps.refl, keeps_mk, keeps_ite, outKeeps_next, outKeeps_ite, bodyKeeps_retire, bodyKeeps_exc, bodyKeeps_wait, bodyKeeps_stay, bodyKeeps_gone, bodyKeeps_posted, bodyKeeps_ite, *]; done)
    | split

@[simp] theorem engRead_keeps (d : Desc) (va : Nat) (len : Nat)  : EMKeeps (engRead d va len : EM Mem) := by
  refine emKeeps_of fun s0 s hk => ?_
  unfold engRead
  repeat' first
    | assumption
    | (with_reducible intro _)
    | (with_reducible refine keeps_foldl _ _ (fun _ _ _ => ?_) _ ?_)
    | (with_reducible refine keeps_foldl_1 _ _ _ (fun _ _ _ => ?_) ?_)
    | (with_reducible refine keeps_foldl_2 _ _ _ (fun _ _ _ => ?_) ?_)
    | (with_reducible refine keeps_foldl_22 _ _ _ (fun _ _ _ => ?_) ?_)
    | (with_reducible refine keeps_foldl_21 _ _ _ (fun _ _ _ => ?_) ?_)
    | (with_reducible refine keeps_foldl_221 _ _ _ (fun _ _ _ => ?_) ?_)
    | (with_reducible refine keeps_foldl_222 _ _ _ (fun _ _ _ => ?_) ?_)
    | (with_reducible apply piecesRead_keeps)
    | (with_reducible apply engPieces_keeps)
    | (simp only [keeps_mk_iff])
    | (with_reducible apply outKeeps_next)
    | (simp only [emOut_get_bind, emOut_set_bind, emOut_modify_bind, emOut_pure_bind, emOut_throw_bind, emOut_pure, emOut_throw, emOut_modify, emOut_set])
    | split
    | (with_reducible refine keeps_bind _ _ _ ?_ ?_)
    | (with_reducible refine emKeeps_out ?_ ?_)
    | (dsimp only)
    | (simp (maxDischargeDepth := 40) only [Keeps.refl, keeps_mk, keeps_ite, outKeeps_next, outKeeps_ite, bodyKeeps_retire, bodyKeeps_exc, bodyKeeps_wait, bodyKeeps_stay, bodyKeeps_gone, bodyKeeps_posted, bodyKeeps_ite, piecesRead_keeps, engPieces_keeps, *]; done)

@[simp] theorem engBytes_keeps (d : Desc) (va : Nat) (len : Nat)  : EMKeeps (engBytes d va len : EM Bytes) := by
  refine emKeeps_of fun s0 s hk => ?_
  unfold engBytes
  repeat' first
    | assumption
    | (with_reducible intro _)
    | (with_reducible refine keeps_foldl _ _ (fun _ _ _ => ?_) _ ?_)
    | (with_reducible refine keeps_foldl_1 _ _ _ (fun _ _ _ => ?_) ?_)
    | (with_reducible refine keeps_foldl_2 _ _ _ (fun _ _ _ => ?_) ?_)
    | (with_reducible refine keeps_foldl_22 _ _ _ (fun _ _ _ => ?_) ?_)
    | (with_reducible refine keeps_foldl_21 _ _ _ (fun _ _ _ => ?_) ?_)
    | (with_reducible refine keeps_foldl_221 _ _ _ (fun _ _ _ => ?_) ?_)
    | (with_reducible refine keeps_foldl_222 _ _ _ (fun _ _ _ => ?_) ?_)
    | (with_reducible apply engRead_keeps)
    | (simp only [keeps_mk_iff])
    | (with_reducible apply outKeeps_next)
    | (simp only [emOut_get_bind, emOut_set_bind, emOut_modify_bind, emOut_pure_bind, emOut_throw_bind, emOut_pure, emOut_throw, emOut_modify, emOut_set])
    | split
    | (with_reducible refine keeps_bind _ _ _ ?_ ?_)
    | (with_reducible refine emKeeps_out ?_ ?_)
    | (dsimp only)
    | (simp (maxDischargeDepth := 40) only [Keeps.refl, keeps_mk, keeps_ite, outKeeps_next, outKeeps_ite, bodyKeeps_retire, bodyKeeps_exc, bodyKeeps_wait, bodyKeeps_stay, bodyKeeps_gone, bodyKeeps_posted, bodyKeeps_ite, engRead_keeps, *]; done)

@[simp] theorem engArr_keeps (d : Desc) (va : Nat) (len : Nat)  : EMKeeps (engArr d va len : EM (Array Byte)) := by
  refine emKeeps_of fun s0 s hk => ?_
  unfold engArr
  repeat' first
    | assumption
    | (with_reducible intro _)
    | (with_reducible refine keeps_foldl _ _ (fun _ _ _ => ?_) _ ?_)
    | (with_reducible refine keeps_foldl_1 _ _ _ (fun _ _ _ => ?_) ?_)
    | (with_reducible refine keeps_foldl_2 _ _ _ (fun _ _ _ => ?_) ?_)
    | (with_reducible refine keeps_foldl_22 _ _ _ (fun _ _ _ => ?_) ?_)
    | (with_reducible refine keeps_foldl_21 _ _ _ (fun _ _ _ => ?_) ?_)
    | (with_reducible refine keeps_foldl_221 _ _ _ (fun _ _ _ => ?_) ?_)
    | (with_reducible refine keeps_foldl_222 _ _ _ (fun _ _ _ => ?_) ?_)
    | (with_reducible apply engRead_keeps)
    | (simp only [keeps_mk_iff])
    | (with_reducible apply outKeeps_next)
    | (simp only [emOut_get_bind, emOut_set_bind, emOut_modify_bind, emOut_pure_bind, emOut_throw_bind, emOut_pure, emOut_throw, emOut_modify, emOut_set])
    | split
    | (with_reducible refine keeps_bind _ _ _ ?_ ?_)
    | (with_reducible refine emKeeps_out ?_ ?_)
    | (dsimp only)
    | (simp (maxDischargeDepth := 40) only [Keeps.refl, keeps_mk, keeps_ite, outKeeps_next, outKeeps_ite, bodyKeeps_retire, bodyKeeps_exc, bodyKeeps_wait, bodyKeeps_stay, bodyKeeps_gone, bodyKeeps_posted, bodyKeeps_ite, engRead_keeps, *]; done)

@[simp] theorem engWriteMem_keeps (d : Desc) (va : Nat) (len : Nat) (m : Mem)  : EMKeeps (engWriteMem d va len m : EM Unit) := by
  refine emKeeps_of fun s0 s hk => ?_
  unfold engWriteMem
  repeat' first
    | assumption
    | (with_reducible intro _)
    | (with_reducible refine keeps_foldl _ _ (fun _ _ _ => ?_) _ ?_)
    | (with_reducible refine keeps_foldl_1 _ _ _ (fun _ _ _ => ?_) ?_)
    | (with_reducible refine keeps_foldl_2 _ _ _ (fun _ _ _ => ?_) ?_)
    | (with_reducible refine keeps_foldl_22 _ _ _ (fun _ _ _ => ?_) ?_)
    | (with_reducible refine keeps_foldl_21 _ _ _ (fun _ _ _ => ?_) ?_)
    | (with_reducible refine keeps_foldl_221 _ _ _ (fun _ _ _ => ?_) ?_)
    | (with_reducible refine keeps_foldl_222 _ _ _ (fun _ _ _ => ?_) ?_)
    | (with_reducible apply piecesWrite_keeps)
    | (with_reducible apply engPieces_keeps)
    | (simp only [keeps_mk_iff])
    | (with_reducible apply outKeeps_next)
    | (simp only [emOut_get_bind, emOut_set_bind, emOut_modify_bind, emOut_pure_bind, emOut_throw_bind, emOut_pure, emOut_throw, emOut_modify, emOut_set])
    | split
    | (with_reducible refine keeps_bind _ _ _ ?_ ?_)
    | (with_reducible refine emKeeps_out ?_ ?_)
    | (dsimp only)
    | (simp (maxDischargeDepth := 40) only [Keeps.refl, keeps_mk, keeps_ite, outKeeps_next, outKeeps_ite, bodyKeeps_retire, bodyKeeps_exc, bodyKeeps_wait, bodyKeeps_stay, bodyKeeps_gone, bodyKeeps_posted, bodyKeeps_ite, piecesWrite_keeps, engPieces_keeps, *]; done)

@[simp] theorem engWrite_keeps (d : Desc) (va : Nat) (b : Bytes)  : EMKeeps (engWrite d va b : EM Unit) := by
  refine emKeeps_of fun s0 s hk => ?_
  unfold engWrite
  repeat' first
    | assumption
    | (with_reducible intro _)
    | (with_reducible refine keeps_foldl _ _ (fun _ _ _ => ?_) _ ?_)
    | (with_reducible refine keeps_foldl_1 _ _ _ (fun _ _ _ => ?_) ?_)
    | (with_reducible refine keeps_foldl_2 _ _ _ (fun _ _ _ => ?_) ?_)
    | (with_reducible refine keeps_foldl_22 _ _ _ (fun _ _ _ => ?_) ?_)
    | (with_reducible refine keeps_foldl_21 _ _ _ (fun _ _ _ => ?_) ?_)
    | (with_reducible refine keeps_foldl_221 _ _ _ (fun _ _ _ => ?_) ?_)
    | (with_reducible refine keeps_foldl_222 _ _ _ (fun _ _ _ => ?_) ?_)
    | (with_reducible apply engWriteMem_keeps)
    | (simp only [keeps_mk_iff])
    | (with_reducible apply outKeeps_next)
    | (simp only [emOut_get_bind, emOut_set_bind, emOut_modify_bind, emOut_pure_bind, emOut_throw_bind, emOut_pure, emOut_throw, emOut_modify, emOut_set])
    | split
    | (with_reducible refine keeps_bind _ _ _ ?_ ?_)
    | (with_reducible refine emKeeps_out ?_ ?_)
    | (dsimp only)
    | (simp (maxDischargeDepth := 40) only [Keeps.refl, keeps_mk, keeps_ite, outKeeps_next, outKeeps_ite, bodyKeeps_retire, bodyKeeps_exc, bodyKeeps_wait, bodyKeeps_stay, bodyKeeps_gone, bodyKeeps_posted, bodyKeeps_ite, engWriteMem_keeps, *]; done)

@[simp] theorem engFree_keeps (n : Nat)  : EMKeeps (engFree n : EM Bytes) := by
  intro s0 s hk
  unfold engFree
  repeat' first
    | assumption
    | (with_reducible refine keeps_bind _ _ _ ?_ fun _ _ _ => ?_)
    | (simp only [emOut_get_bind, emOut_set_bind, emOut_modify_bind, emOut_pure_bind, emOut_throw_bind, emOut_pure, emOut_throw, emOut_modify, emOut_set]; done)
    | (simp only [emOut_get_bind, emOut_set_bind, emOut_modify_bind, emOut_pure_bind, emOut_throw_bind, emOut_pure, emOut_throw, emOut_modify, emOut_set])
    | (simp (maxDischargeDepth := 40) only [Keeps.refl, keeps_mk, keeps_ite, outKeeps_next, outKeeps_ite, bodyKeeps_retire, bodyKeeps_exc, bodyKeeps_wait, bodyKeeps_stay, bodyKeeps_gone, bodyKeeps_posted, bodyKeeps_ite, freeCells_keeps, *]; done)
    | split

@[simp] theorem engBlur_keeps (d : Desc) (va : Nat) (len : Nat)  : EMKeeps (engBlur d va len : EM Unit) := by
  refine emKeeps_of fun s0 s hk => ?_
  unfold engBlur
  repeat' first
    | assumption
    | (with_reducible intro _)
    | (with_reducible refine keeps_foldl _ _ (fun _ _ _ => ?_) _ ?_)
    | (with_reducible refine keeps_foldl_1 _ _ _ (fun _ _ _ => ?_) ?_)
    | (with_reducible refine keeps_foldl_2 _ _ _ (fun _ _ _ => ?_) ?_)
    | (with_reducible refine keeps_foldl_22 _ _ _ (fun _ _ _ => ?_) ?_)
    | (with_reducible refine keeps_foldl_21 _ _ _ (fun _ _ _ => ?_) ?_)
    | (with_reducible refine keeps_foldl_221 _ _ _ (fun _ _ _ => ?_) ?_)
    | (with_reducible refine keeps_foldl_222 _ _ _ (fun _ _ _ => ?_) ?_)
    | (with_reducible apply freeCells_keeps)
    | (with_reducible apply engWriteMem_keeps)
    | (simp only [keeps_mk_iff])
    | (with_reducible apply outKeeps_next)
    | (simp only [emOut_get_bind, emOut_set_bind, emOut_modify_bind, emOut_pure_bind, emOut_throw_bind, emOut_pure, emOut_throw, emOut_modify, emOut_set])
    | split
    | (with_reducible refine keeps_bind _ _ _ ?_ ?_)
    | (with_reducible refine emKeeps_out ?_ ?_)
    | (dsimp only)
    | (simp (maxDischargeDepth := 40) only [Keeps.refl, keeps_mk, keeps_ite, outKeeps_next, outKeeps_ite, bodyKeeps_retire, bodyKeeps_exc, bodyKeeps_wait, bodyKeeps_stay, bodyKeeps_gone, bodyKeeps_posted, bodyKeeps_ite, freeCells_keeps, engWriteMem_keeps, *]; done)

@[simp] theorem descPut_keeps {s0 : State} (s : State) (code : Nat) (d : Desc) (hk : Keeps s0 s) : Keeps s0 (descPut s code d) := by
  unfold descPut
  simp (maxDischargeDepth := 40) only [Keeps.refl, keeps_mk, keeps_ite, outKeeps_next, outKeeps_ite, bodyKeeps_retire, bodyKeeps_exc, bodyKeeps_wait, bodyKeeps_stay, bodyKeeps_gone, bodyKeeps_posted, bodyKeeps_ite, *]

@[simp] theorem engFlush_keeps {s0 : State} (s : State) (code : Nat) (hk : Keeps s0 s) : Keeps s0 (engFlush s code) := by
  unfold engFlush
  repeat' first
    | assumption
    | (with_reducible refine keeps_foldl _ _ (fun _ _ _ => ?_) _ ?_)
    | (with_reducible refine keeps_foldl_1 _ _ _ (fun _ _ _ => ?_) ?_)
    | (with_reducible refine keeps_foldl_2 _ _ _ (fun _ _ _ => ?_) ?_)
    | (with_reducible refine keeps_foldl_22 _ _ _ (fun _ _ _ => ?_) ?_)
    | (with_reducible refine keeps_foldl_21 _ _ _ (fun _ _ _ => ?_) ?_)
    | (with_reducible refine keeps_foldl_221 _ _ _ (fun _ _ _ => ?_) ?_)
    | (with_reducible refine keeps_foldl_222 _ _ _ (fun _ _ _ => ?_) ?_)
    | (simp (maxDischargeDepth := 40) only [Keeps.refl, keeps_mk, keeps_ite, outKeeps_next, outKeeps_ite, bodyKeeps_retire, bodyKeeps_exc, bodyKeeps_wait, bodyKeeps_stay, bodyKeeps_gone, bodyKeeps_posted, bodyKeeps_ite, descMalformed_keeps, *]; done)
    | split
    | (dsimp only)

@[simp] theorem engFinish_keeps {s0 : State} (s : State) (code : Nat) (d : Desc) (st : Status) (result : Word) (fixed : Nat) (size : Nat) (hk : Keeps s0 s) : Keeps s0 (engFinish s code d st result fixed size) := by
  unfold engFinish
  repeat' first
    | assumption
    | (with_reducible refine keeps_foldl _ _ (fun _ _ _ => ?_) _ ?_)
    | (with_reducible refine keeps_foldl_1 _ _ _ (fun _ _ _ => ?_) ?_)
    | (with_reducible refine keeps_foldl_2 _ _ _ (fun _ _ _ => ?_) ?_)
    | (with_reducible refine keeps_foldl_22 _ _ _ (fun _ _ _ => ?_) ?_)
    | (with_reducible refine keeps_foldl_21 _ _ _ (fun _ _ _ => ?_) ?_)
    | (with_reducible refine keeps_foldl_221 _ _ _ (fun _ _ _ => ?_) ?_)
    | (with_reducible refine keeps_foldl_222 _ _ _ (fun _ _ _ => ?_) ?_)
    | (simp (maxDischargeDepth := 40) only [Keeps.refl, keeps_mk, keeps_ite, outKeeps_next, outKeeps_ite, bodyKeeps_retire, bodyKeeps_exc, bodyKeeps_wait, bodyKeeps_stay, bodyKeeps_gone, bodyKeeps_posted, bodyKeeps_ite, descComplete_keeps, *]; done)
    | split
    | (dsimp only)

@[simp] theorem engFail_keeps {s0 : State} (s : State) (code : Nat) (d : Desc) (e : EngErr) (fixed : Nat) (size : Nat) (hk : Keeps s0 s) : Keeps s0 (engFail s code d e fixed size) := by
  unfold engFail
  simp (maxDischargeDepth := 40) only [Keeps.refl, keeps_mk, keeps_ite, outKeeps_next, outKeeps_ite, bodyKeeps_retire, bodyKeeps_exc, bodyKeeps_wait, bodyKeeps_stay, bodyKeeps_gone, bodyKeeps_posted, bodyKeeps_ite, freezeSw_keeps, descComplete_keeps, engFinish_keeps, *]

@[simp] theorem codecCount_keeps {s0 : State} (s : State) (code : Nat) (hk : Keeps s0 s) : Keeps s0 (codecCount s code) := by
  unfold codecCount
  simp (maxDischargeDepth := 40) only [Keeps.refl, keeps_mk, keeps_ite, outKeeps_next, outKeeps_ite, bodyKeeps_retire, bodyKeeps_exc, bodyKeeps_wait, bodyKeeps_stay, bodyKeeps_gone, bodyKeeps_posted, bodyKeeps_ite, engCount_keeps, *]

@[simp] theorem engSettle_keeps {s0 : State} (code : Nat) (d : Desc) (bud : Nat × Nat) (r : Except EngErr EngOut × State) (hk : Keeps s0 r.2) : Keeps s0 (engSettle code d bud r) := by
  unfold engSettle
  split
  · exact engFinish_keeps _ _ _ _ _ _ _ (codecCount_keeps _ _ hk)
  · exact hk
  · exact engFail_keeps _ _ _ _ _ _ (codecCount_keeps _ _ hk)

@[simp] theorem engStart_keeps {s0 : State} (engine code op len : Nat) (bud : Bytes → Nat × Nat) (body : Desc → Bytes → EM EngOut) (s : State) (h : ∀ d b, EMKeeps (body d b)) (hk : Keeps s0 s) : Keeps s0 (engStart engine code op len bud body s) := by
  unfold engStart
  refine keeps_ite hk ?_
  extract_lets t
  have ht : Keeps s0 t := engFlush_keeps _ _ hk
  clear_value t
  cases engPick t code op with
  | none => exact ht
  | some d =>
    refine engSettle_keeps _ _ _ _ (emKeeps_out (EMKeeps.bind (engNeed_keeps _) fun _ => EMKeeps.bind (engBytes_keeps _ _ _) fun b => h d b) ht)
end Sys2Proof.Machine
end

