-- ==== Sys2Proof/Laws/Keeps/Tensor.lean ====
section
/-! SUPPORT. The operations of Machine/Tensor.lean keep the queue of waiting commands and the canonical form of the memories. -/

namespace Sys2Proof.Machine

set_option linter.unusedSimpArgs false

@[simp] theorem winReads_keeps {s0 : State} (s : State) (L : Nat) (c : Ctx) (l : List (Nat × Nat)) (hk : Keeps s0 s) : Keeps s0 (winReads s L c l).2.2 := by
  induction l generalizing s with
  | nil => exact hk
  | cons a r ih => exact ih _ (winRead_keeps _ _ _ _ _ hk)

@[simp] theorem execTmma_keeps {s0 : State} (i : Issue) (f : TFmt) (s : State) (hk : Keeps s0 s) : OutKeeps s0 (execTmma i f s) := by
  unfold execTmma
  refine outKeeps_next (issue_keeps _ _ _ _ _ hk fun s c hs => ?_)
  extract_lets k sb ops scs es r s1 av bv asc bsc old narrow out hits s2
  have h1 : Keeps s0 r.2.2 := winReads_keeps _ _ _ _ hs
  clear_value r
  have h2 : Keeps s0 s2 := h1
  have h3 : Keeps s0 s1 := h1
  clear_value s2 s1 es hits out narrow
  refine bodyKeeps_ite hs (bodyKeeps_ite h1 (bodyKeeps_ite ?_ (ret_keeps _ _ h3)))
  exact bodyKeeps_ite h2 (bodyKeeps_ite h2 (ret_keeps _ _ h2))

@[simp] theorem execTzero_keeps {s0 : State} (i : Issue) (f : R4) (s : State) (hk : Keeps s0 s) : OutKeeps s0 (execTzero i f s) := by
  unfold execTzero
  repeat' first
    | assumption
    | (with_reducible refine keeps_foldl _ _ (fun _ _ _ => ?_) _ ?_)
    | (with_reducible refine keeps_foldl_1 _ _ _ (fun _ _ _ => ?_) ?_)
    | (with_reducible refine keeps_foldl_2 _ _ _ (fun _ _ _ => ?_) ?_)
    | (with_reducible refine keeps_foldl_22 _ _ _ (fun _ _ _ => ?_) ?_)
    | (with_reducible refine keeps_foldl_21 _ _ _ (fun _ _ _ => ?_) ?_)
    | (with_reducible refine keeps_foldl_221 _ _ _ (fun _ _ _ => ?_) ?_)
    | (with_reducible refine keeps_foldl_222 _ _ _ (fun _ _ _ => ?_) ?_)
    | split
    | (simp (maxDischargeDepth := 40) only [Keeps.refl, keeps_mk, keeps_ite, outKeeps_next, outKeeps_ite, bodyKeeps_retire, bodyKeeps_exc, bodyKeeps_wait, bodyKeeps_stay, bodyKeeps_gone, bodyKeeps_posted, bodyKeeps_ite, issue_keeps, ret_keeps, *]; done)
    | (with_reducible refine outKeeps_next ?_)
    | (with_reducible apply issue_keeps)
    | (with_reducible apply ret_keeps)
    | (with_reducible apply keeps_mk)
    | (with_reducible intro _ _)
    | (dsimp only)

@[simp] theorem execTld_keeps {s0 : State} (i : Issue) (f : R4) (s : State) (hk : Keeps s0 s) : OutKeeps s0 (execTld i f s) := by
  unfold execTld
  repeat' first
    | assumption
    | (intro _)
    | (with_reducible refine keeps_foldl _ _ (fun _ _ _ => ?_) _ ?_)
    | (with_reducible refine keeps_foldl_1 _ _ _ (fun _ _ _ => ?_) ?_)
    | (with_reducible refine keeps_foldl_2 _ _ _ (fun _ _ _ => ?_) ?_)
    | (with_reducible refine keeps_foldl_22 _ _ _ (fun _ _ _ => ?_) ?_)
    | (with_reducible refine keeps_foldl_21 _ _ _ (fun _ _ _ => ?_) ?_)
    | (with_reducible refine keeps_foldl_221 _ _ _ (fun _ _ _ => ?_) ?_)
    | (with_reducible refine keeps_foldl_222 _ _ _ (fun _ _ _ => ?_) ?_)
    | (with_reducible apply winRead_keeps)
    | (with_reducible apply issue_keeps)
    | (with_reducible apply ret_keeps)
    | (simp only [keeps_mk_iff])
    | (with_reducible apply outKeeps_next)
    | (with_reducible apply bodyKeeps_retire)
    | (with_reducible apply bodyKeeps_exc)
    | (with_reducible apply bodyKeeps_wait)
    | (with_reducible apply bodyKeeps_stay)
    | (with_reducible apply bodyKeeps_gone)
    | (with_reducible apply bodyKeeps_posted)
    | split
    | (dsimp only)
    | (simp (maxDischargeDepth := 40) only [Keeps.refl, keeps_mk, keeps_ite, outKeeps_next, outKeeps_ite, bodyKeeps_retire, bodyKeeps_exc, bodyKeeps_wait, bodyKeeps_stay, bodyKeeps_gone, bodyKeeps_posted, bodyKeeps_ite, winRead_keeps, issue_keeps, ret_keeps, *]; done)

@[simp] theorem taccStore_keeps {s0 : State} (i : Issue) (s : State) (c : Ctx) (o : Word) (b : Bytes) (hk : Keeps s0 s) : BodyKeeps s0 (taccStore i s c o b) := by
  unfold taccStore
  simp (maxDischargeDepth := 40) only [Keeps.refl, keeps_mk, keeps_ite, outKeeps_next, outKeeps_ite, bodyKeeps_retire, bodyKeeps_exc, bodyKeeps_wait, bodyKeeps_stay, bodyKeeps_gone, bodyKeeps_posted, bodyKeeps_ite, winWrite_keeps, retire_keeps, *]

@[simp] theorem execTst_keeps {s0 : State} (i : Issue) (f : R4) (s : State) (hk : Keeps s0 s) : OutKeeps s0 (execTst i f s) := by
  unfold execTst
  refine outKeeps_next (issue_keeps _ _ _ _ _ hk fun s c hs => ?_)
  with_reducible exact taccStore_keeps _ _ _ _ _ hs

@[simp] theorem trndOp_keeps {s0 : State} (i : Issue) (f : R4) (g : Nat → BitVec 96 → Nat) (s : State) (hk : Keeps s0 s) : Keeps s0 (trndOp i f g s) := by
  unfold trndOp
  refine issue_keeps _ _ _ _ _ hk fun s c hs => ?_
  with_reducible exact taccStore_keeps _ _ _ _ _ hs

@[simp] theorem execTrnd_keeps {s0 : State} (i : Issue) (f : R4) (s : State) (hk : Keeps s0 s) : OutKeeps s0 (execTrnd i f s) := by
  unfold execTrnd
  simp (maxDischargeDepth := 40) only [Keeps.refl, keeps_mk, keeps_ite, outKeeps_next, outKeeps_ite, bodyKeeps_retire, bodyKeeps_exc, bodyKeeps_wait, bodyKeeps_stay, bodyKeeps_gone, bodyKeeps_posted, bodyKeeps_ite, trndOp_keeps, *]

@[simp] theorem execTrndf_keeps {s0 : State} (i : Issue) (f : R4) (s : State) (hk : Keeps s0 s) : OutKeeps s0 (execTrndf i f s) := by
  unfold execTrndf
  simp (maxDischargeDepth := 40) only [Keeps.refl, keeps_mk, keeps_ite, outKeeps_next, outKeeps_ite, bodyKeeps_retire, bodyKeeps_exc, bodyKeeps_wait, bodyKeeps_stay, bodyKeeps_gone, bodyKeeps_posted, bodyKeeps_ite, trndOp_keeps, *]

@[simp] theorem trndsOp_keeps {s0 : State} (i : Issue) (f : R4) (g : Nat → Nat → BitVec 96 → Nat) (s : State) (hk : Keeps s0 s) : Keeps s0 (trndsOp i f g s) := by
  unfold trndsOp
  refine issue_keeps _ _ _ _ _ hk fun s c hs => ?_
  extract_lets base es
  clear_value es
  cases keySlot s c.job ((i.pre.map fun p => pay p 0 8).getD 0) with
  | none => exact hs
  | some je =>
    refine bodyKeeps_ite hs ?_
    cases keyHeld s je.1 je.2 ((i.pre.map fun p => pay p 0 8).getD 0) c.batch with
    | none => exact hs
    | some k => with_reducible exact taccStore_keeps _ _ _ _ _ hs

@[simp] theorem execTrnds_keeps {s0 : State} (i : Issue) (f : R4) (s : State) (hk : Keeps s0 s) : OutKeeps s0 (execTrnds i f s) := by
  unfold execTrnds
  simp (maxDischargeDepth := 40) only [Keeps.refl, keeps_mk, keeps_ite, outKeeps_next, outKeeps_ite, bodyKeeps_retire, bodyKeeps_exc, bodyKeeps_wait, bodyKeeps_stay, bodyKeeps_gone, bodyKeeps_posted, bodyKeeps_ite, trndsOp_keeps, *]

@[simp] theorem execTrndfs_keeps {s0 : State} (i : Issue) (f : R4) (s : State) (hk : Keeps s0 s) : OutKeeps s0 (execTrndfs i f s) := by
  unfold execTrndfs
  simp (maxDischargeDepth := 40) only [Keeps.refl, keeps_mk, keeps_ite, outKeeps_next, outKeeps_ite, bodyKeeps_retire, bodyKeeps_exc, bodyKeeps_wait, bodyKeeps_stay, bodyKeeps_gone, bodyKeeps_posted, bodyKeeps_ite, trndsOp_keeps, *]

@[simp] theorem execXdot_keeps {s0 : State} (i : Issue) (f : XFmt) (s : State) (hk : Keeps s0 s) : OutKeeps s0 (execXdot i f s) := by
  unfold execXdot
  repeat' first
    | assumption
    | (intro _)
    | (with_reducible refine keeps_foldl _ _ (fun _ _ _ => ?_) _ ?_)
    | (with_reducible refine keeps_foldl_1 _ _ _ (fun _ _ _ => ?_) ?_)
    | (with_reducible refine keeps_foldl_2 _ _ _ (fun _ _ _ => ?_) ?_)
    | (with_reducible refine keeps_foldl_22 _ _ _ (fun _ _ _ => ?_) ?_)
    | (with_reducible refine keeps_foldl_21 _ _ _ (fun _ _ _ => ?_) ?_)
    | (with_reducible refine keeps_foldl_221 _ _ _ (fun _ _ _ => ?_) ?_)
    | (with_reducible refine keeps_foldl_222 _ _ _ (fun _ _ _ => ?_) ?_)
    | (with_reducible apply issue_keeps)
    | (with_reducible apply ret_keeps)
    | (with_reducible apply winReads_keeps)
    | (simp only [keeps_mk_iff])
    | (with_reducible apply outKeeps_next)
    | (with_reducible apply bodyKeeps_retire)
    | (with_reducible apply bodyKeeps_exc)
    | (with_reducible apply bodyKeeps_wait)
    | (with_reducible apply bodyKeeps_stay)
    | (with_reducible apply bodyKeeps_gone)
    | (with_reducible apply bodyKeeps_posted)
    | split
    | (dsimp only)
    | (simp (maxDischargeDepth := 40) only [Keeps.refl, keeps_mk, keeps_ite, outKeeps_next, outKeeps_ite, bodyKeeps_retire, bodyKeeps_exc, bodyKeeps_wait, bodyKeeps_stay, bodyKeeps_gone, bodyKeeps_posted, bodyKeeps_ite, issue_keeps, ret_keeps, winReads_keeps, *]; done)

@[simp] theorem execXzero_keeps {s0 : State} (i : Issue) (f : R4) (s : State) (hk : Keeps s0 s) : OutKeeps s0 (execXzero i f s) := by
  unfold execXzero
  repeat' first
    | assumption
    | (with_reducible refine keeps_foldl _ _ (fun _ _ _ => ?_) _ ?_)
    | (with_reducible refine keeps_foldl_1 _ _ _ (fun _ _ _ => ?_) ?_)
    | (with_reducible refine keeps_foldl_2 _ _ _ (fun _ _ _ => ?_) ?_)
    | (with_reducible refine keeps_foldl_22 _ _ _ (fun _ _ _ => ?_) ?_)
    | (with_reducible refine keeps_foldl_21 _ _ _ (fun _ _ _ => ?_) ?_)
    | (with_reducible refine keeps_foldl_221 _ _ _ (fun _ _ _ => ?_) ?_)
    | (with_reducible refine keeps_foldl_222 _ _ _ (fun _ _ _ => ?_) ?_)
    | split
    | (simp (maxDischargeDepth := 40) only [Keeps.refl, keeps_mk, keeps_ite, outKeeps_next, outKeeps_ite, bodyKeeps_retire, bodyKeeps_exc, bodyKeeps_wait, bodyKeeps_stay, bodyKeeps_gone, bodyKeeps_posted, bodyKeeps_ite, issue_keeps, ret_keeps, *]; done)
    | (with_reducible refine outKeeps_next ?_)
    | (with_reducible apply issue_keeps)
    | (with_reducible apply ret_keeps)
    | (with_reducible apply keeps_mk)
    | (with_reducible intro _ _)
    | (dsimp only)

@[simp] theorem execXrnd_keeps {s0 : State} (i : Issue) (f : R4) (s : State) (hk : Keeps s0 s) : OutKeeps s0 (execXrnd i f s) := by
  unfold execXrnd
  repeat' first
    | assumption
    | (with_reducible refine keeps_foldl _ _ (fun _ _ _ => ?_) _ ?_)
    | (with_reducible refine keeps_foldl_1 _ _ _ (fun _ _ _ => ?_) ?_)
    | (with_reducible refine keeps_foldl_2 _ _ _ (fun _ _ _ => ?_) ?_)
    | (with_reducible refine keeps_foldl_22 _ _ _ (fun _ _ _ => ?_) ?_)
    | (with_reducible refine keeps_foldl_21 _ _ _ (fun _ _ _ => ?_) ?_)
    | (with_reducible refine keeps_foldl_221 _ _ _ (fun _ _ _ => ?_) ?_)
    | (with_reducible refine keeps_foldl_222 _ _ _ (fun _ _ _ => ?_) ?_)
    | split
    | (simp (maxDischargeDepth := 40) only [Keeps.refl, keeps_mk, keeps_ite, outKeeps_next, outKeeps_ite, bodyKeeps_retire, bodyKeeps_exc, bodyKeeps_wait, bodyKeeps_stay, bodyKeeps_gone, bodyKeeps_posted, bodyKeeps_ite, issue_keeps, exc1_keeps, ret_keeps, *]; done)
    | (with_reducible refine outKeeps_next ?_)
    | (with_reducible apply issue_keeps)
    | (with_reducible apply exc1_keeps)
    | (with_reducible apply ret_keeps)
    | (with_reducible apply keeps_mk)
    | (with_reducible intro _ _)
    | (dsimp only)

@[simp] theorem execXexp_keeps {s0 : State} (i : Issue) (f : R4) (s : State) (hk : Keeps s0 s) : OutKeeps s0 (execXexp i f s) := by
  unfold execXexp
  refine outKeeps_next (issue_keeps _ _ _ _ _ hk fun s c hs => ?_)
  extract_lets b o es
  clear_value es b o
  exact bodyKeeps_ite hs (bodyKeeps_retire (winWrite_keeps _ _ _ _ _ _ hs) _ _ _)

@[simp] theorem recordsRead_keeps {s0 : State} (L : Nat) (c : Ctx) (f k : Nat) (s : State) (o : Nat) (hk : Keeps s0 s) : Keeps s0 (recordsRead L c f k s o).2.2 := by
  induction f generalizing k s o with
  | zero => exact hk
  | succ f ih =>
    unfold recordsRead
    extract_lets r h n q t
    have h1 : Keeps s0 r.2.2 := winRead_keeps _ _ _ _ _ hk
    have h2 : Keeps s0 q.2.2 := winRead_keeps _ _ _ _ _ h1
    have h3 : Keeps s0 t.2.2 := ih _ _ _ h2
    clear_value t q r
    split
    · exact hk
    split
    · exact h1
    split
    · exact h1
    split
    · exact h2
    split
    · exact h2
    · exact h3

@[simp] theorem execXimp_keeps {s0 : State} (i : Issue) (f : R4) (s : State) (hk : Keeps s0 s) : OutKeeps s0 (execXimp i f s) := by
  unfold execXimp
  refine outKeeps_next (issue_keeps _ _ _ _ _ hk fun s c hs => ?_)
  extract_lets r
  have h1 : Keeps s0 r.2.2 := recordsRead_keeps _ _ _ _ _ _ hs
  clear_value r
  refine bodyKeeps_ite h1 ?_
  cases r.2.1 with
  | none => exact h1
  | some ls => exact ret_keeps _ _ h1

end Sys2Proof.Machine
end

