-- ==== Sys2Proof/Laws/State.lean ====
section
/-! SUPPORT. What the updates of State leave and what a read after one gives: one lemma per field for each of the named updates (a UCB, a sync counter, a tile, a context, a pool, a queue pair), and read after write. -/

namespace Sys2Proof.Machine

/-! ## Entries that may be absent -/

theorem kvGet_insert {β : Type} (m : List (Nat × β)) (k : Nat) (v : β) (j : Nat) (hm : ∀ e ∈ m, e.1 ≠ k) :
    kvGet (tabInsert m k v) j = if j = k then some v else kvGet m j := by
  induction m with
  | nil => simp [tabInsert, kvGet, eq_comm]
  | cons e r ih =>
    have hr := ih fun x hx => hm x (List.mem_cons_of_mem _ hx)
    have he := hm e List.mem_cons_self
    unfold tabInsert
    split
    · simp only [kvGet, @eq_comm _ k j]
    · simp only [kvGet, hr]
      by_cases h : j = k
      · subst h; simp [he]
      · simp [h]

theorem kvGet_erase {β : Type} (m : List (Nat × β)) (k j : Nat) (h : j ≠ k) : kvGet (tabErase m k) j = kvGet m j := by
  unfold tabErase
  induction m with
  | nil => rfl
  | cons e r ih =>
    rw [List.filter_cons]
    split
    · simp only [kvGet, ih]
    · rename_i he
      have : e.1 ≠ j := fun hj => h (hj.symm.trans (by simpa using he))
      simp only [kvGet, if_neg this, ih]

/-- Read after write of a keyed entry. -/
theorem kvGet_kvSet {β : Type} (m : List (Nat × β)) (k : Nat) (v : β) (j : Nat) : kvGet (kvSet m k v) j = if j = k then some v else kvGet m j := by
  unfold kvSet
  rw [kvGet_insert _ _ _ _ fun e he => ((mem_tabErase m k e).mp he).2]
  split
  · rfl
  · exact kvGet_erase m k j ‹_›

/-! ## Read after write -/

@[simp] theorem unitGet_unitSet (s : State) (u v : Nat) (x : Ucb) : unitGet (unitSet s u x) v = if v = u then x else unitGet s v := by
  simp only [unitGet, unitSet, kvGet_kvSet]
  split <;> rfl

@[simp] theorem ctrGet_ctrSet (s : State) (k j : Nat) (v : Word) : ctrGet (ctrSet s k v) j = if j = k then v else ctrGet s j :=
  tabGet_set 0 s.ctrs k v j

@[simp] theorem tileGet_tileSet (s : State) (L M : Nat) (x : Tile) : tileGet (tileSet s L x) M = if M = L then x else tileGet s M := by
  simp only [tileGet, tileSet, kvGet_kvSet]
  split <;> rfl

@[simp] theorem poolGet_poolSet (s : State) (p q : Nat) (x : Pool) : poolGet (poolSet s p x) q = if q = p then x else poolGet s q := by
  simp only [poolGet, poolSet, kvGet_kvSet]
  split <;> rfl

@[simp] theorem qpGet_qpSet (s : State) (n m : Nat) (x : Qp) : qpGet (qpSet s n x) m = if m = n then x else qpGet s m := by
  simp only [qpGet, qpSet, kvGet_kvSet]
  split <;> rfl

@[simp] theorem ctxGet_ctxSet (s : State) (L hw M k : Nat) (c : Ctx) :
    ctxGet (ctxSet s L hw c) M k = if M = L ∧ k = hw then some c else ctxGet s M k := by
  simp only [ctxGet, ctxSet, tileUpd, tileGet_tileSet]
  by_cases h : M = L
  · subst h
    by_cases hk : k = hw <;> simp [kvGet_kvSet, hk]
  · simp [h]

/-! ## What unitSet leaves -/

@[simp] theorem unitSet_pending (s : State) (u : Nat) (x : Ucb) : (unitSet s u x).pending = s.pending := rfl
@[simp] theorem unitSet_freeCtr (s : State) (u : Nat) (x : Ucb) : (unitSet s u x).freeCtr = s.freeCtr := rfl
@[simp] theorem unitSet_nextSw (s : State) (u : Nat) (x : Ucb) : (unitSet s u x).nextSw = s.nextSw := rfl
@[simp] theorem unitSet_nextOp (s : State) (u : Nat) (x : Ucb) : (unitSet s u x).nextOp = s.nextOp := rfl
@[simp] theorem unitSet_nextDesc (s : State) (u : Nat) (x : Ucb) : (unitSet s u x).nextDesc = s.nextDesc := rfl
@[simp] theorem unitSet_now (s : State) (u : Nat) (x : Ucb) : (unitSet s u x).now = s.now := rfl
@[simp] theorem unitSet_nowFrac (s : State) (u : Nat) (x : Ucb) : (unitSet s u x).nowFrac = s.nowFrac := rfl
@[simp] theorem unitSet_ptpRate (s : State) (u : Nat) (x : Ucb) : (unitSet s u x).ptpRate = s.ptpRate := rfl
@[simp] theorem unitSet_ptpSlew (s : State) (u : Nat) (x : Ucb) : (unitSet s u x).ptpSlew = s.ptpSlew := rfl
@[simp] theorem unitSet_ptpJump (s : State) (u : Nat) (x : Ucb) : (unitSet s u x).ptpJump = s.ptpJump := rfl
@[simp] theorem unitSet_silicon (s : State) (u : Nat) (x : Ucb) : (unitSet s u x).silicon = s.silicon := rfl
@[simp] theorem unitSet_mapTile (s : State) (u : Nat) (x : Ucb) : (unitSet s u x).mapTile = s.mapTile := rfl
@[simp] theorem unitSet_unbacked (s : State) (u : Nat) (x : Ucb) : (unitSet s u x).unbacked = s.unbacked := rfl
@[simp] theorem unitSet_slotStates (s : State) (u : Nat) (x : Ucb) : (unitSet s u x).slotStates = s.slotStates := rfl
@[simp] theorem unitSet_remaps (s : State) (u : Nat) (x : Ucb) : (unitSet s u x).remaps = s.remaps := rfl
@[simp] theorem unitSet_devGroup (s : State) (u : Nat) (x : Ucb) : (unitSet s u x).devGroup = s.devGroup := rfl
@[simp] theorem unitSet_devUnit (s : State) (u : Nat) (x : Ucb) : (unitSet s u x).devUnit = s.devUnit := rfl
@[simp] theorem unitSet_groups (s : State) (u : Nat) (x : Ucb) : (unitSet s u x).groups = s.groups := rfl
@[simp] theorem unitSet_tiles (s : State) (u : Nat) (x : Ucb) : (unitSet s u x).tiles = s.tiles := rfl
@[simp] theorem unitSet_ops (s : State) (u : Nat) (x : Ucb) : (unitSet s u x).ops = s.ops := rfl
@[simp] theorem unitSet_engines (s : State) (u : Nat) (x : Ucb) : (unitSet s u x).engines = s.engines := rfl
@[simp] theorem unitSet_engHold (s : State) (u : Nat) (x : Ucb) : (unitSet s u x).engHold = s.engHold := rfl
@[simp] theorem unitSet_engQuiesce (s : State) (u : Nat) (x : Ucb) : (unitSet s u x).engQuiesce = s.engQuiesce := rfl
@[simp] theorem unitSet_dps (s : State) (u : Nat) (x : Ucb) : (unitSet s u x).dps = s.dps := rfl
@[simp] theorem unitSet_fronts (s : State) (u : Nat) (x : Ucb) : (unitSet s u x).fronts = s.fronts := rfl
@[simp] theorem unitSet_ctrs (s : State) (u : Nat) (x : Ucb) : (unitSet s u x).ctrs = s.ctrs := rfl
@[simp] theorem unitSet_adds (s : State) (u : Nat) (x : Ucb) : (unitSet s u x).adds = s.adds := rfl
@[simp] theorem unitSet_hbm (s : State) (u : Nat) (x : Ucb) : (unitSet s u x).hbm = s.hbm := rfl
@[simp] theorem unitSet_hbmErr (s : State) (u : Nat) (x : Ucb) : (unitSet s u x).hbmErr = s.hbmErr := rfl
@[simp] theorem unitSet_ts (s : State) (u : Nat) (x : Ucb) : (unitSet s u x).ts = s.ts := rfl
@[simp] theorem unitSet_tsErr (s : State) (u : Nat) (x : Ucb) : (unitSet s u x).tsErr = s.tsErr := rfl
@[simp] theorem unitSet_arrayErr (s : State) (u : Nat) (x : Ucb) : (unitSet s u x).arrayErr = s.arrayErr := rfl
@[simp] theorem unitSet_pace (s : State) (u : Nat) (x : Ucb) : (unitSet s u x).pace = s.pace := rfl
@[simp] theorem unitSet_mem (s : State) (u : Nat) (x : Ucb) : (unitSet s u x).mem = s.mem := rfl
@[simp] theorem unitSet_lehr (s : State) (u : Nat) (x : Ucb) : (unitSet s u x).lehr = s.lehr := rfl
@[simp] theorem unitSet_flt (s : State) (u : Nat) (x : Ucb) : (unitSet s u x).flt = s.flt := rfl
@[simp] theorem unitSet_pwr (s : State) (u : Nat) (x : Ucb) : (unitSet s u x).pwr = s.pwr := rfl
@[simp] theorem unitSet_glob (s : State) (u : Nat) (x : Ucb) : (unitSet s u x).glob = s.glob := rfl
@[simp] theorem unitSet_xp (s : State) (u : Nat) (x : Ucb) : (unitSet s u x).xp = s.xp := rfl
@[simp] theorem unitSet_qps (s : State) (u : Nat) (x : Ucb) : (unitSet s u x).qps = s.qps := rfl
@[simp] theorem unitSet_regions (s : State) (u : Nat) (x : Ucb) : (unitSet s u x).regions = s.regions := rfl
@[simp] theorem unitSet_cul (s : State) (u : Nat) (x : Ucb) : (unitSet s u x).cul = s.cul := rfl
@[simp] theorem unitSet_host (s : State) (u : Nat) (x : Ucb) : (unitSet s u x).host = s.host := rfl
@[simp] theorem unitSet_ports (s : State) (u : Nat) (x : Ucb) : (unitSet s u x).ports = s.ports := rfl
@[simp] theorem unitSet_mgmt (s : State) (u : Nat) (x : Ucb) : (unitSet s u x).mgmt = s.mgmt := rfl
@[simp] theorem unitSet_media (s : State) (u : Nat) (x : Ucb) : (unitSet s u x).media = s.media := rfl
@[simp] theorem unitSet_sec (s : State) (u : Nat) (x : Ucb) : (unitSet s u x).sec = s.sec := rfl
@[simp] theorem unitSet_brl (s : State) (u : Nat) (x : Ucb) : (unitSet s u x).brl = s.brl := rfl
@[simp] theorem unitSet_slots (s : State) (u : Nat) (x : Ucb) : (unitSet s u x).slots = s.slots := rfl
@[simp] theorem unitSet_streams (s : State) (u : Nat) (x : Ucb) : (unitSet s u x).streams = s.streams := rfl
@[simp] theorem unitSet_recordings (s : State) (u : Nat) (x : Ucb) : (unitSet s u x).recordings = s.recordings := rfl
@[simp] theorem unitSet_engCnt (s : State) (u : Nat) (x : Ucb) : (unitSet s u x).engCnt = s.engCnt := rfl
@[simp] theorem unitSet_jobs (s : State) (u : Nat) (x : Ucb) : (unitSet s u x).jobs = s.jobs := rfl
@[simp] theorem unitSet_images (s : State) (u : Nat) (x : Ucb) : (unitSet s u x).images = s.images := rfl
@[simp] theorem unitSet_starting (s : State) (u : Nat) (x : Ucb) : (unitSet s u x).starting = s.starting := rfl
@[simp] theorem unitSet_sinks (s : State) (u : Nat) (x : Ucb) : (unitSet s u x).sinks = s.sinks := rfl
@[simp] theorem unitSet_hostMem (s : State) (u : Nat) (x : Ucb) : (unitSet s u x).hostMem = s.hostMem := rfl
@[simp] theorem unitSet_evq (s : State) (u : Nat) (x : Ucb) : (unitSet s u x).evq = s.evq := rfl
@[simp] theorem unitSet_out (s : State) (u : Nat) (x : Ucb) : (unitSet s u x).out = s.out := rfl

/-! ## What ctrSet leaves -/

@[simp] theorem ctrSet_pending (s : State) (k : Nat) (v : Word) : (ctrSet s k v).pending = s.pending := rfl
@[simp] theorem ctrSet_freeCtr (s : State) (k : Nat) (v : Word) : (ctrSet s k v).freeCtr = s.freeCtr := rfl
@[simp] theorem ctrSet_nextSw (s : State) (k : Nat) (v : Word) : (ctrSet s k v).nextSw = s.nextSw := rfl
@[simp] theorem ctrSet_nextOp (s : State) (k : Nat) (v : Word) : (ctrSet s k v).nextOp = s.nextOp := rfl
@[simp] theorem ctrSet_nextDesc (s : State) (k : Nat) (v : Word) : (ctrSet s k v).nextDesc = s.nextDesc := rfl
@[simp] theorem ctrSet_now (s : State) (k : Nat) (v : Word) : (ctrSet s k v).now = s.now := rfl
@[simp] theorem ctrSet_nowFrac (s : State) (k : Nat) (v : Word) : (ctrSet s k v).nowFrac = s.nowFrac := rfl
@[simp] theorem ctrSet_ptpRate (s : State) (k : Nat) (v : Word) : (ctrSet s k v).ptpRate = s.ptpRate := rfl
@[simp] theorem ctrSet_ptpSlew (s : State) (k : Nat) (v : Word) : (ctrSet s k v).ptpSlew = s.ptpSlew := rfl
@[simp] theorem ctrSet_ptpJump (s : State) (k : Nat) (v : Word) : (ctrSet s k v).ptpJump = s.ptpJump := rfl
@[simp] theorem ctrSet_units (s : State) (k : Nat) (v : Word) : (ctrSet s k v).units = s.units := rfl
@[simp] theorem ctrSet_silicon (s : State) (k : Nat) (v : Word) : (ctrSet s k v).silicon = s.silicon := rfl
@[simp] theorem ctrSet_mapTile (s : State) (k : Nat) (v : Word) : (ctrSet s k v).mapTile = s.mapTile := rfl
@[simp] theorem ctrSet_unbacked (s : State) (k : Nat) (v : Word) : (ctrSet s k v).unbacked = s.unbacked := rfl
@[simp] theorem ctrSet_slotStates (s : State) (k : Nat) (v : Word) : (ctrSet s k v).slotStates = s.slotStates := rfl
@[simp] theorem ctrSet_remaps (s : State) (k : Nat) (v : Word) : (ctrSet s k v).remaps = s.remaps := rfl
@[simp] theorem ctrSet_devGroup (s : State) (k : Nat) (v : Word) : (ctrSet s k v).devGroup = s.devGroup := rfl
@[simp] theorem ctrSet_devUnit (s : State) (k : Nat) (v : Word) : (ctrSet s k v).devUnit = s.devUnit := rfl
@[simp] theorem ctrSet_groups (s : State) (k : Nat) (v : Word) : (ctrSet s k v).groups = s.groups := rfl
@[simp] theorem ctrSet_tiles (s : State) (k : Nat) (v : Word) : (ctrSet s k v).tiles = s.tiles := rfl
@[simp] theorem ctrSet_ops (s : State) (k : Nat) (v : Word) : (ctrSet s k v).ops = s.ops := rfl
@[simp] theorem ctrSet_engines (s : State) (k : Nat) (v : Word) : (ctrSet s k v).engines = s.engines := rfl
@[simp] theorem ctrSet_engHold (s : State) (k : Nat) (v : Word) : (ctrSet s k v).engHold = s.engHold := rfl
@[simp] theorem ctrSet_engQuiesce (s : State) (k : Nat) (v : Word) : (ctrSet s k v).engQuiesce = s.engQuiesce := rfl
@[simp] theorem ctrSet_dps (s : State) (k : Nat) (v : Word) : (ctrSet s k v).dps = s.dps := rfl
@[simp] theorem ctrSet_fronts (s : State) (k : Nat) (v : Word) : (ctrSet s k v).fronts = s.fronts := rfl
@[simp] theorem ctrSet_adds (s : State) (k : Nat) (v : Word) : (ctrSet s k v).adds = s.adds := rfl
@[simp] theorem ctrSet_hbm (s : State) (k : Nat) (v : Word) : (ctrSet s k v).hbm = s.hbm := rfl
@[simp] theorem ctrSet_hbmErr (s : State) (k : Nat) (v : Word) : (ctrSet s k v).hbmErr = s.hbmErr := rfl
@[simp] theorem ctrSet_ts (s : State) (k : Nat) (v : Word) : (ctrSet s k v).ts = s.ts := rfl
@[simp] theorem ctrSet_tsErr (s : State) (k : Nat) (v : Word) : (ctrSet s k v).tsErr = s.tsErr := rfl
@[simp] theorem ctrSet_arrayErr (s : State) (k : Nat) (v : Word) : (ctrSet s k v).arrayErr = s.arrayErr := rfl
@[simp] theorem ctrSet_pace (s : State) (k : Nat) (v : Word) : (ctrSet s k v).pace = s.pace := rfl
@[simp] theorem ctrSet_mem (s : State) (k : Nat) (v : Word) : (ctrSet s k v).mem = s.mem := rfl
@[simp] theorem ctrSet_lehr (s : State) (k : Nat) (v : Word) : (ctrSet s k v).lehr = s.lehr := rfl
@[simp] theorem ctrSet_flt (s : State) (k : Nat) (v : Word) : (ctrSet s k v).flt = s.flt := rfl
@[simp] theorem ctrSet_pwr (s : State) (k : Nat) (v : Word) : (ctrSet s k v).pwr = s.pwr := rfl
@[simp] theorem ctrSet_glob (s : State) (k : Nat) (v : Word) : (ctrSet s k v).glob = s.glob := rfl
@[simp] theorem ctrSet_xp (s : State) (k : Nat) (v : Word) : (ctrSet s k v).xp = s.xp := rfl
@[simp] theorem ctrSet_qps (s : State) (k : Nat) (v : Word) : (ctrSet s k v).qps = s.qps := rfl
@[simp] theorem ctrSet_regions (s : State) (k : Nat) (v : Word) : (ctrSet s k v).regions = s.regions := rfl
@[simp] theorem ctrSet_cul (s : State) (k : Nat) (v : Word) : (ctrSet s k v).cul = s.cul := rfl
@[simp] theorem ctrSet_host (s : State) (k : Nat) (v : Word) : (ctrSet s k v).host = s.host := rfl
@[simp] theorem ctrSet_ports (s : State) (k : Nat) (v : Word) : (ctrSet s k v).ports = s.ports := rfl
@[simp] theorem ctrSet_mgmt (s : State) (k : Nat) (v : Word) : (ctrSet s k v).mgmt = s.mgmt := rfl
@[simp] theorem ctrSet_media (s : State) (k : Nat) (v : Word) : (ctrSet s k v).media = s.media := rfl
@[simp] theorem ctrSet_sec (s : State) (k : Nat) (v : Word) : (ctrSet s k v).sec = s.sec := rfl
@[simp] theorem ctrSet_brl (s : State) (k : Nat) (v : Word) : (ctrSet s k v).brl = s.brl := rfl
@[simp] theorem ctrSet_slots (s : State) (k : Nat) (v : Word) : (ctrSet s k v).slots = s.slots := rfl
@[simp] theorem ctrSet_streams (s : State) (k : Nat) (v : Word) : (ctrSet s k v).streams = s.streams := rfl
@[simp] theorem ctrSet_recordings (s : State) (k : Nat) (v : Word) : (ctrSet s k v).recordings = s.recordings := rfl
@[simp] theorem ctrSet_engCnt (s : State) (k : Nat) (v : Word) : (ctrSet s k v).engCnt = s.engCnt := rfl
@[simp] theorem ctrSet_jobs (s : State) (k : Nat) (v : Word) : (ctrSet s k v).jobs = s.jobs := rfl
@[simp] theorem ctrSet_images (s : State) (k : Nat) (v : Word) : (ctrSet s k v).images = s.images := rfl
@[simp] theorem ctrSet_starting (s : State) (k : Nat) (v : Word) : (ctrSet s k v).starting = s.starting := rfl
@[simp] theorem ctrSet_sinks (s : State) (k : Nat) (v : Word) : (ctrSet s k v).sinks = s.sinks := rfl
@[simp] theorem ctrSet_hostMem (s : State) (k : Nat) (v : Word) : (ctrSet s k v).hostMem = s.hostMem := rfl
@[simp] theorem ctrSet_evq (s : State) (k : Nat) (v : Word) : (ctrSet s k v).evq = s.evq := rfl
@[simp] theorem ctrSet_out (s : State) (k : Nat) (v : Word) : (ctrSet s k v).out = s.out := rfl

/-! ## What tileSet leaves -/

@[simp] theorem tileSet_pending (s : State) (L : Nat) (x : Tile) : (tileSet s L x).pending = s.pending := rfl
@[simp] theorem tileSet_freeCtr (s : State) (L : Nat) (x : Tile) : (tileSet s L x).freeCtr = s.freeCtr := rfl
@[simp] theorem tileSet_nextSw (s : State) (L : Nat) (x : Tile) : (tileSet s L x).nextSw = s.nextSw := rfl
@[simp] theorem tileSet_nextOp (s : State) (L : Nat) (x : Tile) : (tileSet s L x).nextOp = s.nextOp := rfl
@[simp] theorem tileSet_nextDesc (s : State) (L : Nat) (x : Tile) : (tileSet s L x).nextDesc = s.nextDesc := rfl
@[simp] theorem tileSet_now (s : State) (L : Nat) (x : Tile) : (tileSet s L x).now = s.now := rfl
@[simp] theorem tileSet_nowFrac (s : State) (L : Nat) (x : Tile) : (tileSet s L x).nowFrac = s.nowFrac := rfl
@[simp] theorem tileSet_ptpRate (s : State) (L : Nat) (x : Tile) : (tileSet s L x).ptpRate = s.ptpRate := rfl
@[simp] theorem tileSet_ptpSlew (s : State) (L : Nat) (x : Tile) : (tileSet s L x).ptpSlew = s.ptpSlew := rfl
@[simp] theorem tileSet_ptpJump (s : State) (L : Nat) (x : Tile) : (tileSet s L x).ptpJump = s.ptpJump := rfl
@[simp] theorem tileSet_units (s : State) (L : Nat) (x : Tile) : (tileSet s L x).units = s.units := rfl
@[simp] theorem tileSet_silicon (s : State) (L : Nat) (x : Tile) : (tileSet s L x).silicon = s.silicon := rfl
@[simp] theorem tileSet_mapTile (s : State) (L : Nat) (x : Tile) : (tileSet s L x).mapTile = s.mapTile := rfl
@[simp] theorem tileSet_unbacked (s : State) (L : Nat) (x : Tile) : (tileSet s L x).unbacked = s.unbacked := rfl
@[simp] theorem tileSet_slotStates (s : State) (L : Nat) (x : Tile) : (tileSet s L x).slotStates = s.slotStates := rfl
@[simp] theorem tileSet_remaps (s : State) (L : Nat) (x : Tile) : (tileSet s L x).remaps = s.remaps := rfl
@[simp] theorem tileSet_devGroup (s : State) (L : Nat) (x : Tile) : (tileSet s L x).devGroup = s.devGroup := rfl
@[simp] theorem tileSet_devUnit (s : State) (L : Nat) (x : Tile) : (tileSet s L x).devUnit = s.devUnit := rfl
@[simp] theorem tileSet_groups (s : State) (L : Nat) (x : Tile) : (tileSet s L x).groups = s.groups := rfl
@[simp] theorem tileSet_ops (s : State) (L : Nat) (x : Tile) : (tileSet s L x).ops = s.ops := rfl
@[simp] theorem tileSet_engines (s : State) (L : Nat) (x : Tile) : (tileSet s L x).engines = s.engines := rfl
@[simp] theorem tileSet_engHold (s : State) (L : Nat) (x : Tile) : (tileSet s L x).engHold = s.engHold := rfl
@[simp] theorem tileSet_engQuiesce (s : State) (L : Nat) (x : Tile) : (tileSet s L x).engQuiesce = s.engQuiesce := rfl
@[simp] theorem tileSet_dps (s : State) (L : Nat) (x : Tile) : (tileSet s L x).dps = s.dps := rfl
@[simp] theorem tileSet_fronts (s : State) (L : Nat) (x : Tile) : (tileSet s L x).fronts = s.fronts := rfl
@[simp] theorem tileSet_ctrs (s : State) (L : Nat) (x : Tile) : (tileSet s L x).ctrs = s.ctrs := rfl
@[simp] theorem tileSet_adds (s : State) (L : Nat) (x : Tile) : (tileSet s L x).adds = s.adds := rfl
@[simp] theorem tileSet_hbm (s : State) (L : Nat) (x : Tile) : (tileSet s L x).hbm = s.hbm := rfl
@[simp] theorem tileSet_hbmErr (s : State) (L : Nat) (x : Tile) : (tileSet s L x).hbmErr = s.hbmErr := rfl
@[simp] theorem tileSet_ts (s : State) (L : Nat) (x : Tile) : (tileSet s L x).ts = s.ts := rfl
@[simp] theorem tileSet_tsErr (s : State) (L : Nat) (x : Tile) : (tileSet s L x).tsErr = s.tsErr := rfl
@[simp] theorem tileSet_arrayErr (s : State) (L : Nat) (x : Tile) : (tileSet s L x).arrayErr = s.arrayErr := rfl
@[simp] theorem tileSet_pace (s : State) (L : Nat) (x : Tile) : (tileSet s L x).pace = s.pace := rfl
@[simp] theorem tileSet_mem (s : State) (L : Nat) (x : Tile) : (tileSet s L x).mem = s.mem := rfl
@[simp] theorem tileSet_lehr (s : State) (L : Nat) (x : Tile) : (tileSet s L x).lehr = s.lehr := rfl
@[simp] theorem tileSet_flt (s : State) (L : Nat) (x : Tile) : (tileSet s L x).flt = s.flt := rfl
@[simp] theorem tileSet_pwr (s : State) (L : Nat) (x : Tile) : (tileSet s L x).pwr = s.pwr := rfl
@[simp] theorem tileSet_glob (s : State) (L : Nat) (x : Tile) : (tileSet s L x).glob = s.glob := rfl
@[simp] theorem tileSet_xp (s : State) (L : Nat) (x : Tile) : (tileSet s L x).xp = s.xp := rfl
@[simp] theorem tileSet_qps (s : State) (L : Nat) (x : Tile) : (tileSet s L x).qps = s.qps := rfl
@[simp] theorem tileSet_regions (s : State) (L : Nat) (x : Tile) : (tileSet s L x).regions = s.regions := rfl
@[simp] theorem tileSet_cul (s : State) (L : Nat) (x : Tile) : (tileSet s L x).cul = s.cul := rfl
@[simp] theorem tileSet_host (s : State) (L : Nat) (x : Tile) : (tileSet s L x).host = s.host := rfl
@[simp] theorem tileSet_ports (s : State) (L : Nat) (x : Tile) : (tileSet s L x).ports = s.ports := rfl
@[simp] theorem tileSet_mgmt (s : State) (L : Nat) (x : Tile) : (tileSet s L x).mgmt = s.mgmt := rfl
@[simp] theorem tileSet_media (s : State) (L : Nat) (x : Tile) : (tileSet s L x).media = s.media := rfl
@[simp] theorem tileSet_sec (s : State) (L : Nat) (x : Tile) : (tileSet s L x).sec = s.sec := rfl
@[simp] theorem tileSet_brl (s : State) (L : Nat) (x : Tile) : (tileSet s L x).brl = s.brl := rfl
@[simp] theorem tileSet_slots (s : State) (L : Nat) (x : Tile) : (tileSet s L x).slots = s.slots := rfl
@[simp] theorem tileSet_streams (s : State) (L : Nat) (x : Tile) : (tileSet s L x).streams = s.streams := rfl
@[simp] theorem tileSet_recordings (s : State) (L : Nat) (x : Tile) : (tileSet s L x).recordings = s.recordings := rfl
@[simp] theorem tileSet_engCnt (s : State) (L : Nat) (x : Tile) : (tileSet s L x).engCnt = s.engCnt := rfl
@[simp] theorem tileSet_jobs (s : State) (L : Nat) (x : Tile) : (tileSet s L x).jobs = s.jobs := rfl
@[simp] theorem tileSet_images (s : State) (L : Nat) (x : Tile) : (tileSet s L x).images = s.images := rfl
@[simp] theorem tileSet_starting (s : State) (L : Nat) (x : Tile) : (tileSet s L x).starting = s.starting := rfl
@[simp] theorem tileSet_sinks (s : State) (L : Nat) (x : Tile) : (tileSet s L x).sinks = s.sinks := rfl
@[simp] theorem tileSet_hostMem (s : State) (L : Nat) (x : Tile) : (tileSet s L x).hostMem = s.hostMem := rfl
@[simp] theorem tileSet_evq (s : State) (L : Nat) (x : Tile) : (tileSet s L x).evq = s.evq := rfl
@[simp] theorem tileSet_out (s : State) (L : Nat) (x : Tile) : (tileSet s L x).out = s.out := rfl

/-! ## What ctxSet leaves -/

@[simp] theorem ctxSet_pending (s : State) (L hw : Nat) (c : Ctx) : (ctxSet s L hw c).pending = s.pending := rfl
@[simp] theorem ctxSet_freeCtr (s : State) (L hw : Nat) (c : Ctx) : (ctxSet s L hw c).freeCtr = s.freeCtr := rfl
@[simp] theorem ctxSet_nextSw (s : State) (L hw : Nat) (c : Ctx) : (ctxSet s L hw c).nextSw = s.nextSw := rfl
@[simp] theorem ctxSet_nextOp (s : State) (L hw : Nat) (c : Ctx) : (ctxSet s L hw c).nextOp = s.nextOp := rfl
@[simp] theorem ctxSet_nextDesc (s : State) (L hw : Nat) (c : Ctx) : (ctxSet s L hw c).nextDesc = s.nextDesc := rfl
@[simp] theorem ctxSet_now (s : State) (L hw : Nat) (c : Ctx) : (ctxSet s L hw c).now = s.now := rfl
@[simp] theorem ctxSet_nowFrac (s : State) (L hw : Nat) (c : Ctx) : (ctxSet s L hw c).nowFrac = s.nowFrac := rfl
@[simp] theorem ctxSet_ptpRate (s : State) (L hw : Nat) (c : Ctx) : (ctxSet s L hw c).ptpRate = s.ptpRate := rfl
@[simp] theorem ctxSet_ptpSlew (s : State) (L hw : Nat) (c : Ctx) : (ctxSet s L hw c).ptpSlew = s.ptpSlew := rfl
@[simp] theorem ctxSet_ptpJump (s : State) (L hw : Nat) (c : Ctx) : (ctxSet s L hw c).ptpJump = s.ptpJump := rfl
@[simp] theorem ctxSet_units (s : State) (L hw : Nat) (c : Ctx) : (ctxSet s L hw c).units = s.units := rfl
@[simp] theorem ctxSet_silicon (s : State) (L hw : Nat) (c : Ctx) : (ctxSet s L hw c).silicon = s.silicon := rfl
@[simp] theorem ctxSet_mapTile (s : State) (L hw : Nat) (c : Ctx) : (ctxSet s L hw c).mapTile = s.mapTile := rfl
@[simp] theorem ctxSet_unbacked (s : State) (L hw : Nat) (c : Ctx) : (ctxSet s L hw c).unbacked = s.unbacked := rfl
@[simp] theorem ctxSet_slotStates (s : State) (L hw : Nat) (c : Ctx) : (ctxSet s L hw c).slotStates = s.slotStates := rfl
@[simp] theorem ctxSet_remaps (s : State) (L hw : Nat) (c : Ctx) : (ctxSet s L hw c).remaps = s.remaps := rfl
@[simp] theorem ctxSet_devGroup (s : State) (L hw : Nat) (c : Ctx) : (ctxSet s L hw c).devGroup = s.devGroup := rfl
@[simp] theorem ctxSet_devUnit (s : State) (L hw : Nat) (c : Ctx) : (ctxSet s L hw c).devUnit = s.devUnit := rfl
@[simp] theorem ctxSet_groups (s : State) (L hw : Nat) (c : Ctx) : (ctxSet s L hw c).groups = s.groups := rfl
@[simp] theorem ctxSet_ops (s : State) (L hw : Nat) (c : Ctx) : (ctxSet s L hw c).ops = s.ops := rfl
@[simp] theorem ctxSet_engines (s : State) (L hw : Nat) (c : Ctx) : (ctxSet s L hw c).engines = s.engines := rfl
@[simp] theorem ctxSet_engHold (s : State) (L hw : Nat) (c : Ctx) : (ctxSet s L hw c).engHold = s.engHold := rfl
@[simp] theorem ctxSet_engQuiesce (s : State) (L hw : Nat) (c : Ctx) : (ctxSet s L hw c).engQuiesce = s.engQuiesce := rfl
@[simp] theorem ctxSet_dps (s : State) (L hw : Nat) (c : Ctx) : (ctxSet s L hw c).dps = s.dps := rfl
@[simp] theorem ctxSet_fronts (s : State) (L hw : Nat) (c : Ctx) : (ctxSet s L hw c).fronts = s.fronts := rfl
@[simp] theorem ctxSet_ctrs (s : State) (L hw : Nat) (c : Ctx) : (ctxSet s L hw c).ctrs = s.ctrs := rfl
@[simp] theorem ctxSet_adds (s : State) (L hw : Nat) (c : Ctx) : (ctxSet s L hw c).adds = s.adds := rfl
@[simp] theorem ctxSet_hbm (s : State) (L hw : Nat) (c : Ctx) : (ctxSet s L hw c).hbm = s.hbm := rfl
@[simp] theorem ctxSet_hbmErr (s : State) (L hw : Nat) (c : Ctx) : (ctxSet s L hw c).hbmErr = s.hbmErr := rfl
@[simp] theorem ctxSet_ts (s : State) (L hw : Nat) (c : Ctx) : (ctxSet s L hw c).ts = s.ts := rfl
@[simp] theorem ctxSet_tsErr (s : State) (L hw : Nat) (c : Ctx) : (ctxSet s L hw c).tsErr = s.tsErr := rfl
@[simp] theorem ctxSet_arrayErr (s : State) (L hw : Nat) (c : Ctx) : (ctxSet s L hw c).arrayErr = s.arrayErr := rfl
@[simp] theorem ctxSet_pace (s : State) (L hw : Nat) (c : Ctx) : (ctxSet s L hw c).pace = s.pace := rfl
@[simp] theorem ctxSet_mem (s : State) (L hw : Nat) (c : Ctx) : (ctxSet s L hw c).mem = s.mem := rfl
@[simp] theorem ctxSet_lehr (s : State) (L hw : Nat) (c : Ctx) : (ctxSet s L hw c).lehr = s.lehr := rfl
@[simp] theorem ctxSet_flt (s : State) (L hw : Nat) (c : Ctx) : (ctxSet s L hw c).flt = s.flt := rfl
@[simp] theorem ctxSet_pwr (s : State) (L hw : Nat) (c : Ctx) : (ctxSet s L hw c).pwr = s.pwr := rfl
@[simp] theorem ctxSet_glob (s : State) (L hw : Nat) (c : Ctx) : (ctxSet s L hw c).glob = s.glob := rfl
@[simp] theorem ctxSet_xp (s : State) (L hw : Nat) (c : Ctx) : (ctxSet s L hw c).xp = s.xp := rfl
@[simp] theorem ctxSet_qps (s : State) (L hw : Nat) (c : Ctx) : (ctxSet s L hw c).qps = s.qps := rfl
@[simp] theorem ctxSet_regions (s : State) (L hw : Nat) (c : Ctx) : (ctxSet s L hw c).regions = s.regions := rfl
@[simp] theorem ctxSet_cul (s : State) (L hw : Nat) (c : Ctx) : (ctxSet s L hw c).cul = s.cul := rfl
@[simp] theorem ctxSet_host (s : State) (L hw : Nat) (c : Ctx) : (ctxSet s L hw c).host = s.host := rfl
@[simp] theorem ctxSet_ports (s : State) (L hw : Nat) (c : Ctx) : (ctxSet s L hw c).ports = s.ports := rfl
@[simp] theorem ctxSet_mgmt (s : State) (L hw : Nat) (c : Ctx) : (ctxSet s L hw c).mgmt = s.mgmt := rfl
@[simp] theorem ctxSet_media (s : State) (L hw : Nat) (c : Ctx) : (ctxSet s L hw c).media = s.media := rfl
@[simp] theorem ctxSet_sec (s : State) (L hw : Nat) (c : Ctx) : (ctxSet s L hw c).sec = s.sec := rfl
@[simp] theorem ctxSet_brl (s : State) (L hw : Nat) (c : Ctx) : (ctxSet s L hw c).brl = s.brl := rfl
@[simp] theorem ctxSet_slots (s : State) (L hw : Nat) (c : Ctx) : (ctxSet s L hw c).slots = s.slots := rfl
@[simp] theorem ctxSet_streams (s : State) (L hw : Nat) (c : Ctx) : (ctxSet s L hw c).streams = s.streams := rfl
@[simp] theorem ctxSet_recordings (s : State) (L hw : Nat) (c : Ctx) : (ctxSet s L hw c).recordings = s.recordings := rfl
@[simp] theorem ctxSet_engCnt (s : State) (L hw : Nat) (c : Ctx) : (ctxSet s L hw c).engCnt = s.engCnt := rfl
@[simp] theorem ctxSet_jobs (s : State) (L hw : Nat) (c : Ctx) : (ctxSet s L hw c).jobs = s.jobs := rfl
@[simp] theorem ctxSet_images (s : State) (L hw : Nat) (c : Ctx) : (ctxSet s L hw c).images = s.images := rfl
@[simp] theorem ctxSet_starting (s : State) (L hw : Nat) (c : Ctx) : (ctxSet s L hw c).starting = s.starting := rfl
@[simp] theorem ctxSet_sinks (s : State) (L hw : Nat) (c : Ctx) : (ctxSet s L hw c).sinks = s.sinks := rfl
@[simp] theorem ctxSet_hostMem (s : State) (L hw : Nat) (c : Ctx) : (ctxSet s L hw c).hostMem = s.hostMem := rfl
@[simp] theorem ctxSet_evq (s : State) (L hw : Nat) (c : Ctx) : (ctxSet s L hw c).evq = s.evq := rfl
@[simp] theorem ctxSet_out (s : State) (L hw : Nat) (c : Ctx) : (ctxSet s L hw c).out = s.out := rfl

/-! ## What poolSet leaves -/

@[simp] theorem poolSet_pending (s : State) (p : Nat) (x : Pool) : (poolSet s p x).pending = s.pending := rfl
@[simp] theorem poolSet_freeCtr (s : State) (p : Nat) (x : Pool) : (poolSet s p x).freeCtr = s.freeCtr := rfl
@[simp] theorem poolSet_nextSw (s : State) (p : Nat) (x : Pool) : (poolSet s p x).nextSw = s.nextSw := rfl
@[simp] theorem poolSet_nextOp (s : State) (p : Nat) (x : Pool) : (poolSet s p x).nextOp = s.nextOp := rfl
@[simp] theorem poolSet_nextDesc (s : State) (p : Nat) (x : Pool) : (poolSet s p x).nextDesc = s.nextDesc := rfl
@[simp] theorem poolSet_now (s : State) (p : Nat) (x : Pool) : (poolSet s p x).now = s.now := rfl
@[simp] theorem poolSet_nowFrac (s : State) (p : Nat) (x : Pool) : (poolSet s p x).nowFrac = s.nowFrac := rfl
@[simp] theorem poolSet_ptpRate (s : State) (p : Nat) (x : Pool) : (poolSet s p x).ptpRate = s.ptpRate := rfl
@[simp] theorem poolSet_ptpSlew (s : State) (p : Nat) (x : Pool) : (poolSet s p x).ptpSlew = s.ptpSlew := rfl
@[simp] theorem poolSet_ptpJump (s : State) (p : Nat) (x : Pool) : (poolSet s p x).ptpJump = s.ptpJump := rfl
@[simp] theorem poolSet_units (s : State) (p : Nat) (x : Pool) : (poolSet s p x).units = s.units := rfl
@[simp] theorem poolSet_silicon (s : State) (p : Nat) (x : Pool) : (poolSet s p x).silicon = s.silicon := rfl
@[simp] theorem poolSet_mapTile (s : State) (p : Nat) (x : Pool) : (poolSet s p x).mapTile = s.mapTile := rfl
@[simp] theorem poolSet_unbacked (s : State) (p : Nat) (x : Pool) : (poolSet s p x).unbacked = s.unbacked := rfl
@[simp] theorem poolSet_slotStates (s : State) (p : Nat) (x : Pool) : (poolSet s p x).slotStates = s.slotStates := rfl
@[simp] theorem poolSet_remaps (s : State) (p : Nat) (x : Pool) : (poolSet s p x).remaps = s.remaps := rfl
@[simp] theorem poolSet_devGroup (s : State) (p : Nat) (x : Pool) : (poolSet s p x).devGroup = s.devGroup := rfl
@[simp] theorem poolSet_devUnit (s : State) (p : Nat) (x : Pool) : (poolSet s p x).devUnit = s.devUnit := rfl
@[simp] theorem poolSet_groups (s : State) (p : Nat) (x : Pool) : (poolSet s p x).groups = s.groups := rfl
@[simp] theorem poolSet_tiles (s : State) (p : Nat) (x : Pool) : (poolSet s p x).tiles = s.tiles := rfl
@[simp] theorem poolSet_ops (s : State) (p : Nat) (x : Pool) : (poolSet s p x).ops = s.ops := rfl
@[simp] theorem poolSet_engines (s : State) (p : Nat) (x : Pool) : (poolSet s p x).engines = s.engines := rfl
@[simp] theorem poolSet_engHold (s : State) (p : Nat) (x : Pool) : (poolSet s p x).engHold = s.engHold := rfl
@[simp] theorem poolSet_engQuiesce (s : State) (p : Nat) (x : Pool) : (poolSet s p x).engQuiesce = s.engQuiesce := rfl
@[simp] theorem poolSet_dps (s : State) (p : Nat) (x : Pool) : (poolSet s p x).dps = s.dps := rfl
@[simp] theorem poolSet_fronts (s : State) (p : Nat) (x : Pool) : (poolSet s p x).fronts = s.fronts := rfl
@[simp] theorem poolSet_ctrs (s : State) (p : Nat) (x : Pool) : (poolSet s p x).ctrs = s.ctrs := rfl
@[simp] theorem poolSet_adds (s : State) (p : Nat) (x : Pool) : (poolSet s p x).adds = s.adds := rfl
@[simp] theorem poolSet_hbm (s : State) (p : Nat) (x : Pool) : (poolSet s p x).hbm = s.hbm := rfl
@[simp] theorem poolSet_hbmErr (s : State) (p : Nat) (x : Pool) : (poolSet s p x).hbmErr = s.hbmErr := rfl
@[simp] theorem poolSet_ts (s : State) (p : Nat) (x : Pool) : (poolSet s p x).ts = s.ts := rfl
@[simp] theorem poolSet_tsErr (s : State) (p : Nat) (x : Pool) : (poolSet s p x).tsErr = s.tsErr := rfl
@[simp] theorem poolSet_arrayErr (s : State) (p : Nat) (x : Pool) : (poolSet s p x).arrayErr = s.arrayErr := rfl
@[simp] theorem poolSet_pace (s : State) (p : Nat) (x : Pool) : (poolSet s p x).pace = s.pace := rfl
@[simp] theorem poolSet_mem (s : State) (p : Nat) (x : Pool) : (poolSet s p x).mem = s.mem := rfl
@[simp] theorem poolSet_lehr (s : State) (p : Nat) (x : Pool) : (poolSet s p x).lehr = s.lehr := rfl
@[simp] theorem poolSet_flt (s : State) (p : Nat) (x : Pool) : (poolSet s p x).flt = s.flt := rfl
@[simp] theorem poolSet_pwr (s : State) (p : Nat) (x : Pool) : (poolSet s p x).pwr = s.pwr := rfl
@[simp] theorem poolSet_glob (s : State) (p : Nat) (x : Pool) : (poolSet s p x).glob = s.glob := rfl
@[simp] theorem poolSet_xp (s : State) (p : Nat) (x : Pool) : (poolSet s p x).xp = s.xp := rfl
@[simp] theorem poolSet_qps (s : State) (p : Nat) (x : Pool) : (poolSet s p x).qps = s.qps := rfl
@[simp] theorem poolSet_regions (s : State) (p : Nat) (x : Pool) : (poolSet s p x).regions = s.regions := rfl
@[simp] theorem poolSet_host (s : State) (p : Nat) (x : Pool) : (poolSet s p x).host = s.host := rfl
@[simp] theorem poolSet_ports (s : State) (p : Nat) (x : Pool) : (poolSet s p x).ports = s.ports := rfl
@[simp] theorem poolSet_mgmt (s : State) (p : Nat) (x : Pool) : (poolSet s p x).mgmt = s.mgmt := rfl
@[simp] theorem poolSet_media (s : State) (p : Nat) (x : Pool) : (poolSet s p x).media = s.media := rfl
@[simp] theorem poolSet_sec (s : State) (p : Nat) (x : Pool) : (poolSet s p x).sec = s.sec := rfl
@[simp] theorem poolSet_brl (s : State) (p : Nat) (x : Pool) : (poolSet s p x).brl = s.brl := rfl
@[simp] theorem poolSet_slots (s : State) (p : Nat) (x : Pool) : (poolSet s p x).slots = s.slots := rfl
@[simp] theorem poolSet_streams (s : State) (p : Nat) (x : Pool) : (poolSet s p x).streams = s.streams := rfl
@[simp] theorem poolSet_recordings (s : State) (p : Nat) (x : Pool) : (poolSet s p x).recordings = s.recordings := rfl
@[simp] theorem poolSet_engCnt (s : State) (p : Nat) (x : Pool) : (poolSet s p x).engCnt = s.engCnt := rfl
@[simp] theorem poolSet_jobs (s : State) (p : Nat) (x : Pool) : (poolSet s p x).jobs = s.jobs := rfl
@[simp] theorem poolSet_images (s : State) (p : Nat) (x : Pool) : (poolSet s p x).images = s.images := rfl
@[simp] theorem poolSet_starting (s : State) (p : Nat) (x : Pool) : (poolSet s p x).starting = s.starting := rfl
@[simp] theorem poolSet_sinks (s : State) (p : Nat) (x : Pool) : (poolSet s p x).sinks = s.sinks := rfl
@[simp] theorem poolSet_hostMem (s : State) (p : Nat) (x : Pool) : (poolSet s p x).hostMem = s.hostMem := rfl
@[simp] theorem poolSet_evq (s : State) (p : Nat) (x : Pool) : (poolSet s p x).evq = s.evq := rfl
@[simp] theorem poolSet_out (s : State) (p : Nat) (x : Pool) : (poolSet s p x).out = s.out := rfl

/-! ## What qpSet leaves -/

@[simp] theorem qpSet_pending (s : State) (n : Nat) (q : Qp) : (qpSet s n q).pending = s.pending := rfl
@[simp] theorem qpSet_freeCtr (s : State) (n : Nat) (q : Qp) : (qpSet s n q).freeCtr = s.freeCtr := rfl
@[simp] theorem qpSet_nextSw (s : State) (n : Nat) (q : Qp) : (qpSet s n q).nextSw = s.nextSw := rfl
@[simp] theorem qpSet_nextOp (s : State) (n : Nat) (q : Qp) : (qpSet s n q).nextOp = s.nextOp := rfl
@[simp] theorem qpSet_nextDesc (s : State) (n : Nat) (q : Qp) : (qpSet s n q).nextDesc = s.nextDesc := rfl
@[simp] theorem qpSet_now (s : State) (n : Nat) (q : Qp) : (qpSet s n q).now = s.now := rfl
@[simp] theorem qpSet_nowFrac (s : State) (n : Nat) (q : Qp) : (qpSet s n q).nowFrac = s.nowFrac := rfl
@[simp] theorem qpSet_ptpRate (s : State) (n : Nat) (q : Qp) : (qpSet s n q).ptpRate = s.ptpRate := rfl
@[simp] theorem qpSet_ptpSlew (s : State) (n : Nat) (q : Qp) : (qpSet s n q).ptpSlew = s.ptpSlew := rfl
@[simp] theorem qpSet_ptpJump (s : State) (n : Nat) (q : Qp) : (qpSet s n q).ptpJump = s.ptpJump := rfl
@[simp] theorem qpSet_units (s : State) (n : Nat) (q : Qp) : (qpSet s n q).units = s.units := rfl
@[simp] theorem qpSet_silicon (s : State) (n : Nat) (q : Qp) : (qpSet s n q).silicon = s.silicon := rfl
@[simp] theorem qpSet_mapTile (s : State) (n : Nat) (q : Qp) : (qpSet s n q).mapTile = s.mapTile := rfl
@[simp] theorem qpSet_unbacked (s : State) (n : Nat) (q : Qp) : (qpSet s n q).unbacked = s.unbacked := rfl
@[simp] theorem qpSet_slotStates (s : State) (n : Nat) (q : Qp) : (qpSet s n q).slotStates = s.slotStates := rfl
@[simp] theorem qpSet_remaps (s : State) (n : Nat) (q : Qp) : (qpSet s n q).remaps = s.remaps := rfl
@[simp] theorem qpSet_devGroup (s : State) (n : Nat) (q : Qp) : (qpSet s n q).devGroup = s.devGroup := rfl
@[simp] theorem qpSet_devUnit (s : State) (n : Nat) (q : Qp) : (qpSet s n q).devUnit = s.devUnit := rfl
@[simp] theorem qpSet_groups (s : State) (n : Nat) (q : Qp) : (qpSet s n q).groups = s.groups := rfl
@[simp] theorem qpSet_tiles (s : State) (n : Nat) (q : Qp) : (qpSet s n q).tiles = s.tiles := rfl
@[simp] theorem qpSet_ops (s : State) (n : Nat) (q : Qp) : (qpSet s n q).ops = s.ops := rfl
@[simp] theorem qpSet_engines (s : State) (n : Nat) (q : Qp) : (qpSet s n q).engines = s.engines := rfl
@[simp] theorem qpSet_engHold (s : State) (n : Nat) (q : Qp) : (qpSet s n q).engHold = s.engHold := rfl
@[simp] theorem qpSet_engQuiesce (s : State) (n : Nat) (q : Qp) : (qpSet s n q).engQuiesce = s.engQuiesce := rfl
@[simp] theorem qpSet_dps (s : State) (n : Nat) (q : Qp) : (qpSet s n q).dps = s.dps := rfl
@[simp] theorem qpSet_fronts (s : State) (n : Nat) (q : Qp) : (qpSet s n q).fronts = s.fronts := rfl
@[simp] theorem qpSet_ctrs (s : State) (n : Nat) (q : Qp) : (qpSet s n q).ctrs = s.ctrs := rfl
@[simp] theorem qpSet_adds (s : State) (n : Nat) (q : Qp) : (qpSet s n q).adds = s.adds := rfl
@[simp] theorem qpSet_hbm (s : State) (n : Nat) (q : Qp) : (qpSet s n q).hbm = s.hbm := rfl
@[simp] theorem qpSet_hbmErr (s : State) (n : Nat) (q : Qp) : (qpSet s n q).hbmErr = s.hbmErr := rfl
@[simp] theorem qpSet_ts (s : State) (n : Nat) (q : Qp) : (qpSet s n q).ts = s.ts := rfl
@[simp] theorem qpSet_tsErr (s : State) (n : Nat) (q : Qp) : (qpSet s n q).tsErr = s.tsErr := rfl
@[simp] theorem qpSet_arrayErr (s : State) (n : Nat) (q : Qp) : (qpSet s n q).arrayErr = s.arrayErr := rfl
@[simp] theorem qpSet_pace (s : State) (n : Nat) (q : Qp) : (qpSet s n q).pace = s.pace := rfl
@[simp] theorem qpSet_mem (s : State) (n : Nat) (q : Qp) : (qpSet s n q).mem = s.mem := rfl
@[simp] theorem qpSet_lehr (s : State) (n : Nat) (q : Qp) : (qpSet s n q).lehr = s.lehr := rfl
@[simp] theorem qpSet_flt (s : State) (n : Nat) (q : Qp) : (qpSet s n q).flt = s.flt := rfl
@[simp] theorem qpSet_pwr (s : State) (n : Nat) (q : Qp) : (qpSet s n q).pwr = s.pwr := rfl
@[simp] theorem qpSet_glob (s : State) (n : Nat) (q : Qp) : (qpSet s n q).glob = s.glob := rfl
@[simp] theorem qpSet_xp (s : State) (n : Nat) (q : Qp) : (qpSet s n q).xp = s.xp := rfl
@[simp] theorem qpSet_regions (s : State) (n : Nat) (q : Qp) : (qpSet s n q).regions = s.regions := rfl
@[simp] theorem qpSet_cul (s : State) (n : Nat) (q : Qp) : (qpSet s n q).cul = s.cul := rfl
@[simp] theorem qpSet_host (s : State) (n : Nat) (q : Qp) : (qpSet s n q).host = s.host := rfl
@[simp] theorem qpSet_ports (s : State) (n : Nat) (q : Qp) : (qpSet s n q).ports = s.ports := rfl
@[simp] theorem qpSet_mgmt (s : State) (n : Nat) (q : Qp) : (qpSet s n q).mgmt = s.mgmt := rfl
@[simp] theorem qpSet_media (s : State) (n : Nat) (q : Qp) : (qpSet s n q).media = s.media := rfl
@[simp] theorem qpSet_sec (s : State) (n : Nat) (q : Qp) : (qpSet s n q).sec = s.sec := rfl
@[simp] theorem qpSet_brl (s : State) (n : Nat) (q : Qp) : (qpSet s n q).brl = s.brl := rfl
@[simp] theorem qpSet_slots (s : State) (n : Nat) (q : Qp) : (qpSet s n q).slots = s.slots := rfl
@[simp] theorem qpSet_streams (s : State) (n : Nat) (q : Qp) : (qpSet s n q).streams = s.streams := rfl
@[simp] theorem qpSet_recordings (s : State) (n : Nat) (q : Qp) : (qpSet s n q).recordings = s.recordings := rfl
@[simp] theorem qpSet_engCnt (s : State) (n : Nat) (q : Qp) : (qpSet s n q).engCnt = s.engCnt := rfl
@[simp] theorem qpSet_jobs (s : State) (n : Nat) (q : Qp) : (qpSet s n q).jobs = s.jobs := rfl
@[simp] theorem qpSet_images (s : State) (n : Nat) (q : Qp) : (qpSet s n q).images = s.images := rfl
@[simp] theorem qpSet_starting (s : State) (n : Nat) (q : Qp) : (qpSet s n q).starting = s.starting := rfl
@[simp] theorem qpSet_sinks (s : State) (n : Nat) (q : Qp) : (qpSet s n q).sinks = s.sinks := rfl
@[simp] theorem qpSet_hostMem (s : State) (n : Nat) (q : Qp) : (qpSet s n q).hostMem = s.hostMem := rfl
@[simp] theorem qpSet_evq (s : State) (n : Nat) (q : Qp) : (qpSet s n q).evq = s.evq := rfl
@[simp] theorem qpSet_out (s : State) (n : Nat) (q : Qp) : (qpSet s n q).out = s.out := rfl

end Sys2Proof.Machine
end

