-- ==== Sys2Proof/Tests/Slice0.lean ====
section
/-! SUPPORT. The modeller's own tests: ill-formed commands that the checks refuse, values worked out from the manual, and for every statement with hypotheses a state and operands that meet them. -/

namespace Sys2Proof.Machine

set_option maxRecDepth 20000
set_option autoImplicit false
set_option Elab.async false

/-! ## Small states -/

/-- A device out of reset whose first 1 GiB of virtual addresses maps onto the start of HBM: root table at 0, level 1 at 0x10000. -/
def tDev : State :=
  { units := [(0, { st := .ready }), (1, { st := .ready }), (8, { st := .ready }), (64, { st := .running })]
    hbm := [(0, 3), (2, 1), (0x10000, 0x3D)]
    pwr := { asserted := false, stage := 8 }
    mem := { fillDone := true, stackOk := 0xFFFFFF } }
/-- A job's context at address 0x20000 with a window of one 4 KiB page. -/
def tCtx : Ctx := { sw := 1, pc := 0x20000, pkr0 := 3, profile := 0xFFF, tsSize := 1 }
/-- Hardware context 0 of tile 0 holds the context. -/
def tRun (c : Ctx) : State := { tDev with tiles := [(0, { hws := [(0, c)] })] }
def tIs : Issue := { tile := 0, hw := 0, pre := none }

/-- A strict job 7 with one FIXED key slot whose key is held. -/
def tJob : Job :=
  { num := 7, strict := true, paced := false, mult := 16, sliceLog2 := 20, consumers := 1, vcore := 750, period := 1000, thermal := 0,
    crcPolicy := 0, seeds := [], devices := 1, self := 0, agreeQpn := 0, agreeKey := 0, agreeMs := 100, programs := [], inputs := [],
    keys := [{ purpose := 3, seed := 1, mode := 1, epoch := 5 }], budgets := List.replicate 16 10, placement := [], units := [64], ctrs := [(0, 16)],
    quotaCtx := 1, quotaQp := 64, quotaEng := 64, paramVa := 0, fpB := zeros 32, fpT := zeros 32, t0 := 0,
    held := [{ slot := 0, epoch := 5, key := zeros 16 }] }

/-- A divisor that is not zero, a FN beyond the table, and a bit of a byte swap. -/
theorem witness_AluFunctions : (5 : Word) ≠ 0 ∧ (0x1C : Nat) ≤ 0x1C ∧ (63 : Nat) < 64 := by decide


/-! ## Voxica instructions: every hypothesis of the statements is met somewhere -/

theorem witness_ScalarResults :
    Issues (tRun tCtx) tIs { scalarDeps 1 2 3 with cls := aluClass 0x14 } (tIs.pre.isNone && (aluFn 0x14 0 0).isSome && ((0x14 : Nat) < 0x18 || (3 : BitVec 6) = 0)) = true ∧
    Issues (tRun tCtx) tIs { scalarDeps 1 2 0 with cls := aluClass 0x1B } (tIs.pre.isNone && (aluFn 0x1B 0 0).isSome && ((0x1B : Nat) < 0x18 || (0 : BitVec 6) = 0)) = true ∧
    Issues (tRun tCtx) tIs (immDeps 1 2) true = true ∧
    Issues (tRun tCtx) { tIs with pre := some 0x3FFFFFF } (immDeps 0 63) true = true ∧
    Issues (tRun tCtx) tIs (immDeps 1 2) (tIs.pre.isNone && (0 : BitVec 6) = 0) = true ∧
    Issues (tRun tCtx) tIs { slot := 0, reads := [], writes := [rG 1] } true = true ∧
    Issues (tRun tCtx) tIs { slot := 0, reads := [rG 1], writes := [rG 1] } (tIs.pre.isNone && (0x3FFFF : BitVec 20).toNat < 2 ^ 18) = true := by decide

/-- LD of 8 bytes at 4,088 and of 1 byte at 4,095, ST of 8 at 0, VLD and VST of 128 at 3,968: the ends of a 4 KiB window. -/
theorem witness_LoadsAndStores :
    let c := { tCtx with g := [(2, 4088)] }
    let s := tRun c
    let f : MFmt := { rt := 1, rs1 := 2, sz := 3, sx := 0, off := 0 }
    let h : MFmt := { f with rs1 := 0, sz := 0 }
    (Issues s tIs { slot := 0, reads := [rG 2, rWin], writes := [rG 1], cls := 4 } true = true ∧
      ((4088 : Nat) : Int) = (gv (fetchedCtx s tIs) f.rs1).toNat + (offM none f.off).toInt ∧ 4088 + 8 ≤ (fetchedCtx s tIs).tsSize.toNat * 4096 ∧ 4088 % 8 = 0 ∧
      (winRead (fetchedState s tIs) 0 (fetchedCtx s tIs) 4088 8).1 = stOk) ∧
    (((4095 : Nat) : Int) = (gv (fetchedCtx s tIs) f.rs1).toNat + (offM none 7).toInt ∧ 4095 + 1 ≤ (fetchedCtx s tIs).tsSize.toNat * 4096 ∧
      (winRead (fetchedState s tIs) 0 (fetchedCtx s tIs) 4095 1).1 = stOk) ∧
    (Issues s tIs { slot := 0, reads := [rG 0, rG 1], writes := [rWin], cls := 4 } (h.sx = 0) = true ∧
      ((0 : Nat) : Int) = (gv (fetchedCtx s tIs) h.rs1).toNat + (offM none h.off).toInt) ∧
    (((3968 : Nat) : Int) = (gv (fetchedCtx s tIs) h.rs1).toNat + 128 * (offM none 31).toInt ∧ 3968 + 128 ≤ (fetchedCtx s tIs).tsSize.toNat * 4096 ∧ 3968 % 128 = 0 ∧
      (winRead (fetchedState s tIs) 0 (fetchedCtx s tIs) 3968 128).1 = stOk ∧
      Issues s tIs { slot := 1, reads := [rG 0, rWin], writes := [rV 1], cls := 4, prof := 2 } (vmemEnc { h with off := 31 }) = true ∧
      Issues s tIs { slot := 1, reads := [rG 0, rV 1], writes := [rWin], cls := 4, prof := 2 } (vmemEnc { h with off := 31 }) = true) := by decide

/-- Offset -1 and a last byte at 4,096 breach the window; offset 4 is off the alignment of 8 bytes. -/
theorem witness_WindowBreaches :
    let c := { tCtx with g := [(2, 4096)] }
    let s := tRun c
    let x := fun (r : BitVec 6) (o : BitVec 11) => ((gv (fetchedCtx s tIs) r).toNat : Int) + (offM none o).toInt
    Issues s tIs { slot := 0, reads := [rG 2, rWin], writes := [rG 1], cls := 4 } true = true ∧
    Issues s tIs { slot := 0, reads := [rG 0, rG 1], writes := [rWin], cls := 4 } ((0 : BitVec 1) = 0) = true ∧
    x 0 0x7FF < 0 ∧ ((fetchedCtx s tIs).tsSize.toNat * 4096 : Int) < x 2 0x7FD + 4 ∧
    0 ≤ x 0 4 ∧ x 0 4 + 8 ≤ ((fetchedCtx s tIs).tsSize.toNat * 4096 : Int) ∧ x 0 4 % 8 ≠ 0 := by decide

theorem witness_BranchesAndJumps :
    let s := tRun { tCtx with g := [(2, 0x20001)] }
    Issues s tIs { slot := 0, reads := [rG 2, rG 3], writes := [], ends := true } true = true ∧
    Issues s { tIs with pre := some 0x2000000 } { slot := 0, reads := [], writes := [rG 1], ends := true } true = true ∧
    Issues s tIs { slot := 0, reads := [rG 2], writes := [rG 2], ends := true } true = true ∧
    (gv (fetchedCtx s tIs) 2 + BitVec.signExtend 64 (0x3FFF : BitVec 14)).toNat % 4 = 0 ∧
    (gv (fetchedCtx s tIs) 2 + BitVec.signExtend 64 (0 : BitVec 14)).toNat % 4 ≠ 0 := by decide

/-- SRR of TTB (11) and SELF (3) at job level and of SEQTAG's high half; SRW of TSWIN and RERR at runtime level; the other system instructions. -/
theorem witness_SpecialRegisters :
    let s := tRun tCtx
    let r := tRun { tCtx with priv := 1, g := [(1, 0x02000101), (2, 0x02000100)] }
    let enc := fun (i : Issue) (f : IFmt) => i.pre.isNone && f.rs1 = 0 && f.imm.toNat < 64 && f.imm.toNat % 32 < 23 && (!f.imm.getLsbD 5 || f.imm.toNat % 32 = 0)
    let wenc := fun (i : Issue) (f : IFmt) => i.pre.isNone && f.rd = 0 && f.imm.toNat < 32 && f.imm.toNat % 32 < 23 && f.imm.toNat % 32 ≠ 0
    (Issues s tIs { slot := 0, reads := [], writes := [rG 1] } (enc tIs { rd := 1, rs1 := 0, imm := 11 }) = true ∧ rtOnly 11 = true ∧ (fetchedCtx s tIs).priv = 0) ∧
    (enc tIs { rd := 1, rs1 := 0, imm := 32 } = true ∧ rtOnly 0 = false) ∧ enc tIs { rd := 1, rs1 := 0, imm := 22 } = true ∧
    (Issues r tIs { slot := 0, reads := [rG 1], writes := [], ends := true } (wenc tIs { rd := 0, rs1 := 1, imm := 14 }) = true ∧ (fetchedCtx r tIs).priv ≠ 0 ∧
      768 < (gv (fetchedCtx r tIs) 1).toNat % 1024 + (gv (fetchedCtx r tIs) 1).toNat / 2 ^ 16 % 1024 ∧
      (gv (fetchedCtx r tIs) 2).toNat % 1024 + (gv (fetchedCtx r tIs) 2).toNat / 2 ^ 16 % 1024 ≤ 768) ∧
    (Issues s tIs { slot := 0, reads := [rG 1], writes := [], ends := true } (wenc tIs { rd := 0, rs1 := 1, imm := 19 }) = true) ∧
    Issues r tIs sysDeps (sysEnc tIs { rd := 0, rs1 := 0, rs2 := 0 }) = true ∧ Issues s tIs sysDeps (sysEnc tIs { rd := 0, rs1 := 0, rs2 := 0 }) = true ∧
    (let t := { s with ops := [(1, { owner := 1, tile := 0, job := 0, priv := 0, tag := 0, kind := .rput })] }
     (fetchedCtx t tIs).rerrStatus = 0 ∧ ((fetchedState t tIs).ops.any fun o => o.2.owner == (fetchedCtx t tIs).sw && !o.2.done) = true) ∧
    (let t := tRun { tCtx with rerrStatus := 0x0102 }
     Issues t tIs sysDeps (sysEnc tIs { rd := 0, rs1 := 0, rs2 := 0 }) = true ∧ (fetchedCtx t tIs).rerrStatus ≠ 0) ∧
    Issues r tIs { slot := 0, reads := [rG 1, rG 2], writes := [], cls := 7, ends := true } (tIs.pre.isNone && (0 : BitVec 6) = 0) = true := by decide

theorem witness_TrapsAndFreezes :
    Issues (tRun tCtx) tIs sysDeps (sysEnc tIs { rd := 0, rs1 := 0, rs2 := 0 }) = true ∧
    Issues (tRun tCtx) tIs { sysDeps with prof := 2048 } (sysEnc tIs { rd := 0, rs1 := 0, rs2 := 0 }) = true ∧ tCtx.priv = 0 := by decide


/-- VALU on 64-bit elements; VFP FMA of F32; compares of integers, of floating point and of predicates; VCVT to code 10; VRED of no active element. -/
theorem witness_VectorElements :
    let c := { tCtx with p := [(1, 0xFF00)] }
    let s := tRun c
    let f : VFmt := { vd := 1, vs1 := 2, vs2 := 3, pm := 1, z := 1, fn := 0x3F }
    let d := fun (f : VFmt) => ({ slot := 1, prof := 2, cls := 1, writes := [rP f.vd.toNat]
                                  reads := if 12 ≤ vFn f then [rP f.vs1.toNat, rP f.vs2.toNat] else [rV f.vs1.toNat, rV f.vs2.toNat, rP f.pm.toNat, rP f.vd.toNat] } : Deps)
    Issues s tIs (vDeps f true) tIs.pre.isNone = true ∧
    ((vFmt (0x19 / 16)).isSome = true ∧ (let f := { f with fn := 0x19 }
      Issues s tIs (vDeps f true) (tIs.pre.isNone && (vFmt (vWc f)).isSome && vFn f ≤ 9 && (!(vFn f = 6 || vFn f = 7) || f.vs2 = 0)) = true)) ∧
    (let f := { f with fn := 0x35 }
     vFn f ≤ 5 ∧ Issues s tIs (d f) (tIs.pre.isNone && f.vd.toNat < 16) = true) ∧
    (let f := { f with fn := 0x18 }
     6 ≤ vFn f ∧ vFn f ≤ 8 ∧ (vFmt (vWc f)).isSome = true ∧ Issues s tIs (d f) (tIs.pre.isNone && f.vd.toNat < 16) = true) ∧
    (let f := { f with fn := 0x0F, pm := 0, z := 0 }
     12 ≤ vFn f ∧ Issues s tIs (d f) (tIs.pre.isNone && f.vd.toNat < 16 && vWc f = 0 && f.pm = 0 && f.z = 0 && f.vs1.toNat < 16 && f.vs2.toNat < 16) = true) ∧
    (let f := { f with fn := 10, vs2 := 10 }
     Issues s tIs (vDeps f false) (tIs.pre.isNone && f.fn.toNat < 16 && f.vs2.toNat < 16 && f.fn.toNat % 16 ≤ 10 && f.vs2.toNat % 16 ≤ 10) = true) ∧
    (let f := { f with fn := 0x17, vs2 := 0, pm := 2 }
     Issues s tIs (vDeps f false) (tIs.pre.isNone && vFn f ≤ 7 && f.vs2 = 0 && (!(decide (5 ≤ vFn f)) || (vFmt (vWc f)).isSome)) = true ∧
     vredFn (vFn f) (vWc f) (getP (fetchedCtx s tIs) f.pm.toNat) 0 = none) := by decide

/-- A function of each group of VPERM; VSCG from a held key at the last draw index, past it, and from an empty slot. -/
theorem witness_PermutesAndDraws :
    let s := { tRun { tCtx with job := 7, g := [(4, 0xFFFFFFFFFFF8), (5, 0xFFFFFFFFFFF9)] } with jobs := [tJob] }
    (∀ n < 7, (let f : RFmt := { rd := 1, rs1 := 2, rs2 := if n = 0 ∨ n = 4 then 0 else 3, fn := BitVec.ofNat 8 (4 * n) }
      Issues s tIs (vpermDeps f) (tIs.pre.isNone && vpermEnc f) = true ∧ f.fn.toNat / 4 = n)) ∧
    (let f : SFmt := { vd := 1, rs1 := 2, rs2 := 4, key := 0, rsvd := 0 }
     Issues s tIs { slot := 1, reads := [rG f.rs1, rG f.rs2], writes := [rV f.vd.toNat], cls := 1, prof := 2 } (tIs.pre.isNone && f.rsvd = 0) = true ∧
     keySlot (fetchedState s tIs) 7 0 = some (tJob, { purpose := 3, seed := 1, mode := 1, epoch := 5 }) ∧ (gv (fetchedCtx s tIs) 4).toNat + 7 < 2 ^ 48 ∧
     (keyHeld (fetchedState s tIs) tJob { purpose := 3, seed := 1, mode := 1, epoch := 5 } 0 (fetchedCtx s tIs).batch).isSome = true) ∧
    2 ^ 48 ≤ (gv (fetchedCtx s tIs) 5).toNat + 7 ∧ keySlot (fetchedState s tIs) 7 1 = none := by decide

/-- Bounds of the element widths: the greatest values of 8 and 64 bits. -/
theorem witness_IntegerVectorFunctions : (255 : Nat) < 2 ^ 8 ∧ (2 ^ 64 - 1 : Nat) < 2 ^ 64 := by decide

/-- K = 32 with unscaled 8-bit integers, with MX scales, and with a wide format, on a window of 64 KiB; with and without a defect of the array. -/
theorem witness_TensorMultiply :
    let c := { tCtx with tsSize := 16, g := [(1, 0), (2, 4096), (3, 32), (4, 8192), (5, 8320)] }
    let s := tRun c
    let go := fun (s : State) (i : Issue) (f : TFmt) =>
      let c := fetchedCtx s i
      let a := f.fmt.toNat
      let b := tmmaFmtB i f
      let m := tmmaMode i
      let k := (gv c f.rk).toNat
      let sb := if m = 0 then 0 else k / (if m = 1 then 32 else 16)
      let ops := [(gv c f.ra, 32 * (k * fmtBits a / 8)), (gv c f.rb, 32 * (k * fmtBits b / 8))]
      let scs := if m = 0 then [] else [(gv c (tmmaScale i 6), 32 * sb), (gv c (tmmaScale i 12), 32 * sb)]
      let r := winReads (fetchedState s i) i.tile.val c ((ops ++ scs).map fun x => (x.1.toNat, x.2))
      let d : Deps := { slot := 2, cls := 2, size := tmmaSize a b m (gv (curCtx s i) f.rk).toNat
                        reads := [rG f.ra, rG f.rb, rG f.rk, rWin] ++ (if m = 0 then [] else [rG (tmmaScale i 6), rG (tmmaScale i 12)]) ++
                          (if f.clr = 1 then [] else [rA f.ad.toNat])
                        writes := [rA f.ad.toNat], prof := (fmtProf a) ||| (fmtProf b) ||| (if m = 0 then 0 else 64) }
      Issues s i d (tmmaEnc i f) = true ∧ k % 32 = 0 ∧ 32 ≤ k ∧ k ≤ 16384 ∧ ((ops ++ scs).all fun x => inWindow c x.1 x.2) = true ∧
      (gv c f.ra).toNat % 128 = 0 ∧ (gv c f.rb).toNat % 128 = 0 ∧ r.1 = stOk
    let f : TFmt := { ad := 0, fmt := 1, ra := 1, rb := 2, rk := 3, clr := 1 }
    (go s tIs f ∧ fmtNarrow 1 = true ∧ arrayHits (fetchedState s tIs) 0 = []) ∧
    go s { tIs with pre := some (BitVec.ofNat 26 (15 + 16 + 64 * 4 + 4096 * 5)) } { f with fmt := 5, clr := 0 } ∧
    (go s tIs { f with fmt := 10 } ∧ fmtNarrow 10 = false) ∧
    (let t := { s with arrayErr := [(0, 1023, 3)] }
     go t tIs f ∧ (∃ e ∈ arrayHits (fetchedState t tIs) 0, e.1 < 1024 ∧ e.2 % 7 ≠ 0)) ∧
    (let t := { s with arrayErr := [(0, 5, 7), (0, 1024, 1)] }
     go t tIs f ∧ (∀ e ∈ arrayHits (fetchedState t tIs) 0, e.1 < 1024 → e.2 % 7 = 0) ∧ (∃ e ∈ arrayHits (fetchedState t tIs) 0, e.1 = 1024)) := by decide

/-- Two rows of the greatest length, 16,384 elements. -/
theorem witness_ExactIntegerProducts :
    (List.replicate 16384 255).length = (List.replicate 16384 127).length ∧ (List.replicate 16384 255).length ≤ 16384 ∧ (1 : Nat) ≤ 1 := by
  simp only [List.length_replicate]; decide

/-- Each accumulator move at the end of its window. -/
theorem witness_AccumulatorMoves :
    let c := { tCtx with job := 7, tsSize := 4, g := [(1, 4096), (2, 12288)] }
    let s := { tRun c with jobs := [tJob] }
    let f : R4 := { rd := 7, rs1 := 1, rs2 := 0, hi := 0 }
    let h : R4 := { f with rs1 := 2, hi := 10 }
    let k : Issue := { tIs with pre := some 0x300 }
    (Issues s tIs { slot := 2, cls := 2, prof := 0, profAny := 60, reads := [], writes := [rA 7] } (tIs.pre.isNone && f.rd.toNat < 8 && ({ f with rs1 := 0 } : R4).rs1 = 0 && f.rs2 = 0 && f.hi = 0) = true) ∧
    (Issues s tIs { taccDeps f true with size := 5 } (tIs.pre.isNone && f.rd.toNat < 8 && f.rs2 = 0 && f.hi = 0) = true ∧
      (gv (fetchedCtx s tIs) 1).toNat + 12288 ≤ (fetchedCtx s tIs).tsSize.toNat * 4096 ∧ (gv (fetchedCtx s tIs) 1).toNat % 128 = 0 ∧
      (winRead (fetchedState s tIs) 0 (fetchedCtx s tIs) 4096 12288).1 = stOk) ∧
    Issues s tIs { taccDeps f false with size := 5 } (tIs.pre.isNone && f.rd.toNat < 8 && f.rs2 = 0 && f.hi = 0) = true ∧
    (Issues s tIs (rndDeps h) (tIs.pre.isNone && h.rd.toNat < 8 && h.rs2 = 0 && h.hi.toNat ≤ 10) = true ∧
      (gv (fetchedCtx s tIs) 2).toNat + 128 * fmtBits 10 ≤ (fetchedCtx s tIs).tsSize.toNat * 4096 ∧ (gv (fetchedCtx s tIs) 2).toNat % 128 = 0) ∧
    (Issues s k { rndDeps h with prof := rndProf h.hi.toNat ||| 1024, reads := [rG h.rs1, rG h.rs2, rG 3, rA 7] }
        ((0x300 : BitVec 26).toNat < 2 ^ 14 && h.rd.toNat < 8 && h.hi.toNat ≤ 10 && h.hi ≠ 0) = true ∧
      (gv (fetchedCtx s k) 3).toNat + 1023 < 2 ^ 48 ∧ keySlot (fetchedState s k) 7 0 = some (tJob, { purpose := 3, seed := 1, mode := 1, epoch := 5 }) ∧
      (keyHeld (fetchedState s k) tJob { purpose := 3, seed := 1, mode := 1, epoch := 5 } 0 (fetchedCtx s k).batch).isSome = true) := by decide

/-- XDOT of one pair a lane, XRND of lanes 7 and 8, XEXP of zero lanes, XIMP of a malformed record and of the records XEXP stores. -/
theorem witness_ExactDotProducts :
    let c := { tCtx with g := [(1, 0), (2, 2048), (3, 1), (4, 7), (5, 8)] }
    let s := tRun c
    let t := { s with ts := memOfBytes 0 ((List.range 8).flatMap fun l => laneRecord l (laneOf 0)) }
    (let f : XFmt := { xd := 3, fmt := 2, ra := 1, rb := 2, rn := 3, rsvd := 0 }
     let w := 4
     let d : Deps := { slot := 3, cls := 3, size := ceilDiv (8 * (gv (curCtx s tIs) f.rn).toNat) 184, prof := 128
                       reads := [rG f.ra, rG f.rb, rG f.rn, rX f.xd.toNat, rWin], writes := [rX f.xd.toNat] }
     Issues s tIs d (tIs.pre.isNone && f.fmt ≠ 3 && f.rsvd = 0) = true ∧ 1 ≤ (gv (fetchedCtx s tIs) 3).toNat ∧
     inWindow (fetchedCtx s tIs) (gv (fetchedCtx s tIs) 1) (8 * 1 * w) = true ∧ inWindow (fetchedCtx s tIs) (gv (fetchedCtx s tIs) 2) (8 * 1 * w) = true ∧
     (winReads (fetchedState s tIs) 0 (fetchedCtx s tIs) [(0, 8 * 1 * w), (2048, 8 * 1 * w)]).1 = stOk) ∧
    Issues s tIs { slot := 3, cls := 3, prof := 128, reads := [], writes := [rX 3] } true = true ∧
    (Issues s tIs { slot := 3, cls := 3, size := 2, prof := 128, reads := [rX 3, rG 4], writes := [rG 1] } (tIs.pre.isNone && (3 : Nat) < 4 && fmtWide 10) = true ∧
      (gv (fetchedCtx s tIs) 4).toNat < 8 ∧ 8 ≤ (gv (fetchedCtx s tIs) 5).toNat) ∧
    (Issues s tIs { slot := 3, cls := 3, size := 2, prof := 128, reads := [rX 3, rG 1], writes := [rG 6, rWin] } true = true ∧
      0 + ((List.range 8).flatMap fun l => laneRecord l (laneOf (getX (fetchedCtx s tIs) 3 l))).length ≤ (fetchedCtx s tIs).tsSize.toNat * 4096) ∧
    (Issues s tIs { slot := 3, cls := 3, size := 2, prof := 128, reads := [rX 3, rG 1, rWin], writes := [rX 3] } true = true ∧
      (recordsRead 0 (fetchedCtx s tIs) 8 0 (fetchedState s tIs) 0).1 = stOk ∧ (recordsRead 0 (fetchedCtx s tIs) 8 0 (fetchedState s tIs) 0).2.1 = none) ∧
    (Issues t tIs { slot := 3, cls := 3, size := 2, prof := 128, reads := [rX 3, rG 1, rWin], writes := [rX 3] } true = true ∧
      (recordsRead 0 (fetchedCtx t tIs) 8 0 (fetchedState t tIs) 0).1 = stOk ∧ (recordsRead 0 (fetchedCtx t tIs) 8 0 (fetchedState t tIs) 0).2.1.isSome = true) := by decide


/-- At job level and with a run queue, before a slice boundary; at runtime level. -/
theorem witness_RetirementOfAnInstruction :
    (tRun tCtx).flt.lsState.toNat < 2 ∧ tCtx.priv = 0 ∧ ({ tCtx with priv := 1 } : Ctx).priv ≠ 0 := by decide

/-- An untraced tile, and a traced one whose trace table entry reads. -/
theorem witness_RetirementFrame :
    (tRun tCtx).flt.lsState.toNat < 2 ∧ (tRun tCtx).hbmErr = [] ∧ traceOn (tRun tCtx) 0 = false ∧
    (let s := { tRun tCtx with flt := { trcBase := 1 } }
     (hbmPeek s (traceEntry s 0) 64).isSome = true) := by decide

theorem witness_StoresInMemory :
    let s := { tDev with hbmErr := [(3, [(8, 1)])], tsErr := [(5, 1)] }
    memWf s.hbm = true ∧ (s.hbmErr.map (·.1)).Nodup ∧ (hbmWrite s 191 2 [(0, 1)]).1 = stOk ∧
    memWf s.ts = true ∧ (s.tsErr.map (·.1)).Nodup ∧ (tsWrite s 0 39 2 [(0, 1)]).1 = stOk := by decide

/-- Job 7 runs; queue pair 5 is its own and has room, queue pair 6 has none. -/
def tNet (c : Ctx) : State :=
  { tRun c with
    jobs := [{ tJob with strict := false, units := [64, 1, 8] }]
    qps := [(5, { state := .ready, job := 7, sqBase := 0x40000 }), (6, { state := .ready, job := 7, sqLog2 := 0, sq := [{}] })] }
/-- Registers of the transfers: 1 a remote route to queue pair 5, 2 to queue pair 6, 3 the length, 4 an HBM address, 5 counter 15, 6 an unaligned one. -/
def tCtxNet : Ctx :=
  { tCtx with job := 7, g := [(1, 0x8000000500000001), (2, 0x8000000600000001), (3, 4096), (4, 0x30000), (5, 15), (6, 0x30004)] }

/-- RPUT over the local route from the window and over remote routes with room and without; RPUTI with a counter; RGET of 4,096 bytes into the window. -/
theorem witness_RemoteTransfersIssue :
    let s := tNet tCtxNet
    let go := fun (i : Issue) (f : RFmt) (put imm : Bool) =>
      let c := fetchedCtx s i
      let s1 := fetchedState s i
      let L := i.tile.val
      let d := remoteDeps i [rG f.rd, rG f.rs1, rG f.rs2] []
      let r := gv c f.rs1
      let n := (prefG c i 0).toNat
      let t := if routeRemote r then ([], [], c, s1) else reach s1 c (gv c f.rd) n (if put then .write else .read) put
      let l := localOperand t.2.2.2 t.2.2.1 L (fWin f) (gv c f.rs2) n (if put then .read else .write)
      Issues s i d (remoteEnc i f 3 true (if imm then 0x3FC0000 else 0x3FFF000)) = true ∧
      routeExc s1 c r = [] ∧ 1 ≤ n ∧ n ≤ 16777216 ∧ rcExc s1 c i f = [] ∧ (routeRemote r = true → (gv c f.rd).toNat < 2 ^ 40) ∧ t.1 = [] ∧ l.1 = []
    let i : Issue := { tIs with pre := some 3 }
    go i { rd := 4, rs1 := 0, rs2 := 0, fn := 1 } true false ∧ go i { rd := 4, rs1 := 1, rs2 := 4, fn := 0 } true false ∧
    go i { rd := 4, rs1 := 2, rs2 := 4, fn := 0 } true false ∧ go { tIs with pre := some (3 + 64 * 5 + 4096 * 4) } { rd := 4, rs1 := 1, rs2 := 0, fn := 3 } true true ∧
    go i { rd := 4, rs1 := 0, rs2 := 0, fn := 1 } false false ∧ go i { rd := 4, rs1 := 1, rs2 := 4, fn := 0 } false false ∧
    routeFull (fetchedState s i) 0x8000000600000001 = true ∧ routeFull (fetchedState s i) 0x8000000500000001 = false := by decide

/-- RFADD and RCAS of an aligned and of an unaligned location, on the local and on remote routes; SADD of counter 15. -/
theorem witness_RemoteAtomicsIssue :
    let s := tNet tCtxNet
    let go := fun (i : Issue) (f : RFmt) (cas : Bool) =>
      let c := fetchedCtx s i
      let s1 := fetchedState s i
      let d := remoteDeps i [rG f.rs1, rG f.rs2] [rG f.rd]
      let a := gv c f.rs1
      let r := gv c f.rs2
      let t := if routeRemote r then ([], [], c, s1) else reach s1 c a 8 .read false
      let u := if routeRemote r then ([], [], c, s1) else reach t.2.2.2 t.2.2.1 a 8 .write cas
      Issues s i d (remoteEnc i f 2 true (if cas then 0x3FC0000 else 0x3FFF000)) = true ∧
      routeExc s1 c r = [] ∧ rcExc s1 c i f = [] ∧ (routeRemote r = true → a.toNat < 2 ^ 40) ∧ t.1 = [] ∧ u.1 = []
    let i : Issue := { tIs with pre := some 3 }
    go i { rd := 7, rs1 := 4, rs2 := 0, fn := 0 } false ∧ go i { rd := 7, rs1 := 4, rs2 := 0, fn := 0 } true ∧
    go i { rd := 7, rs1 := 6, rs2 := 0, fn := 0 } false ∧ go i { rd := 7, rs1 := 4, rs2 := 1, fn := 0 } true ∧ go i { rd := 7, rs1 := 4, rs2 := 2, fn := 0 } true ∧
    (gv (fetchedCtx s i) 4).toNat % 8 = 0 ∧ (gv (fetchedCtx s i) 6).toNat % 8 ≠ 0 ∧
    (Issues s tIs (remoteDeps tIs [rG 5, rG 0, rG 4] []) (remoteEnc tIs { rd := 5, rs1 := 0, rs2 := 4, fn := 0 } 2 false 0x3FFF03F) = true ∧
      routeExc (fetchedState s tIs) (fetchedCtx s tIs) 0 = [] ∧ ctrExc (fetchedState s tIs) (fetchedCtx s tIs) 15 = [] ∧ routeFull (fetchedState s tIs) 0 = false) := by decide

/-- Routes of both forms; a local one whose first piece lies in HBM, in the own tile's store, in a counter and in another tile's store. -/
theorem witness_OperationRecorded :
    routeRemote 0x8000000500000001 = true ∧ routeRemote 0 = false ∧ resolve tDev 0x30000 = .hbm 0x30000 ∧ resolve tDev 0x080000000008 = .tile 0 8 ∧
    resolve tDev 0x0F0000000040 = .ctr 1 0 ∧ resolve tDev 0x080000400000 = .tile 1 0 := by decide

/-- A work request of 64 bytes at 0x30000 and a descriptor header of engine 3 at 0x30040. -/
def tPosts (c : Ctx) : State :=
  { tNet c with hbm := (tNet c).hbm ++ [(0x30000, 6), (0x30004, 8), (0x30010, 64), (0x30040, 3), (0x30044, 64)] }

/-- SWAIT on counter 15 with a threshold reached, with one not yet reached, and under STRICT; QPOST to a queue pair with room and to a full one; EPOST of a Marver descriptor to its cluster's handle. -/
theorem witness_WaitsAndPosts :
    let s := tPosts { tCtx with job := 7, g := [(1, 15), (2, 1), (3, 5), (4, 0x30000), (5, 6), (6, 0x0C0000008000), (7, 0x30040)] }
    let c := fetchedCtx s tIs
    let s1 := fetchedState s tIs
    (Issues s tIs { slot := 4, reads := [rG 1, rG 2], writes := [], ends := true } true = true ∧ ctrExc s1 c 15 = [] ∧ c.rerrStatus = 0 ∧
      waitOver s1 15 (ctxTag c) 0 7 (ctxSrc 0 0) = true ∧ waitOver s1 15 (ctxTag c) 1 7 (ctxSrc 0 0) = false ∧ strictJob s1 7 = false) ∧
    (Issues s tIs { slot := 4, reads := [rG 3, rG 4], writes := [], ends := true, prof := 256 } true = true ∧ (qpGet s1 5).job = c.job ∧ (qpGet s1 6).job = c.job ∧
      (operandRead s1 c 0x30000 64).1 = [] ∧ wrOk (operandRead s1 c 0x30000 64).2.1 = true ∧ sqFull (qpGet (operandRead s1 c 0x30000 64).2.2.2 6) = true ∧
      sqFull (qpGet (operandRead s1 c 0x30000 64).2.2.2 5) = false) ∧
    (let m := operandRead s1 c 0x30040 24
     Issues s tIs { slot := 4, reads := [rG 6, rG 7], writes := [], ends := true, prof := 512 } true = true ∧ m.1 = [] ∧ headerOk s1 c m.2.1 = true ∧
     handleUcb s1 0x0C0000008000 = some 8 ∧ handleExc s1 c 0x0C0000008000 (engineKind 3) = [] ∧ runtimeOp 3 (subNat m.2.1 1 1) = false ∧
     (engQueue m.2.2.2 (engineCode 3 8)).length < 256 ∧
     256 ≤ (engQueue ({ m.2.2.2 with engines := [(128, List.replicate 256 { va := 0, engine := 3, op := 1, length := 64, ccEn := false, cc := 0, statusAddr := 0, tag := 0, ttb := 0, pkr0 := 0, pkr1 := 0, priv := 0, job := 7, tile := 0, sw := 1 })] } : State) (engineCode 3 8)).length) := by decide


/-- Pool 2 of job 7 with two buffers, the first of them live with one reference (generation 1, quota entry 4,095); a quota entry with room. -/
def tPool (c : Ctx) : State :=
  { tNet c with
    cul := { pools := [(2, { job := 7, en := true, ready := true, count := 2, sbase := 0x50, addr := 0x600, fresh := 1 }), (3, { job := 7, en := true, ready := true, count := 1, sbase := 0x51, fresh := 1 })]
             quotaBase := 0x100 }
    hbm := (tNet c).hbm ++ [(0x50000, 1), (0x50002, 1), (0x50006, 0xFF), (0x50007, 0x8F), (0x5000A, 1), (0x100210, 5), (0x100218, 5)] }

/-- CALLOC that gets a buffer, one from an empty pool, one whose quota entry does not read; CREF and CFREE of a live and of a stale handle; a strict source with another below its tag. -/
theorem witness_CulletInstructions :
    let s := tPool { tCtx with job := 7, g := [(1, 2), (2, 0x010800000000), (3, 0x020800000000), (4, 65535), (5, 1), (6, 3)] }
    let c := fetchedCtx s tIs
    let s1 := fetchedState s tIs
    let q := quotaCtxOf s1 c.job c.priv
    Issues s tIs (culDeps 7 1 0) (tIs.pre.isNone && (0 : BitVec 6) = 0) = true ∧ poolUnbound s1 c 2 = false ∧ q = 1 ∧
    (alloc s1 2 q).1 = .got 0x010800000001 ∧ (alloc s1 3 q).1 = .short ∧ strictJob s1 7 = false ∧
    (alloc { s1 with hbmErr := [(0x100210 / 64, [(8, 1), (9, 1), (10, 1), (11, 1), (12, 1), (13, 1)])] } 2 q).1 = .bad stUncSector ∧
    Issues s tIs (culDeps 0 2 4) true = true ∧ poolUnbound s1 c (hPool 0x010800000000) = false ∧
    (handleRef s1 0x010800000000 1).1 = .ok ∧ (handleRelease s1 0x010800000000).1 = .ok ∧ (handleRelease s1 0x020800000000).1 = .stale ∧
    (handleRef s1 0x010800000000 65535).1 = .stale ∧
    (let t := { s with jobs := [tJob], fronts := [(ctxSrc 1 0, { job := 7, tag := 0 })] }
     strictJob (fetchedState t tIs) 7 = true ∧ frontsAboveBut (fetchedState t tIs) 7 (ctxSrc 0 0) (ctxTag (fetchedCtx t tIs)) = false ∧
     frontsAboveBut (fetchedState { s with jobs := [tJob] } tIs) 7 (ctxSrc 0 0) (ctxTag (fetchedCtx t tIs)) = true) := by decide

/-- EXIT with and without an operation outstanding; SETTAG that rises by one item, that does not rise, and with reserved bits; LAUNCH of the area at 0x40000 on an idle and on a full tile; TRMARK. -/
theorem witness_ContextControl :
    let s := tNet { tCtx with job := 7, batch := 5, g := [(1, 15), (2, 5), (3, 0x0000000100000000), (4, 0x0000000100000001), (5, 0)] }
    let c := fetchedCtx s tIs
    let s1 := fetchedState s tIs
    let r := { tNet { tCtx with priv := 1, g := [(1, 0x0C0000040000), (2, 0x40000)] } with hbm := (tNet tCtx).hbm ++ [(0x40440, 1)] }
    (Issues s tIs (ctxDeps { rd := 0, rs1 := 1, rs2 := 0, hi := 1 }) (ctxEnc tIs { rd := 0, rs1 := 1, rs2 := 0, hi := 1 } true) = true ∧ c.rerrStatus = 0 ∧
      ctrExc s1 c (gv c 1).toNat = [] ∧ opsOf s1 c.sw = [] ∧
      opsOf ({ s1 with ops := [(1, { owner := 1, tile := 0, job := 7, priv := 0, tag := 0, kind := .rput })] } : State) c.sw ≠ []) ∧
    (Issues s tIs { ctxDeps { rd := 0, rs1 := 2, rs2 := 3, hi := 0 } with settag := true } (ctxEnc tIs { rd := 0, rs1 := 2, rs2 := 3, hi := 0 } false) = true ∧
      (gv c 4).toNat % 2 ^ 32 ≠ 0 ∧ (gv c 3).toNat % 2 ^ 32 = 0 ∧ c.batch = gv c 2 ∧ c.phase = (gv c 3 >>> 56).setWidth 8 ∧
      c.item.toNat < ((gv c 3 >>> 32).setWidth 24 : BitVec 24).toNat ∧ c.item = (gv c 5 >>> 32).setWidth 24) ∧
    (let c := fetchedCtx r tIs
     let a := reach (fetchedState r tIs) c (gv c 2) 0x20000 .read false
     let w := reach a.2.2.2 a.2.2.1 (gv c 2) 0x20000 .write true
     let x := areaRead w.2.2.2 ((w.2.1.map (·.1)).getD 0 0) ((w.2.1.map (·.1)).getD 1 0)
     Issues r tIs (ctxDeps { rd := 0, rs1 := 1, rs2 := 2, hi := 0 }) (ctxEnc tIs { rd := 0, rs1 := 1, rs2 := 2, hi := 0 } false) = true ∧ c.priv ≠ 0 ∧
     handleExc (fetchedState r tIs) c (gv c 1) 0 = [] ∧ (gv c 2).toNat % 0x20000 = 0 ∧ a.1 = [] ∧ w.1 = [] ∧ x.1 = stOk ∧
     memNat x.2.1 (0x300 + 16 * 20) 16 = 1 ∧ savedCount (tileGet x.2.2 0) < 256 ∧
     256 ≤ savedCount { (tileGet x.2.2 0) with runq := List.replicate 256 { sw := 9, areaLo := 0, areaHi := 0 } }) ∧
    Issues s tIs { slot := 4, reads := [rG 1], writes := [], prof := 2048,
                   mark := some (leBytes 8 (gv (curCtx s tIs) 1).toNat ++ leBytes 8 (ctxTag (curCtx s tIs)).toNat) } true = true := by decide +kernel


/-! ## Operations, waits, paces, decision points, counters and pools -/

/-- An atomic of job 7 on HBM address 0x30008. -/
def tOp : RemoteOp := { owner := 1, tile := 0, job := 7, priv := 0, tag := 0x50, kind := .rfadd, pieces := [(0x30008, 8)], len := 8, rd := 3, rc := some 15, val := 2 }

/-- An operation outside STRICT, one under STRICT with a decision point, and one on a remote route with its work request. -/
theorem witness_OperationsAtTheirTarget :
    let s := { tDev with jobs := [{ tJob with strict := false }], ops := [(1, tOp)] }
    let t := { s with jobs := [tJob] }
    let o := { tOp with qpn := some 5 }
    let u := { tDev with ops := [(1, o)], qps := [(5, { state := .ready, sq := [{ op := some 1 }] })] }
    (kvGet s.ops 1 = some tOp ∧ tOp.done = false ∧ tOp.arrived = false ∧ tOp.result = none ∧ tOp.qpn = none ∧ tOp.rsp = none ∧
      saddWaits s 1 tOp = false ∧ opDp s tOp = none ∧ saddWaits t 1 tOp = false ∧ opDp t tOp = some (2 ^ 48 + 0x30008)) ∧
    (tDev.hbmErr = [] ∧ jobOf tDev tOp.job = none ∧ resolve tDev 0x30008 = .hbm 0x30008 ∧ 0x30008 % 8 = 0 ∧ tOp.pieces = [(0x30008, 8)]) ∧
    (stRightsDenied ≠ 0 ∧ kvGet u.ops 1 = some o ∧ o.qpn = some 5 ∧ ((qpGet u 5).sq.find? fun w => w.op = some 1) = some { op := some 1 }) := by decide

/-- The owner is resident with RERR clear and latched; the counter named, held under PACED and not named. -/
theorem witness_CompletionOfAnOperation :
    let c := { tCtx with job := 7, pend := [(3, 1)] }
    let s := { tRun c with ops := [(1, tOp)], jobs := [tJob] }
    s.tilesWf = true ∧ kvGet s.ops 1 = some tOp ∧ tOp.done = false ∧ ctxFind s tOp.owner = some (0, 0) ∧ ctxGet s 0 0 = some c ∧ c.sw = tOp.owner ∧
    tOp.rc = some 15 ∧ tOp.release = none ∧ ({ tOp with release := some 9 } : RemoteOp).release ≠ none ∧ strictJob s 7 = true ∧
    strictJob { s with jobs := [] } 7 = false ∧ c.rerrStatus = 0 ∧ ({ c with rerrStatus := 0x0101 } : Ctx).rerrStatus ≠ 0 := by decide

/-- SWAIT over, not over and with RERR latched; RFENCE and EXIT; a saved waiter; a slice boundary with and without a queue. -/
theorem witness_WaitsAndSlices :
    let c := { tCtx with wait := .swait 15 0 }
    let s := tRun c
    let v : Saved := { sw := 2, areaLo := 0x100000, areaHi := 0x110000, wait := .swait 15 0 }
    let t := { tDev with tiles := [(0, { hws := [(0, { tCtx with sliceDue := true, areaLo := 0x120000, areaHi := 0x130000 })], waiting := [v], runq := [{ v with sw := 3, wait := .idle }] })] }
    (ctxFind s 1 = some (0, 0) ∧ ctxGet s 0 0 = some c ∧ issuing s = true ∧ tileIssues s 0 = true ∧ c.rerrStatus = 0 ∧
      waitOver s 15 (ctxTag c) 0 c.job (ctxSrc 0 0) = true ∧ waitOver s 15 (ctxTag c) 1 c.job (ctxSrc 0 0) = false ∧ (opsOf s 1).isEmpty = true) ∧
    (ctxFind t 2 = none ∧ (t.tiles.findSome? fun t => (t.2.waiting.find? fun x => x.sw = 2).map fun x => (t.1, x)) = some (0, v) ∧
      (waitKind v.wait && savedWaitOver t v) = true) ∧
    ((tileGet t 0).runq = [{ v with sw := 3, wait := .idle }] ∧ (tileGet s 0).runq = []) := by decide

/-- The areas of the slice boundary write and read. -/
theorem witness_SliceBoundary :
    let c := { tCtx with sliceDue := true, areaLo := 0x120000, areaHi := 0x130000 }
    let s0 := ctxSet (tRun c) 0 0 { c with sliceDue := false }
    let w := areaWrite s0 c.areaLo c.areaHi (ctxImage s0 0 { c with sliceDue := false })
    c.pend = [] ∧ w.1 = stOk ∧ (areaRead w.2 0x100000 0x110000).1 = stOk ∧
    (areaWrite s0 0x0FFFFFFF0000 c.areaHi (ctxImage s0 0 { c with sliceDue := false })).1 ≠ stOk := by decide +kernel

/-- A PACED context in hardware context 7 issues after a group of the last tick; holds at 64 entries; a plain result released and one late. -/
theorem witness_PacedIssueAndRelease :
    let s := { tDev with
      pace := { tick := 10, running := true }
      jobs := [{ tJob with paced := true }]
      tiles := [(0, { hws := [(7, { tCtx with job := 7 })], group := some { hw := 0, tick := 9 }, hold := [{ release := 10, cls := 0, batch := 0 }, { release := 9, cls := 0, batch := 0 }] })] }
    ((∀ hw < 8, groupCan tDev 0 hw = false) ∧ (tileGet s 0).hold.length < 64 ∧ ((tileGet s 0).group.all fun g => g.tick ≠ 10) = true ∧
      groupCan s 0 ((0 + 1 + 6) % 8) = true ∧ (∀ j < 6, groupCan s 0 ((0 + 1 + j) % 8) = false)) ∧
    ((holdGet s 64).all fun h => h.fin.isNone && h.op.isNone) = true ∧
    ((holdGet s 64)[1]? = some { release := 9, cls := 0, batch := 0 } ∧ (9 : Nat) < s.pace.tick.toNat ∧ jobOf s (pacedNum s) = some { tJob with paced := true } ∧
      tJob.slipSeen = false) := by decide

/-- Two requests of one tag at the decision point of an address; a ring's request that is not ready; a stalled one; the frontiers of a context and of an engine. -/
theorem witness_DecisionPointsInTagOrder :
    let r : DpReq := { src := 3, tag := 0x100, job := 7, strict := true, since := 0, op := some 1 }
    let dp := 2 ^ 48 + 0x30008
    let s := { tDev with jobs := [tJob], now := 100000001, ops := [(1, { tOp with arrived := true })], dps := [(dp, [{ r with src := 9, op := some 2 }, r])], fronts := [(20, { job := 7, tag := 0x101 })] }
    let t := { s with fronts := [(20, { job := 7, tag := 0x100 })] }
    let d : Desc := { va := 0, engine := 3, op := 1, length := 64, ccEn := false, cc := 0, statusAddr := 0, tag := 9, ttb := 0, pkr0 := 0, pkr1 := 0, priv := 0, job := 7, tile := 0, sw := 1 }
    dpLeast ((kvGet s.dps dp).getD []) = some r ∧ dpLeast (((kvGet s.dps dp).getD []).filter fun r => r.op.isSome || !r.entry.isEmpty) = some r ∧
    (dpReady s dp ((kvGet s.dps dp).getD []) r).1 = true ∧ (dpReady t dp ((kvGet t.dps dp).getD []) r).1 = false ∧
    t.pace.stallLimit ≠ 0 ∧ t.pace.stallLimit.toNat * 1000 < (t.now - r.since).toNat ∧ (lagging t 7 3 0x100).isSome = true ∧ ¬ (2 ^ 18 ≤ dp ∧ dp < 2 ^ 18 + 64) ∧
    ctxGet (tRun { tCtx with job := 7 }) (0 / 8) (0 % 8) = some { tCtx with job := 7 } ∧ ctxGet tDev (6143 / 8) (6143 % 8) = none ∧
    (let u := { tDev with engines := [(128, [d])] }
     d ∈ engQueue u (8320 - 8192) ∧ kvGet u.fronts 8320 = none ∧ engQueue u (8321 - 8192) = []) := by decide

/-- A full and an almost full store of adds; the least add merges, and does not while a frontier is not above it; a FIXED slot's key is derived for its epoch. -/
theorem witness_CountersAndKeys :
    let a : PendAdd := { ctr := 131071, tag := 5, amt := 1, job := 7 }
    let s := { tDev with jobs := [{ tJob with held := [] }], adds := [{ a with tag := 6 }, a], fronts := [(2, { job := 7, tag := 6 })] }
    strictJob s 7 = true ∧ s.adds.length < 65536 ∧ strictJob s 8 = false ∧ a ∈ s.adds ∧ a.ctr = (131071 : BitVec 17).toNat ∧
    (∀ b ∈ s.adds, b.ctr = (131071 : BitVec 17).toNat → b ≠ a → a.tag.toNat < b.tag.toNat) ∧ addMerges s a = true ∧
    addMerges { s with fronts := [(2, { job := 7, tag := 5 })] } a = false ∧
    keySlot s 7 0 = some ({ tJob with held := [] }, { purpose := 3, seed := 1, mode := 1, epoch := 5 }) ∧ ({ tJob with held := [] } : Job).held = [] := by decide

theorem witness_CountersFull : 65536 ≤ (List.replicate 65536 ({ ctr := 0, tag := 0, amt := 1, job := 7 } : PendAdd)).length := by
  simp only [List.length_replicate]; decide

/-- A pool that fails a check and one that passes; idle and with a buffer out; a waiting context and a waiting descriptor that can be served. -/
theorem witness_CulletPools :
    let x : Pool := { count := 2, sbase := 0x50, addr := 0x600 }
    let w : PoolWaiter := { tag := 0, job := 7, quota := 1, src := 0, strict := false, sw := some 1 }
    let d : PoolWaiter := { w with sw := none, desc := some 4 }
    let s := { tDev with cul := { pools := [(63, x)], quotaBase := 0x100 } }
    let t := fun (w : PoolWaiter) => ({ s with hbm := tDev.hbm ++ [(0x1003F8, 5)], cul := { s.cul with pools := [(63, { x with en := true, ready := true, waiters := [w] })] } } : State)
    poolOk s (poolGet s 62) = false ∧ (poolGet s 62).en = false ∧ poolOk s (poolGet s 63) = true ∧ s.hbmErr = [] ∧ inHbm s (stateAddr x 0) (8 * x.count.toNat) = true ∧
    inHbm s (quotaAddr s 0 63 + 4) 4 = true ∧ inHbm s (quotaAddr s 4095 63 + 4) 4 = true ∧
    poolUsed { x with en := true } = 0 ∧ poolUsed { x with en := true, fresh := 1 } ≠ 0 ∧ poolFree (poolGet s 0) = 0 ∧
    (poolFree (poolGet (t w) 63) ≠ 0 ∧ waiterPick (t w) 63 (poolGet (t w) 63).waiters = some w ∧ waiterReady (t w) 63 w = true ∧
      (alloc (t w) 63 w.quota).1 = .got (mkHandle 63 0 0)) ∧
    waitTile (t w) 1 = none ∧
    (let v : Saved := { savedOf { tCtx with job := 7, sw := 1, wait := .pool 63 5 true } with sw := 1, wait := .pool 63 5 true }
     let u := { t w with tiles := [(3, { tileGet tDev 3 with waiting := [v] })] }
     waiterPick u 63 (poolGet u 63).waiters = some w ∧ waiterReady u 63 w = true ∧ (alloc u 63 w.quota).1 = .got (mkHandle 63 0 0) ∧ waitTile u 1 = some 3 ∧
     (let s2 := poolUpd (alloc u 63 w.quota).2 63 fun x => { x with waiters := x.waiters.filter fun y => y ≠ w }
      (tileGet (serveCtx s2 1 (mkHandle 63 0 0)) 3).waiting.length < (tileGet u 3).waiting.length)) ∧
    (waiterPick (t d) 63 (poolGet (t d) 63).waiters = some d ∧ waiterReady (t d) 63 d = true ∧ (alloc (t d) 63 d.quota).1 = .got (mkHandle 63 0 0)) := by decide


/-- Every quota entry of a pool lies in HBM. -/
theorem witness_QuotaEntries : ∀ q < 4096, inHbm tDev (0x1001FC + 512 * q) 4 = true := by
  intro q hq
  have h : min 4 (4096 - (0x1001FC + 512 * q) % 4096) = 4 := by omega
  have h1 : 0x1001FC + 512 * q < 2199023255552 := by omega
  have h2 : 0x1001FC + 512 * q < Config.hbmSize := by unfold Config.hbmSize; omega
  have h3 : tDev.media.mapSize = 0 := rfl
  have h4 : tDev.media.mapBase = 0 := rfl
  have h5 : hbmKind tDev (0x1001FC + 512 * q) = .hbm (0x1001FC + 512 * q) := by
    unfold hbmKind
    rw [h3, h4, if_neg (by omega)]
  have h6 : resolve tDev (0x1001FC + 512 * q) = .hbm (0x1001FC + 512 * q) := by
    unfold resolve
    rw [if_pos h1, if_pos h2, h5]
  simp only [inHbm, chunksOf, chunks, h]
  simp [h6]


/-! ## Engines -/

/-- A descriptor of an engine at virtual address 0x30000. -/
def tDesc (engine op len : Nat) : Desc :=
  { va := 0x30000, engine := engine, op := op, length := len, ccEn := false, cc := 0, statusAddr := 0x31000, tag := 9, ttb := 0, pkr0 := 3, pkr1 := 0,
    priv := 0, job := 7, tile := 0, sw := 1 }
/-- It is queued at the engine instance. -/
def tEng (code : Nat) (d : Desc) : State := { tDev with units := kvSet tDev.units (engUnit code) { st := .ready }, engines := [(code, [d])] }

theorem witness_PicksCodec (op : Nat) (h : op ∈ [1, 2, 3, 4, 5, 6, 0x10, 0x11, 0x12, 0x13, 0x14, 0x15, 0x16, 0x18, 0x19]) :
    Picks (tEng 47 (tDesc 1 op 128)) 1 47 op 128 (tDesc 1 op 128) (zeros 128) (tEng 47 (tDesc 1 op 128)) ∧
    codecHeld (tEng 47 (tDesc 1 op 128)) 47 op = false ∧ streamBehind (tEng 47 (tDesc 1 op 128)) 47 op = false := by
  simp only [List.mem_cons, List.not_mem_nil, or_false] at h
  rcases h with rfl | rfl | rfl | rfl | rfl | rfl | rfl | rfl | rfl | rfl | rfl | rfl | rfl | rfl | rfl <;>
    exact ⟨⟨by decide, by decide, by decide, by decide, by decide, by rfl⟩, by decide, by decide⟩

theorem witness_PicksText (op : Nat) (h : op ∈ [1, 2, 3, 4, 5, 6, 7, 8]) :
    engIs 2 111 = true ∧ engStarts (tEng 111 (tDesc 2 op 128)) 111 = true ∧
    ((engQueue (tEng 111 (tDesc 2 op 128)) 111).all fun x => engListed x.engine x.op) = true ∧
    (∃ u, (u = 1 ∨ u = 2) ∧ textHead (tEng 111 (tDesc 2 op 128)) 111 u = some (tDesc 2 op 128) ∧ (u = 2 → textHead (tEng 111 (tDesc 2 op 128)) 111 1 = none)) ∧
    (engBytes (tDesc 2 op 128) 0x30000 128 : EM Bytes).run (tEng 111 (tDesc 2 op 128)) = (.ok (zeros 128), tEng 111 (tDesc 2 op 128)) := by
  simp only [List.mem_cons, List.not_mem_nil, or_false] at h
  rcases h with rfl | rfl | rfl | rfl | rfl | rfl | rfl | rfl <;>
    first
      | exact ⟨by decide, by decide, by decide, ⟨1, by decide, by decide, by decide⟩, by rfl⟩
      | exact ⟨by decide, by decide, by decide, ⟨2, by decide, by decide, by decide⟩, by rfl⟩

theorem witness_PicksMarver : Picks (tEng 175 (tDesc 3 1 64)) 3 175 1 64 (tDesc 3 1 64) (zeros 64) (tEng 175 (tDesc 3 1 64)) :=
  ⟨by decide, by decide, by decide, by decide, by decide, by rfl⟩

theorem witness_PicksParison (op : Nat) (h : op ∈ [1, 2, 3]) :
    Picks (tEng 197 (tDesc 5 op 64)) 5 197 op 64 (tDesc 5 op 64) (zeros 64) (tEng 197 (tDesc 5 op 64)) := by
  simp only [List.mem_cons, List.not_mem_nil, or_false] at h
  rcases h with rfl | rfl | rfl <;> exact ⟨by decide, by decide, by decide, by decide, by decide, by rfl⟩

/-- Gather descriptors that start and that are active; a codec descriptor with a buffer it has not filled. -/
theorem witness_GatherTakesDescriptors :
    (∀ op ∈ [1, 2, 3], ∀ act ∈ [false, true],
      let d := { tDesc 4 op 64 with active := act, prog := if act then [0] else [] }
      let s := tEng 200 d
      ((engQueue s gatherCode).all fun x => engListed x.engine x.op) = true ∧ (engQueue s gatherCode)[0]? = some d ∧
      (kvGet s.engHold gatherCode).getD [] = [] ∧ (if d.active then engWorks s gatherCode else engStarts s gatherCode) = true ∧
      (poolGet s (subNat (zeros 64) 0x1C 1)).level ≠ 3 ∧ gNum d 0 ≤ 0) ∧
    (let x := { tDesc 1 2 128 with active := true, bufs := [5] }
     let s := tEng 0 x
     (engQueue s 0)[0]? = some x ∧ engWorks s 0 = true ∧ x.op ≤ 5 ∧ x.entCnt < x.bufs.length) := by decide

/-- Their bytes read. -/
theorem witness_GatherBytes : (engBytes (tDesc 4 1 64) 0x30000 64 : EM Bytes).run (tEng 200 (tDesc 4 1 64)) = (.ok (zeros 64), tEng 200 (tDesc 4 1 64)) := by rfl

theorem witness_DescriptorCompletion :
    let d := { tDesc 3 1 64 with ccEn := true, cc := 15 }
    let s := { tEng 128 d with jobs := [tJob] }
    s.hbmErr = [] ∧ (xlNow (descRemove s 128 d.id) d.ttb d.pkr0.toNat d.pkr1.toNat d.priv.toNat (BitVec.ofNat 64 d.statusAddr) .write =
      .ok 0x31000 { va := 0, size := 2 ^ 30, leaf := 0x3D }) ∧ resolve s 0x31000 = .hbm 0x31000 ∧ 0x31000 % 16 = 0 ∧
    strictJob s 7 = true ∧ strictJob s 8 = false ∧ tJob.paced = false ∧ d.tile < 768 ∧
    jobOf { s with jobs := [{ tJob with paced := true }] } 7 = some { tJob with paced := true } := by decide

/-- Domains of one element and of the greatest size. -/
theorem witness_PermutationIsABijection : (1 : Nat) < 2 ^ 48 ∧ 2 ^ 48 - 1 < 2 ^ 48 ∧ (2 : Nat) ≤ 2 ^ 32 := by decide


/-- A stream of batches of two samples at the Parison of die 0; both positions reported as failed samples, packed by FIRSTFIT into one row. -/
def tStream : Stream :=
  { opened := true, job := 7
    cfg := { b := 2, c := 1, n := 2, pack := 2, tokenBytes := 4, g := 8, rows := 1, rowLen := 4, a := 1, e := 1, assemblers := [(0, 0)], rings := [(0, 0x40000, 0, 0x50000)], entryBytes := 512 }
    pkr0 := 3 }
def tReport (p : Nat) : Bytes := leBytes 8 0 ++ leBytes 8 p ++ zeros 8 ++ [1] ++ zeros 39
def tStreams (x : Stream) : State := { tDev with streams := [(192, x)] }

/-- A report of a position nobody holds; a batch whose places are known; a shard that may be sent, one short of credit, and one whose header's write is complete. -/
theorem witness_BatchesOfAStream :
    engIs 5 192 = true ∧
    (let s := tStreams tStream
     tStream.cfg.b ≠ 0 ∧ streamAt s 192 = tStream ∧ (∀ i ∈ jobStreams s 7, kvGet i.2.reports (posKey tStream.cfg 0 1) = none) ∧ posUsable s tStream 0 1 = true ∧
     rEpoch (tReport 1) = 0 ∧ rPos (tReport 1) = 1 ∧ assemblerOf { tStream.cfg with assemblers := [(2 ^ 63, 1)] } 0 = .inr (0x8000000000000000, 1)) ∧
    (let x := { tStream with reports := [(0, { bytes := tReport 0 }), (1, { bytes := tReport 1, ord := 1 })] }
     let s := tStreams x
     engWorks s 192 = true ∧ x.opened = true ∧ x.halted = none ∧ assemblerOf x.cfg (0 % x.cfg.a) = .inl 192 ∧ allDelivered x 0 = false ∧ x.batches = [] ∧
     (∃ l ∈ (batchList s 192 0).1, ∃ p ∈ (payloads (batchList s 192 0).2 192 0 l).1, p.1 = stOk ∧
       allDelivered (streamAt (packBatch ((l.filterMap (·.2)).foldl (fun s r => payloadFree s 192 r) (payloads (batchList s 192 0).2 192 0 l).2) x.cfg 0 p.2).2 192) 0 = false)) ∧
    (let h : Shard := { header := [], body := [], imm := 0 }
     let y : Batch := { b := 0, shards := [h] }
     let z : Batch := { b := 1, shards := [h] }
     let x := { tStream with batches := [y, z], delivered := [(0, 0)] }
     let w := { tStream with batches := [y, z] }
     (w.batches.find? fun y => y.b = (0 : Word).toNat) = some y ∧ y.shards[0]? = some h ∧ engWorks (tStreams w) 192 = true ∧ w.delivered.contains (0, 0) = false ∧
     ((jobStreams (tStreams x) 7).all fun i => i.2.batches.all fun z => decide (1 ≤ z.b) || i.2.delivered.contains (z.b, 0)) = true ∧
     (batchDurable (tStreams w) w y).1 = true ∧ (creditOk (tStreams w) 192 0 0).1 = none ∧ (creditOk (tStreams w) 192 0 0).2.1 = true ∧
     (creditOk (tStreams x) 192 1 0).1 = none ∧ (creditOk (tStreams x) 192 1 0).2.1 = false ∧ (tStreams w).jobs = [] ∧
     (let v := { w with sending := [{ b := 0, k := 0, phase := 1 }] }
      (v.sending.find? fun q => q.b = (0 : Word).toNat && q.k = 0) = some { b := 0, k := 0, phase := 1 } ∧ v.closing = none ∧ (tStreams v).flt.lsState.toNat < 2)) := by
  decide +kernel


/-! ## Transport -/

/-- A packet with its length and CRC-32C. -/
def tPkt (p : Pkt) : Pkt := { p with plen := BitVec.ofNat 16 p.payload.length, crc := BitVec.ofNat 32 (crc32c (pktBody { p with plen := BitVec.ofNat 16 p.payload.length })) }
/-- Port 0 is UP; queue pair 5 is READY; region 9 (key 0x901) covers 4 KiB of HBM at 0x30000, region 10 the sync counters, region 11 virtual addresses. -/
def tXp (q : Qp) : State :=
  { tDev with
    ports := [(0, { state := 2, en := true })]
    qps := [(5, { q with resident := true, job := 7 })]
    regions := [(9, { registered := true, base := 0x30000, length := 4096, job := 7, rights := 0x1F, gen := 1, nmode := 1, nctr := 15 }),
      (10, { registered := true, base := 0x0F0000000000, length := 8388608, job := 7, rights := 0x1F, gen := 1 }),
      (11, { registered := true, base := 0x3FFFFFFF, length := 4096, job := 7, rights := 0x27, gen := 1, ttb := 0, pkr0 := 3 })] }
/-- A responder's queue pair that has received every PSN below 100 and PSN 102. -/
def tRsp : Qp := { state := .ready, transport := 1, cum := 100, recvd := [102], version := 0x20, cepoch := 3 }
def tReq (type : BitVec 8) : Pkt :=
  { pkt0 with type := type, dqpn := 5, cepoch := 3, psn := 100, msn := 0, key := 0x901, offset := 16, mlen := 8, payload := if type = 1 ∨ type = 2 ∨ type = 6 then [1, 2, 3, 4, 5, 6, 7, 8] else [] }

/-- The six requests, each new, a duplicate and beyond the window; a wrong length, a failed check, a wait, and ranges in HBM and in the counters. -/
theorem witness_RequestsOfAResponder :
    (∀ t ∈ ([1, 2, 3, 5, 6, 8] : List (BitVec 8)), Arrives (tXp tRsp) (tPkt (tReq t)) = true) ∧
    (psnClass 100 [102] 100 = .new ∧ psnClass 100 [102] 99 = .dup ∧ psnClass 100 [102] 102 = .dup ∧ psnClass 100 [102] 1124 = .beyond) ∧
    (let s := tXp tRsp
     let s2 := qpUpd (frontTake (arrived s (tPkt (tReq 1))) 5 (tPkt (tReq 1))) 5 fun q => { q with lastWork := 0 }
     reqCheck s2 (qpGet s2 5) 0x901 16 8 { right := 1, reads := false, writes := true } true = .ok 9 (regionGet s2 9) [(0x30010, 8)] ∧
     reqCheck s2 (qpGet s2 5) 0x901 16 8 { right := 1, reads := false, writes := true, imm := true } true = .ok 9 (regionGet s2 9) [(0x30010, 8)] ∧
     reqCheck s2 (qpGet s2 5) 0x901 16 8 { right := 0, reads := true, writes := false } true = .ok 9 (regionGet s2 9) [(0x30010, 8)] ∧
     reqCheck s2 (qpGet s2 5) 0x901 16 8 { right := 2, reads := true, writes := true, align := 8 } true = .ok 9 (regionGet s2 9) [(0x30010, 8)] ∧
     reqCheck s2 (qpGet s2 5) 0xA01 64 8 { right := 3, reads := false, writes := false, align := 64 } true = .ok 10 (regionGet s2 10) [] ∧
     reqCheck s2 (qpGet s2 5) 0x902 16 8 { right := 1, reads := false, writes := true } true = .nak stKeyMismatch ∧
     reqCheck s2 (qpGet s2 5) 0xB01 1 8 { right := 1, reads := false, writes := true } true = .wait 0 0x40000000 ∧
     resolve s2 0x30010 = .hbm 0x30010 ∧ s.hbmErr = [] ∧ jobOf s 0xFFFF = none ∧ (regionGet s2 9).nmode = 1) := by
  decide +kernel

/-- One key, range and right for each row of the checks. -/
theorem witness_ChecksOfARequest :
    let s := tXp tRsp
    let q := qpGet s 5
    let r := regionGet s 11
    (reqCheck s q 0x901 4088 8 { right := 1, reads := false, writes := true } true = .ok 9 (regionGet s 9) [(0x30FF8, 8)]) ∧
    (¬ 4089 + 8 ≤ (regionGet s 9).length) ∧ (4 % 8 ≠ 0 ∧ 4 + 8 ≤ (regionGet s 9).length) ∧ (regionGet s 9).rights.getLsbD 5 = false ∧
    regionXl s r 1 8 .write = .bad 0x40000000 (.fault stPageNotPresent) ∧ regionOdp r = true ∧
    regionXl s { r with ttb := 256 } 0 1 .write = .bad 0x3FFFFFFF (.fault stTableMalformed) ∧
    regionXl s { r with pkr0 := 0 } 0 1 .write = .bad 0x3FFFFFFF (.deny stPkeyDenied) ∧
    regionXl s r 0 1 .write = .ok [(0x3FFFFFFF, 1)] ∧ regionExc s r [(0x3FFFFFFF, 1)] .write = none := by decide +kernel

/-- A requester's queue pair with a write and an atomic in flight. -/
def tRqr : Qp :=
  { state := .ready, transport := 0, version := 0x20, cepoch := 3
    sq := [{ ord := 0, opcode := 1, length := 8, started := true, msn := 0 }, { ord := 1, opcode := 3, length := 8, local_ := 0x30000, pkr0 := 3, priv := 0, started := true, msn := 1 },
      { ord := 2, opcode := 4, length := 8, local_ := 0x40000000, pkr0 := 3, priv := 0, started := true, msn := 2, op := some 1 },
      { ord := 3, opcode := 3, length := 8, local_ := 0x40000000, pkr0 := 3, priv := 0, started := true, msn := 3 }]
    flights := [{ pkt := { pkt0 with type := 1, psn := 7 }, ord := 0, path := 0, bytes := 64, sent := 0 }] }
/-- An answer to it. -/
def tAns (type : BitVec 8) : Pkt := { pkt0 with type := type, dqpn := 5, cepoch := 3 }

/-- Each answer arrives; what it names is there. -/
theorem witness_ResponsesAndAcknowledgements :
    let s := tXp tRqr
    let q := qpGet s 5
    let ack := tPkt { tAns 0x10 with psn := 8, payload := zeros 48 }
    let rd := tPkt { tAns 0x04 with msn := 1, mlen := 8, payload := [1, 2, 3, 4, 5, 6, 7, 8] }
    (Arrives s ack = true ∧ ack.payload.length = 48 ∧ psnAcked 8 0 7 = true ∧ Arrives (tXp { tRqr with transport := 1 }) ack = true) ∧
    (Arrives s (tPkt { tAns 0x11 with psn := 7, aux := 0x0507 }) = true ∧ (q.flights.find? fun f => f.pkt.psn = 7).isSome = true ∧
      (q.sq.find? fun w => w.started && w.msn = 0).isSome = true) ∧
    (Arrives s (tPkt { tAns 0x12 with psn := 7, aux := 0x00640000 }) = true ∧ 0x11 ≤ q.version.toNat) ∧
    (let f := tPkt { tAns 0x13 with flags := 1, frontier := 9 }
     Arrives s f = true ∧ ctlOk f 0 = true ∧ f.tag = 0 ∧ q.rspJobs = []) ∧
    (Arrives s rd = true ∧ psnClass q.rspCum q.rspRecvd 0 = .new ∧ psnClass q.rspCum q.rspRecvd 0xFFFFFFFF = .dup ∧
      (q.sq.find? fun w => w.started && w.opcode = 3 && w.msn = rd.msn) = some { ord := 1, opcode := 3, length := 8, local_ := 0x30000, pkr0 := 3, priv := 0, started := true, msn := 1 }) ∧
    Arrives s (tPkt { tAns 0x07 with msn := 2, value := 5 }) = true ∧
    ((q.sq.find? fun w => w.started && (w.opcode = 4 || w.opcode = 5) && w.msn = 2).bind (·.op)) = some 1 ∧ ((kvGet s.ops 1).any fun o => o.kind = .qpost) = false ∧
    (let w : Wreq := { ord := 2, opcode := 4, length := 8, local_ := 0x30000, pkr0 := 3, priv := 0, started := true, msn := 2, op := some 1 }
     let o : RemoteOp := { owner := 1, tile := 0, job := 7, priv := 0, tag := 0, kind := .qpost, qpn := some 5, len := 8 }
     let t := { tXp { tRqr with sq := [w] } with ops := [(1, o)] }
     Arrives t (tPkt { tAns 0x07 with msn := 2, value := 5 }) = true ∧ ((kvGet t.ops 1).any fun o => o.kind = .qpost) = true ∧
     ((qpGet t 5).sq.find? fun w => w.started && (w.opcode = 4 || w.opcode = 5) && w.msn = 2) = some w ∧
     (localPlace t 5 w 0 (leBytes 8 5)).any (fun r => r.1 = stOk) = true) := by decide +kernel

/-- The local bytes of a READ translate, and do not. -/
theorem witness_ResponsePlaces :
    let s := tXp tRqr
    let w : Wreq := { ord := 1, opcode := 3, length := 8, local_ := 0x30000, pkr0 := 3, priv := 0, started := true, msn := 1 }
    wrPieces s w 0 8 .write = .ok [(0x30000, 8)] ∧ resolve s 0x30000 = .hbm 0x30000 ∧ (localPlace s 5 w 0 (zeros 8)).any (fun r => r.1 = stOk) = true ∧
    wrPieces s { w with local_ := 0x40000000 } 0 8 .write = .fault 0x40000000 stPageNotPresent := by decide +kernel


/-- A neighbour entry for address 2, in the table at 0x100000. -/
def tNeigh (q : Qp) : State :=
  let s := tXp q
  { s with mgmt := { neigh := 8 }, hbm := s.hbm ++ memOfBytes (0x100000 + 32 * (crc32c (beBytes 16 2) % 4096)) (beBytes 16 2 ++ [9, 0, 0, 0, 0, 0, 0, 0x80]) }
/-- Payload of CONNECT_REQ and CONNECT_RESP. -/
def tConn (qpn service : Nat) (b : Bytes) : Bytes := leBytes 4 qpn ++ leBytes 4 service ++ b ++ [1, 0] ++ leBytes 2 9 ++ zeros 16

/-- A work request on a FREE, on an IDLE and on a READY queue pair. -/
theorem witness_WorkRequestStart :
    let w : Wreq := { opcode := 1, length := 8, job := 7 }
    let f := tXp { sq := [w] }
    let i := tNeigh { state := .idle, peerIp := 2, sq := [w] }
    let r := tXp { tRqr with sq := [w], flights := [] }
    (((qpGet f 5).sq.find? fun w => !w.started) = some w ∧ batchHeld f w.job (tagBatch w.tag).toNat = false ∧ (qpGet f 5).state = .free) ∧
    ((qpGet i 5).state = .idle ∧ (qpGet i 5).resident = true ∧ (neighFind (qpResident i 5) 2).1 = some 0x8000000000000009 ∧ (portGet i 0).state = 2 ∧ (portGet i 0).paused = []) ∧
    ((qpGet r 5).state = .ready ∧ 0x20 ≤ (qpGet r 5).version.toNat ∧ wrBroken (qpResident r 5) w = stOk ∧ wrWaits (qpResident r 5) (qpGet (qpResident r 5) 5) w = false ∧ wrHeld (qpResident r 5) w = false ∧
      w.flags.getLsbD 1 = false) := by decide +kernel

/-- CONNECT_REQ that is fine for a service listened for, for another service and for no common version, and one that is not fine. -/
theorem witness_ConnectReq :
    let p := tPkt { pkt0 with type := 0x20, payload := tConn 4 77 [0x10, 0x20, 12, 64] }
    let bad := tPkt { pkt0 with type := 0x20, payload := tConn 4 77 [0x10, 0x20, 9, 64] }
    let s := tXp { state := .listen, service := 77, transport := 1 }
    let fine := fun (p : Pkt) => ctlOk p 32 = true ∧ p.dqpn = 0 ∧ payZero p 13 14 = true ∧ payZero p 16 32 = true ∧ subNat p.payload 0 4 < 2 ^ 20 ∧ subNat p.payload 14 2 < 2 ^ 12 ∧
      10 ≤ subNat p.payload 10 1 ∧ subNat p.payload 10 1 ≤ 12 ∧ 1 ≤ subNat p.payload 11 1 ∧ subNat p.payload 11 1 ≤ 64
    (portGet s p.port.toNat).state = 2 ∧ pktGood p = true ∧ pktGood bad = true ∧ p.type = 0x20 ∧ fine p ∧ ¬ fine bad ∧ (∀ e ∈ s.qps, qpConnected e.2 = false) ∧
    ((s.qps.find? fun e => e.2.state = .listen && e.2.service = BitVec.ofNat 32 (subNat p.payload 4 4)).map (·.1)) = some 5 ∧
    versionPick 0x10 0x20 = some 0x20 ∧ versionPick 0x21 0x30 = none ∧ (78 : Nat) ≠ subNat p.payload 4 4 := by decide +kernel

/-- CONNECT_RESP, CLOSE, PROBE and PROBE_RESP that arrive; connection attempts left and used up; a quiet connection. -/
theorem witness_Connections :
    let c := tXp { state := .connecting, cepoch := 3, service := 77, attempts := 8 }
    let r := tXp { tRqr with pathTab := [{ live := false }] }
    let ok := tPkt { tAns 0x21 with payload := tConn 4 77 [0x20, 0, 12, 1] }
    let no := tPkt { tAns 0x21 with aux := 0x0506, payload := tConn 0 77 [0, 0x20, 0, 0] }
    (Arrives c ok = true ∧ ctlOk ok 32 = true ∧ payZero ok 13 14 = true ∧ payZero ok 16 32 = true ∧ subNat ok.payload 14 2 < 2 ^ 12 ∧ ok.payload.getD 8 0 = 0x20 ∧
      subNat ok.payload 10 1 ≤ (qpGet c 5).mtuCfg ∧ subNat ok.payload 11 1 ≤ (qpGet c 5).pathsCfg ∧ (qpGet c 5).state = .connecting) ∧
    (Arrives c no = true ∧ ctlOk no 32 = true ∧ payZero no 8 9 = true ∧ subNat no.payload 0 4 = 0) ∧
    (let p := tPkt { tAns 0x22 with payload := [4, 0, 0, 0, 0, 0, 0, 0] }
     Arrives r p = true ∧ ctlOk p 8 = true ∧ payZero p 2 8 = true ∧ qpConnected (qpGet r 5) = true ∧ ((qpGet r 5).sq.any fun w => w.started) = true ∧
     ((qpGet (tXp tRsp) 5).sq.any fun w => w.started) = false ∧ Arrives (tXp tRsp) p = true) ∧
    (Arrives r (tPkt (tAns 0x23)) = true ∧ ctlOk (tPkt (tAns 0x23)) 0 = true) ∧
    (Arrives r (tPkt { tAns 0x24 with payload := zeros 8 }) = true ∧ (pathGet (qpGet r 5) 0).live = false ∧ 0 < (qpGet r 5).paths ∧ 0 < (qpGet r 5).pathTab.length) ∧
    (¬ (qpGet c 5).attempts < c.xp.retryMax.toNat ∧ ({ (qpGet c 5) with attempts := 7 } : Qp).attempts < c.xp.retryMax.toNat) ∧
    (let t := tXp { tRsp with recvd := [] }
     (qpGet t 5).state = .ready ∧ (qpGet t 5).transport.toNat < 2 ∧ qpQuiet (qpGet t 5) = true ∧ strictJob t 7 = false ∧ t.xp.idle ≠ 0 ∧ strictJob { t with jobs := [tJob] } 7 = true) := by
  decide +kernel


/-- Each timer with something to do and with nothing; a retransmission left and spent; a held packet; a queue pair that is not resident. -/
theorem witness_TransportTimers :
    let f : Flight := { pkt := { pkt0 with type := 1, psn := 7 }, ord := 0, path := 0, bytes := 64, sent := 0 }
    let r := tXp { tRsp with ackDue := some (0, 5, 0), nextHop := some 9 }
    let q := tXp { tRqr with pathTab := [{ expiries := 2 }, { live := false }], paths := 2, flights := [f, { f with pkt := { f.pkt with psn := 8 }, waitUntil := some 3, waitFirst := some 1 }] }
    let spent := tXp { tRqr with pathTab := [{}], flights := [{ f with retries := 8 }] }
    ((qpGet r 5).ackDue = some (0, 5, 0) ∧ (qpGet r 5).withheld = [] ∧ (portGet r 0).state = 2 ∧ (portGet r 0).paused = [] ∧ (qpGet r 5).nextHop.isSome = true ∧ (qpGet q 5).ackDue = none) ∧
    ((qpGet q 5).state = .ready ∧ 0x20 ≤ (qpGet q 5).version.toNat ∧
      (let t := tXp { tRqr with sq := [{ tag := 9 }] }
       (qpGet t 5).sentFrontier.toNat < (qpFront t (qpGet t 5)).toNat) ∧ (qpFront q (qpGet q 5)).toNat ≤ (qpGet q 5).sentFrontier.toNat) ∧
    (((qpGet q 5).flights.find? fun f => f.path = 0 && f.waitUntil.isNone) = some f ∧ 0 < (qpGet q 5).pathTab.length ∧ f.retries < q.xp.retryMax.toNat ∧
      (pathGet (qpGet q 5) 0).live = true ∧ 3 ≤ (pathGet (qpGet q 5) 0).expiries + 1) ∧
    (((qpGet spent 5).flights.find? fun f => f.path = 0 && f.waitUntil.isNone) = some { f with retries := 8 } ∧ spent.xp.retryMax.toNat ≤ 8) ∧
    ((∀ f ∈ (qpGet q 5).flights ++ (qpGet q 5).rspFlights, f.path = 1 → f.waitUntil.isSome = true) ∧ 1 < (qpGet q 5).paths ∧ (pathGet (qpGet q 5) 1).live = false) ∧
    ((qpGet q 5).flights = [f] ++ { f with pkt := { f.pkt with psn := 8 }, waitUntil := some 3, waitFirst := some 1 } :: [] ∧ ((qpGet q 5).flights.map (·.pkt.psn)).Nodup ∧
      ((qpGet q 5).flights.find? fun f => f.waitFirst.isSome).isSome = true) ∧
    (let t := { q with qps := [(5, { tRqr with resident := false, heldPkts := [tPkt (tAns 0x23)], holdSince := some 4 })] }
     (qpGet t 5).state ≠ .free ∧ (qpGet t 5).resident = false ∧ (qpGet t 5).holdSince = some 4) := by decide +kernel

/-- A command block at 0x40000. -/
def tCmd (b : Bytes) : State := let s := tXp { state := .stalled, fault := some (2, stPageNotPresent), sq := [{ ord := 2 }] }; { s with xp := { cmdAddr := 0x800 }, hbm := s.hbm ++ memOfBytes 0x40000 b }
def tMr (index rights : Nat) : Bytes := [1, 0, 7, 0] ++ leBytes 4 index ++ leBytes 8 0x30000 ++ leBytes 8 4096 ++ [BitVec.ofNat 8 rights, 0] ++ zeros 102
def tQpc (qpn tr : Nat) : Bytes := [3, 0, 0, 0] ++ leBytes 4 qpn ++ [7, 0, BitVec.ofNat 8 tr, 12, 1, 0, 6, 0] ++ zeros 48 ++ leBytes 8 0x50000 ++ zeros 56

/-- A readable block of each operation, its fields in range and out of range. -/
theorem witness_TransportCommands :
    (let s := tCmd (tMr 65535 0x1F)
     s.xp.busy = false ∧ inHbm s (xpBlock s) 128 = true ∧ (physRead s (xpBlock s) 128).1 = stOk ∧ memBytes (physRead s (xpBlock s) 128).2.1 0 128 = tMr 65535 0x1F ∧
     mrOk s (tMr 65535 0x10) = true ∧ mrOk s (tMr 65536 0x10) = false ∧ mrOk s (tMr 1 0x40) = false ∧
     (regionGet s 9).registered = true ∧ (regionGet s 65535).registered = false ∧ (regionGet s 65535).draining = false ∧ mrFresh s (regionGet s 65535) = false ∧
     mrFresh s { dereg := some 0 } = true) ∧
    (let b : Bytes := [2, 0, 0, 0] ++ leBytes 4 0x901 ++ zeros 120
     blkZero b 1 4 = true ∧ blkZero b 8 0x80 = true ∧ subNat b 4 4 / 256 < 2 ^ (tCmd b).xp.mrtLog2.toNat ∧ (regionGet (tCmd b) 9).gen.toNat = subNat b 4 4 % 256) ∧
    (qpCreateOk (tCmd (tQpc 6 2)) (tQpc 6 2) = true ∧ qpCreateOk (tCmd (tQpc 5 1)) (tQpc 5 1) = true ∧ (qpGet (tCmd (tQpc 6 2)) 6).state = .free ∧ (qpGet (tCmd (tQpc 6 2)) 5).state ≠ .free) ∧
    (let b : Bytes := [5, 0, 0, 0] ++ leBytes 4 5 ++ [1] ++ zeros 119
     qpBlockOk b true = true ∧ qpBlockOk ([4, 0, 0, 0] ++ leBytes 4 5 ++ zeros 120) false = true ∧ (qpGet (tCmd b) 5).state = .stalled ∧ subNat b 8 1 = 1 ∧
     (qpGet (tCmd b) 5).fault = some (2, stPageNotPresent) ∧ ((qpGet (tCmd b) 5).sq.find? fun w => w.ord = 2) = some { ord := 2 }) ∧
    (let b : Bytes := [7, 0, 0, 0] ++ leBytes 4 4095 ++ zeros 120
     blkZero b 1 4 = true ∧ subNat b 4 4 < 4096 ∧ blkZero b 8 0x40 = true ∧ subNat (sub b 0x40 64) 9 1 = 0 ∧ resolve (tCmd b) (ringAddr (tCmd b) 4095) = .hbm 0x3FFC0) ∧
    (let s := { tCmd [] with xp := { busy := true, cur := 2, curArg := 9 } }
     mrBusy s s.xp.curArg = false ∧ mrBusy { s with qps := [(5, { msgs := [{ msn := 0, mlen := 1, placed := 1, offset := 0, imm := none, key := 0x901, tag := 0, tagged := false, whole := true }] })] } 9 = true) ∧
    (let s := tXp { state := .draining }
     (qpGet s 5).state = .draining ∧ (qpGet s 5).flights = [] ∧ (qpGet (tXp tRqr) 5).flights ≠ []) := by decide +kernel

/-- RoCE v2 requests ahead, behind and at the expected PSN; answers to a requester. -/
theorem witness_RocePackets :
    let s := tXp { state := .ready, transport := 2, cum := 0xFFFFFF, pathTab := [{}], atomics := [(0xFFFFFE, pkt0)],
                   sq := [{ ord := 0, opcode := 1, length := 8, started := true }], flights := [{ pkt := { pkt0 with psn := 3 }, ord := 0, path := 0, bytes := 8, sent := 0 }] }
    let p : RocePkt := { op := .write, first := true, last := true, dqpn := 5, psn := 0xFFFFFF, va := 16, rkey := 0x901, dmaLen := 4, imm := 0, swapAdd := 0, compare := 0, payload := [1, 2, 3, 4] }
    let s0 := qpResident (portCount (portCount s 0 2 1) 0 3 (frameLen 0 false (p.payload.length + 16))) 5
    let gap := fun (psn : BitVec 24) => (psn.toNat + 2 ^ 24 - (qpGet s 5).cum.toNat % 2 ^ 24) % 2 ^ 24
    ((portGet s 0).state = 2 ∧ (qpGet s 5).state = .ready ∧ (qpGet s 5).transport = 2 ∧ (qpGet s 5).resident = true) ∧
    (0 < gap 0 ∧ gap 0 < 2 ^ 23 ∧ 2 ^ 23 ≤ gap 0xFFFFFE ∧ gap p.psn = 0 ∧ ((qpGet s 5).atomics.find? fun e => e.1 = (0xFFFFFE : BitVec 24).setWidth 32) = some (0xFFFFFE, pkt0)) ∧
    reqCheck s0 (qpGet s0 5) p.rkey p.va.toNat p.payload.length { right := 1, reads := false, writes := true } false = .ok 9 (regionGet s0 9) [(0x30010, 4)] ∧
    reqCheck s0 (qpGet s0 5) 0x902 p.va.toNat p.payload.length { right := 1, reads := false, writes := true } false = .nak stKeyMismatch ∧
    reqCheck s0 (qpGet s0 5) p.rkey p.va.toNat 8 { right := 2, reads := true, writes := true, align := 8 } false = .ok 9 (regionGet s0 9) [(0x30010, 8)] ∧
    resolve s0 0x30010 = .hbm 0x30010 ∧ (roceFlight (roceAcked s0 5 3 false) 5 3).isSome = true ∧ 0 < (qpGet s 5).pathTab.length := by decide +kernel

/-- A tagged packet, and one without a tag header. -/
theorem witness_PacketsReadBack : pTagged { pkt0 with flags := 1 } = true ∧ pTagged pkt0 = false ∧ pkt0.tag = 0 ∧ pkt0.frontier = 0 ∧ (zeros 59).length < 60 := by decide


/-! ## Units, groups and ports -/

/-- Commands of a tile, a cluster, a die, the device, a slot and a group; collisions; a frozen unit; a quiesce in progress, drained and not; block resets. -/
theorem witness_UnitCommands :
    let s := tDev
    let g := { tDev with groups := [(255, { g := 255, children := [] })] }
    let z := { tDev with units := [(0, { st := .ready }), (8, { st := .frozen }), (64, { st := .running })] }
    let q := { tDev with units := [(64, { st := .quiescing, busy := true, cmd := 1 }), (831, { st := .frozen, busy := true, cmd := 5 })], ops := [(1, { tOp with owner := 9 })],
                         tiles := [(767, { hws := [(0, { sw := 9 })] })] }
    (ucbKind s 831 = some 0 ∧ ucbKind s 55 = some 1 ∧ ucbKind s 6 = some 2 ∧ ucbKind s 0 = some 3 ∧ ucbKind s 1887 = some 5 ∧ ucbKind g 2303 = some 4 ∧ (unitGet g 2303).busy = false) ∧
    (ucbCollides s 64 1 = false ∧ ucbCollides z 64 1 = true ∧ ucbCollides z 64 3 = false ∧ ucbCollides z 8 5 = false ∧ (unitGet z 8).st = .frozen ∧ (unitGet s 64).st ≠ .frozen) ∧
    ((∀ L ∈ tilesUnder 8, (tileGet s L).frozen = [] ∧ (tileGet s L).runq = []) ∧ tileUcb 767 = 831 ∧ backed s 767 = true) ∧
    ((unitGet q 64).busy = true ∧ (unitGet q 64).cmd = 1 ∧ unitDrained q 64 = true ∧ (unitGet q 831).cmd = 5 ∧ unitDrained q 831 = false ∧ (unitGet q 65).busy = false) ∧
    (s.pwr.brBusy = false ∧ (0x3E801C5 : Word).getLsbD 8 = true ∧ blkTarget (fld 0x3E801C5 0 8).toNat = true ∧ (fld 0x3E801C5 0 8 : BitVec 8) ≠ 201) ∧
    (let t := { tEng 197 (tDesc 5 1 64) with pwr := { asserted := false, brBusy := true, brCur := 197 } }
     t.pwr.brBusy = true ∧ t.pwr.brCur.toNat < 198 ∧ (engQueue t 197).all (fun d => !d.active) = true) := by decide

/-- Trouble counters of a tile; group 255 with one remote and one local member; refreshes with and without an answer. -/
theorem witness_CountersAndGroups :
    let g : GroupRec := { g := 255, children := [0x8000000500000001, 0x0C0000040000] }
    let m : Member := { answered := true, state := 2, spares := 1, tdc := 3, counts := [(0, 0xFFFF), (63, 1)], score := 1000, conf := 5 }
    let s := { tNet tCtx with groups := [(255, g)], units := [(64, { st := .running }), (2303, { st := .ready, busy := true, cmd := 3 })] }
    let t := { s with groups := [(255, { g with next := 1 })] }
    ucbKind s 64 = some 0 ∧ (0 : Nat) ≠ 4 ∧ groupGet s 255 = some g ∧ ([m, { m with answered := false }].filter (·.answered)) = [m] ∧ (m.counts.map (·.1)).Nodup ∧
    ((unitGet s (2048 + 255)).busy = true ∧ g.children[g.next]? = some 0x8000000500000001 ∧ localChild s 0x8000000500000001 = none ∧ g.next + 1 < g.children.length) ∧
    (({ g with next := 1 } : GroupRec).children[1]? = some 0x0C0000040000 ∧ localChild t 0x0C0000040000 = some 64 ∧ (unitGet t 64).busy = false ∧ 1 + 1 = g.children.length) ∧
    (unitGet { t with units := [(64, { busy := true })] } 64).busy = true ∧
    (let r := { s with groups := [(255, { g with children := [0x8000000500000001] })] }
     groupGet r 255 = some { g with children := [0x8000000500000001] } ∧ 0 + 1 = ({ g with children := [0x8000000500000001] } : GroupRec).children.length) := by decide


/-- A valid and an invalid configuration of port 95; ports OFF, in TRAINING and UP; pads held; a degraded window. -/
theorem witness_PortLinks :
    let s := { tDev with ports := [(0, { en := true, lanes := 8, state := 2 }), (95, { state := 1 })], pwr := { asserted := false, holdEth := false } }
    portCfgOk s 95 1 2 = true ∧ portCfgOk s 7 1 2 = false ∧ portCfgOk s 95 2 2 = false ∧ (portGet s 95).en = false ∧ (portGet s 0).en = true ∧
    (portGet s 0).state = 2 ∧ (portGet s 95).state = 1 ∧ s.pwr.holdEth = false ∧ tDev.pwr.holdEth = true ∧ (portGet s 8).state = 0 := by decide

/-- A broadcast frame that holds a UDP datagram for the Frerak port, one of no datagram, and a PFC frame of priority 3. -/
def tUdp : Bytes :=
  List.replicate 6 0xFF ++ zeros 6 ++ [8, 0] ++ [0x45, 0, 0, 88, 0, 0, 0, 0, 64, 17, 0, 0, 10, 0, 0, 1, 10, 0, 0, 2] ++ beBytes 2 49152 ++ beBytes 2 47074 ++ beBytes 2 68 ++ zeros 2 ++ zeros 60
def tRaw : Bytes := List.replicate 6 0xFF ++ zeros 6 ++ [0x88, 0xB5] ++ zeros 46

theorem witness_FramesAndPauses :
    let s := { tXp tRsp with mgmt := { ringEn := true, ringBase := 0x40 } }
    let full := { s with mgmt := { ringEn := true, ringBase := 0x40, head := 256 } }
    let x := { tDev with ports := [(0, { state := 2, pfcEn := 0xFF, pausing := 8, paused := [(3, 0, 5)], txq := [(3, .frame 0 [1])] })] }
    let pa := s.mgmt.ringBase.toNat * 16384 + 16384 * (s.mgmt.head.toNat % 2 ^ s.mgmt.ringSize.toNat)
    (portGet s 0).state = 2 ∧ (portGet s 1).state ≠ 2 ∧ frameMine s 0 tUdp = true ∧ frameMine s 0 ([2, 0, 0, 0, 0, 1] ++ zeros 54) = false ∧ isPfc tUdp = false ∧ isPfc tRaw = false ∧
    isPfc (pfcFrame x 0 3 9) = true ∧
    ((frameUdp tUdp).any fun u => u.dport = s.xp.dport.toNat && (pktParse u.payload u.srcIp u.hop 0).isSome) = true ∧ (frameType tUdp).1 ≠ 0x88F7 ∧ frameUdp tRaw = none ∧
    (2 ^ full.mgmt.ringSize.toNat ≤ (full.mgmt.head - full.mgmt.tail).toNat) ∧ (s.mgmt.head - s.mgmt.tail).toNat < 2 ^ s.mgmt.ringSize.toNat ∧
    inHbm s pa 16384 = true ∧ resolve s pa = .hbm 0x100000 ∧ tRaw.length ≤ 4032 ∧
    ((portGet x 0).paused.find? fun e => e.1 = 3) = some (3, 0, 5) ∧ (portGet x 0).pfcEn.getLsbD 3 = true ∧ (beNat (sub (pfcFrame x 0 3 9) 16 2)).testBit 3 = true ∧
    (portGet x 0).pausing.getLsbD 3 = true ∧ (portGet x 0).pausing.getLsbD 4 = false ∧ (portGet x 0).xon.toNat < 65 ∧ 64 ≤ (portGet x 0).xon.toNat ∧ (portGet x 0).xoff.toNat ≤ 128 := by
  decide +kernel

/-- A step of 1 s, one of just less and a negative one; a transmission of 60 and of 9,212 bytes; a readable frame and one in a hole; rings off and on. -/
theorem witness_TimeAndRings :
    let s := tXp tRsp
    let v : Word := 0x003C0000
    let b := { s with mgmt := { busy := true, cur := (0, 60, 0x30000) } }
    1000000000 ≤ (1000000000 : BitVec 64).toInt ∧ (999999999 : BitVec 64).toInt < 1000000000 ∧ (0xC000000000000000 : BitVec 64).toInt < 1000000000 ∧
    s.mgmt.busy = false ∧ 60 ≤ (fld v 16 14 : BitVec 14).toNat ∧ (fld 0x23FC0000 16 14 : BitVec 14).toNat = 9212 ∧ 9212 < (fld 0x23FD0000 16 14 : BitVec 14).toNat ∧
    (portGet s (fld v 0 7 : BitVec 7).toNat).state = 2 ∧ (portGet s (fld 0x003C0001 0 7 : BitVec 7).toNat).state ≠ 2 ∧
    inHbm b 0x30000 60 = true ∧ resolve b 0x30000 = .hbm 0x30000 ∧ 0x30000 % 4096 + 60 ≤ 4096 ∧ (portGet b 0).paused = [] ∧ inHbm b 0x05FFFFFFFFC0 60 = false ∧
    s.mgmt.ringEn = false ∧ s.pace.ringEn = false ∧ ({ s.pace with ringEn := true } : Pace).ringEn = true := by decide


/-! ## Media -/

/-- Media of one LUN (channel 0, target 1): 16 erase units of 8,192 codewords; unit 64 + 2^14 closed, the next open with logical unit 5 in it, a strand program and an erase under way. -/
def tMedia : Media :=
  { state := 2, planes := 1, cwpp := 1, pages := 8191, units := 15, usable := [1], good := 16, formatted := true, userLbas := 100000, metaLbas := 64, objUnits := 1
    retries := 3, spareInit := 8, spareLeft := 8, spareMin := 2
    nand := [(64 + 2 * 2 ^ 14, { seq := 1, lba := 5, kind := 0, ec := 0, data := [] })], mapUnits := [(5, 64 + 2 * 2 ^ 14)]
    table := [(64 + 2 ^ 14, { st := .closed }), (64 + 2 * 2 ^ 14, { st := .opened })]
    reads := [{ loc := 64 + 2 * 2 ^ 14 }, { loc := 64 + 2 * 2 ^ 14 + 2 ^ 30, step := 5 }]
    progs := [{ loc := 64 + 2 * 2 ^ 14 + 2 ^ 30, strand := true, num := 3, seq := 9, data := [], src := none }]
    erases := [64 + 3 * 2 ^ 14] }
def tFlash (m : Media) : State := { tDev with pwr := { asserted := false, stage := 8, holdNand := false }, media := m }

/-- A read asked for, at the first step of the ladder and past its last; a program of 64 codewords; an erase; a silent target; a channel. -/
theorem witness_FlashCells :
    let s := tFlash tMedia
    let m := s.media
    let l := 64 + 2 * 2 ^ 14
    s.pwr.holdNand = false ∧ tDev.pwr.holdNand = true ∧ m.wbuf = [] ∧ m.spareMin.toNat + 1 < m.spareLeft.toNat ∧
    (m.reads.find? fun r => r.loc = l && r.result.isNone) = some { loc := l } ∧ (kvGet m.nand l).isSome = true ∧ (0 : Nat) < m.retries + 2 ∧
    (m.reads.find? fun r => r.loc = l + 2 ^ 30 && r.result.isNone) = some { loc := l + 2 ^ 30, step := 5 } ∧ m.retries + 2 ≤ 5 ∧ kvGet m.nand (l + 2 ^ 30) = none ∧
    (m.progs.find? fun p => p.loc = l + 2 ^ 30).isSome = true ∧ (∀ p ∈ m.progs, p.loc ≠ l) ∧
    ((List.range 64).map fun i => locAt m (locUnit (l + 2 ^ 30)) (locNum m (l + 2 ^ 30) + i)).Nodup ∧
    (progStart m (true, 3) [] none [64]).isSome = true ∧ locUnit (64 + 3 * 2 ^ 14) ∈ m.erases ∧ 64 ∉ m.erases ∧
    1 ∈ m.usable ∧ 1 ∉ m.dead ∧ 0 ∉ m.usable ∧ (∀ p ∈ ({ m with progs := [] } : Media).progs, locTarget p.loc ≠ 1) := by decide +kernel

/-- A relocation overtaken by a write, and one not. -/
theorem witness_Relocation : mapGet tMedia (false, 5) = some (64 + 2 * 2 ^ 14) ∧ mapGet tMedia (false, 5) ≠ some 64 := by decide

/-- Collection not begun, running and at its end; FORMAT refused and accepted; a spare limit; what recovery finds. -/
theorem witness_MapAndRecovery :
    let s := tFlash tMedia
    let m := s.media
    let v : Word := 0x800000000001046A
    (64 ∈ mediaLuns m ∧ 0 ∉ mediaLuns m ∧ kvGet m.gc 64 = none ∧ m.gcLow.toNat < (lunFree m 64).length ∧
      (lunFree (tFlash { tMedia with gcLow := 14 }).media 64).length ≤ (14 : BitVec 8).toNat ∧ gcVictim (tFlash { tMedia with gcLow := 14 }) 64 = some (64 + 2 ^ 14)) ∧
    (kvGet (tFlash { tMedia with gc := [(64, none)], gcHigh := 9 }).media.gc 64 = some none ∧ 9 ≤ (lunFree m 64).length ∧
      kvGet (tFlash { tMedia with gc := [(64, some (64 + 2 ^ 14))] }).media.gc 64 = some (some (64 + 2 ^ 14))) ∧
    (64 + 2 ^ 14 ∉ m.erases ∧ unitLive m (64 + 2 ^ 14) = [] ∧ (∀ p ∈ m.progs, locUnit p.loc ≠ 64 + 2 ^ 14 ∧ p.src.map locUnit ≠ some (64 + 2 ^ 14)) ∧
      (∀ r ∈ m.reads, r.result.isNone = true → locUnit r.loc ≠ 64 + 2 ^ 14) ∧ (euGet m (64 + 2 ^ 14)).st = .closed) ∧
    (v.getLsbD 63 = true ∧ m.state ≠ 1 ∧ m.state ≠ 5 ∧ storageBusy s = false ∧ s.jobs = [] ∧ bitsAt v.toNat 0 4 = 10 ∧ bitsAt v.toNat 4 12 = 70 ∧ bitsAt v.toNat 16 24 = 1 ∧
      1 ≤ (layoutLbas m 10 70).2) ∧
    (m.state = 2 ∧ (7 : BitVec 32) ≠ 0 ∧ (7 : BitVec 32).toNat < m.spareInit.toNat ∧ m.spareInit.toNat ≤ (8 : BitVec 32).toNat) ∧
    (let r : MediaFound := { targets := [1], odd := [], erased := false, anchor := true, newer := false, older := true, planes := 1, cwpp := 1, pages := 8191, units := 15, luns := 0, tgts := 0, peLimit := 0, retries := 3, bad := [], mirror := true }
     let t := tFlash { tMedia with state := 1 }
     t.media.state = 1 ∧ 7 ≤ t.pwr.stage.toNat ∧ t.pwr.asserted = false ∧ t.host.latchedGo = [] ∧ r.targets ≠ [] ∧ t.media.formatted = true ∧ (tFlash {}).media.formatted = false) := by
  decide +kernel

/-- A log that has grown by 1 GiB. -/
theorem witness_LogGrown (r : LogRec) : 2 ^ 25 ≤ (List.replicate (2 ^ 25) r).length - ({} : MapImage).start := by
  simp only [List.length_replicate]; decide


/-! ## Host interface -/

/-- A device in PS0 at stage 8 over a trained link with READY media, journal in service, ring 0 enabled; slot 0 holds an accepted command with this area, slot 5 one of a lower JSN. -/
def tHost (area : Mem) (phase : Nat := 0) : State :=
  { tFlash tMedia with
    host := { trained := true, perst := true, linkCxl := true, accepted := true, enable := true, reload := false, mirrorOk := true, hdmLocked := true, hdmSize := 4, jnext := 9
              crings := [(0, { en := true })]
              slots := [(0, { state := 1, jsn := 8, area := area, latched := area, phase := phase }), (5, { state := 1, jsn := 7, latched := [(0, 6)] })] } }
/-- The same without slot 5's command. -/
def tHost1 (area : Mem) (phase : Nat := 0) : State :=
  { tHost area with host := { (tHost area).host with slots := [(0, { state := 1, jsn := 8, area := area, latched := area, phase := phase })] } }

/-- GOs to a free slot, a slot in use, with the host not accepted, with the journal not up and outside PS0; completions with and without a ring, full and masked; waiting entries; the mirror; tests with and without other commands. -/
theorem witness_HostInterface :
    let s := tHost [(0, 1), (1, 1)]
    let n := { s with host := { s.host with accepted := false } }
    let w := { s with host := { s.host with reload := true } }
    let p := { s with pwr := { s.pwr with state := 1 } }
    let r : CRing := { en := true, sizeLog2 := 4, head := 16, waiting := [zeros 32] }
    let f := { s with host := { s.host with crings := [(0, r)] } }
    (s.host.trained = true ∧ (slotGet s 0).state = 1 ∧ (slotGet s 1).state ≠ 1 ∧ s.host.accepted = true ∧ journalUp s = true ∧ inPs0 s = true ∧ inPs0 p = false ∧
      hostOp 0 = false ∧ hostOp 1 = true ∧ n.host.accepted = false ∧ journalUp w = false ∧ w.host.accepted = true ∧ (tabGet 0 (slotGet s 1).area 0).toNat = 0) ∧
    (bitOf (areaNat (slotGet s 0) 1 1) 0 = true ∧ bitOf (areaNat (slotGet s 5) 1 1) 0 = false ∧ (cringGet s 0).en = true ∧ cringFull (cringGet s 0) = false ∧ (cringGet s 0).waiting = [] ∧
      cringFull (cringGet f 0) = true ∧ (cringGet s 0).sent = false ∧ bitOf (msixDword s 3) 0 = true ∧ bitOf (msixDword { s with host := { s.host with msixTab := [(1, 0x100000000)] } } 3) 0 = false) ∧
    (cringFull { r with tail := 16 } = false ∧ { r with tail := 16 }.en = true ∧ (0x2A : Word).getLsbD 5 = true ∧ (fld 0x2A 0 5 : BitVec 5) = 10) ∧
    (mirrorOk s = true ∧ mirrorOk State.reset = false ∧ testBusy s = true ∧
      testBusy { tHost1 [(0, 6)] with media := { tMedia with reads := [] } } = false) ∧
    ((0x10001 : Word).getLsbD 16 = true ∧ (fld 0x10001 0 8 : BitVec 8).toNat = 1 ∧ (fld 0x10001 8 8 : BitVec 8).toNat = 0 ∧ 7 ≤ s.pwr.stage.toNat) := by decide

/-- READ: accepted with its media up, waiting for an earlier write, for flash, past the end, and with an error. -/
theorem witness_StorageCommandsRead :
    let rd := tHost1 [(0, 1), (0x08, 5), (0x10, 1), (0x21, 0x10)]
    let dn := { rd with media := { tMedia with state := 1 } }
    let s := { rd with media := { tMedia with mapUnits := [], reads := [] } }
    let e := { rd with media := { tMedia with progs := [], reads := [{ loc := 64 + 2 * 2 ^ 14, result := some (stMediaUnc, []) }] } }
    (Runs rd 0 1 = true ∧ slotRuns rd 0 2 = false ∧ mediaUp rd = true ∧ Runs dn 0 1 = true ∧ dn.media.state ≠ 2 ∧ dn.media.state ≠ 3) ∧
    (slotRuns (tHost [(0, 1), (0x30, 1)]) 0 1 = true ∧ slotFieldsOk rd (slotGet (tHost [(0, 1), (0x30, 1)]) 0) = false) ∧
    (storageWaits rd (slotGet rd 0) = false ∧ areaNat (slotGet rd 0) 8 8 + 1 ≤ rd.media.userLbas ∧ (lbasFetch rd (rangeFrom 5 1)).1 = none ∧ rd.media.userLbas < 100000 + 1 ∧
      storageWaits { rd with host := { rd.host with slots := rd.host.slots ++ [(5, { state := 1, jsn := 7, latched := [(0, 2), (0x08, 5), (0x10, 1)] })] } } (slotGet rd 0) = true) ∧
    (Runs s 0 1 = true ∧ lbaFetch s 5 = (some (stOk, []), s)) ∧ (Runs e 0 1 = true ∧ (lbasFetch e (rangeFrom 5 1)).1 = some (stMediaUnc, [])) := by decide +kernel

/-- WRITE before and after its data is in the buffer, durable and not; READ_ONLY media. -/
theorem witness_StorageCommandsWrite :
    let wr := tHost1 [(0, 2), (0x08, 9), (0x10, 1), (0x21, 0x10)]
    let fua := tHost1 [(0, 2), (1, 4), (0x08, 9), (0x10, 1), (0x21, 0x10)] 1
    let ro := { wr with media := { tMedia with state := 3 } }
    (Runs wr 0 2 = true ∧ storageWaits wr (slotGet wr 0) = false ∧ 1 ≤ wbufRoom wr ∧ wr.media.state = 2 ∧ (slotGet wr 0).phase ≠ 1 ∧ Runs ro 0 2 = true ∧ mediaUp ro = true) ∧
    (bitOf (areaNat (slotGet fua 0) 1 1) 2 = true ∧ (slotGet fua 0).phase = 1 ∧ Runs fua 0 2 = true ∧ (durable fua fun l => decide (9 ≤ l ∧ l < 9 + 1)).1 = true ∧
      (durable fua fun _ => true).1 = false) := by decide +kernel

/-- FLUSH with and without programs in flight; TRIM, IDENTIFY and GET_LOG; tests that run and do not. -/
theorem witness_StorageCommandsRest :
    let fl := tHost1 [(0, 3)]
    let tr := tHost1 [(0, 4), (0x08, 5), (0x10, 1)]
    let st := tHost1 [(0, 6), (0x08, 1)]
    let lg := tHost1 [(0, 7), (0x08, 3), (0x10, 1), (0x20, 64), (0x28, 1)]
    let q := { fl with media := { tMedia with progs := [] } }
    (Runs fl 0 3 = true ∧ fl.pwr.holdNand = false ∧ fl.media.wbuf = [] ∧ (∃ p ∈ fl.media.progs, p.src = none) ∧ q.media.progs = [] ∧ q.pwr.holdNand = false ∧ Runs q 0 3 = true) ∧
    (Runs tr 0 4 = true ∧ tr.media.state = 2 ∧ storageWaits tr (slotGet tr 0) = false ∧ Runs { tr with media := { tMedia with state := 3 } } 0 4 = true) ∧
    (Runs (tHost1 [(0, 5), (0x21, 0x10)]) 0 5 = true ∧ Runs lg 0 7 = true ∧ lg.host.jnext.toNat ≤ 1 + 2 ^ 20 ∧ (∀ e ∈ lg.host.journal, e.2.length = 64) ∧ logItems lg 2 0 1 = (stOk, [])) ∧
    (Runs st 0 6 = true ∧ st.host.test = none ∧ Runs { st with host := { st.host with test := some { slot := 0, kind := 1 } } } 0 6 = true ∧
      Runs { st with host := { st.host with test := some { slot := 5, kind := 1 } } } 0 6 = true) := by decide +kernel

/-! ## Jobs -/

/-- A program: a header of R114 at this address of host memory. -/
def tVoxb (a : Nat) : Mem := [(a, 0x56), (a + 1, 0x4F), (a + 2, 0x58), (a + 3, 0x42), (a + 4, 2), (a + 6, 64)]
/-- Loaded program 0 of generation 1. -/
def tProg : Program := { gen := 1, loaded := true, size := 64, place := 0x40000, hash := zeros 32, profile := 0, entry := 64, flags := 0 }
/-- A job descriptor of 4,800 bytes at this address: job 9 of one device, STRICT, free-running, one program, one input, one launch on tile 0. -/
def tDescr (a : Nat) : Mem :=
  [(a, 0x53), (a + 1, 0x4A), (a + 2, 0x4F), (a + 3, 0x42), (a + 4, 1), (a + 6, 9), (a + 8, 0xC0), (a + 9, 0x12), (a + 0x0C, 1), (a + 0x0F, 20), (a + 0x10, 1), (a + 0x14, 0xEE), (a + 0x15, 2),
   (a + 0x23, 1), (a + 0x24, 0xA0), (a + 0x25, 0x86), (a + 0x26, 1), (a + 0x28, 1), (a + 0x34, 100), (a + 0x38, 1), (a + 0x3C, 1), (a + 0x50, 1),
   (a + 0x61, 1), (a + 0x69, 1), (a + 0x70, 0x40), (a + 0x71, 1), (a + 0x78, 0x80), (a + 0x79, 1), (a + 0x80, 0xC0), (a + 0x81, 1), (a + 0x88, 0xC0), (a + 0x89, 0x11),
   (a + 0x90, 0x40), (a + 0x91, 0x12), (a + 0x98, 0x80), (a + 0x99, 0x12), (a + 0xA0, 0x80), (a + 0xA1, 0x12), (a + 0xA8, 0x80), (a + 0xA9, 0x12), (a + 0x102, 1), (a + 0x144, 1)]
/-- The object entry of file 1 << 32 and the header of its CANE file of one record, each with its CRC. -/
def tEntry : Mem :=
  let e : Mem := [(0, 1), (4, 1), (8, 4), (0x10, 2), (0x20, 1)]
  e ++ memOfBytes 0x3C (leBytes 4 (crc32c (memBytes e 0 0x3C)))
def tCane : Mem :=
  let e : Mem := [(0, 0x43), (1, 0x41), (2, 0x4E), (3, 0x45), (4, 1), (6, 1), (8, 1), (0x10, 100), (0x18, 1)]
  e ++ memOfBytes 0x54 (leBytes 4 (crc32c (memBytes e 0 0x54)))
/-- A JOB_START in slot 0 with the descriptor at 0x1000000, its program loaded, and its input's file in the write buffer. -/
def tStart : State :=
  let s := tHost1 [(0, 0x22), (0x1B, 1), (0x20, 0xC0), (0x21, 0x12)]
  { s with
    hostMem := tDescr 0x1000000, media := { tMedia with wbuf := [(0, tEntry), (4, tCane)] }
    host := { s.host with programs := [(0, tProg)] } }
def tLaunch : Launch := { area := 0x100000, ttb := 0, pkr0 := 0, pkr1 := 0, tsBase := 0, tsSize := 0, xvec := 0, va := 0 }
/-- A host command with job 7 running, with a commit configuration. -/
def tJobs (area : Mem) (c : Option CommitCfg) : State := { tHost1 area with jobs := [{ tJob with commit := c }] }
def tCfg : CommitCfg := { k := 10, imgA := 0x2000000, imgB := 0x4000000, cap := 0x1000000, regions := [] }
def tImg : CommitImg := { job := 7, base := 0x2000000, cap := 0x1000000, second := false, length := 64, batch := 10, complete := true }


/-- PROGRAM_LOAD accepted with a good header, a bad one and full; PROGRAM_UNLOAD of a program, in use and unknown. -/
theorem witness_JobCommandsPrograms :
    let s := { tHost1 [(0, 0x20), (0x19, 1), (0x20, 64)] with hostMem := tVoxb 256 }
    let f := { s with host := { s.host with programs := (List.range 256).map fun i => (i, tProg) } }
    let u := { tHost1 [(0, 0x21), (0x0A, 1)] with host := { (tHost1 [(0, 0x21), (0x0A, 1)]).host with programs := [(0, tProg)] } }
    (Runs s 0 0x20 = true ∧ areaNat (slotGet s 0) 0x20 8 = 64 ∧ inHbm s 0x40000 64 = true ∧ binaryOk (memBytes s.hostMem 256 64) = true ∧ binaryOk (memBytes s.hostMem 512 64) = false ∧
      (kvGet s.host.programs 0).any (·.loaded) = false ∧ (physWrite s 0x40000 64 (memSlice s.hostMem 256 64)).1 = stOk ∧ (physWrite s 0x40000 64 (memSlice s.hostMem 256 64)).2.host = s.host) ∧
    (∀ i < 256, (kvGet f.host.programs i).any (·.loaded) = true) ∧
    (Runs u 0 0x21 = true ∧ areaNat (slotGet u 0) 8 8 = 65536 ∧ (programGet u 65536).isSome = true ∧ programGet s 65536 = none ∧ jobsAll u = [] ∧
      65536 ∈ ({ tJob with programs := [65536] } : Job).programs) ∧
    (slotRuns u 0 0x20 = false ∧ slotRuns (tHost [(0, 0x21), (0x30, 1)]) 0 0x21 = true ∧ slotFieldsOk u (slotGet (tHost [(0, 0x21), (0x30, 1)]) 0) = false) := by decide +kernel


/-- The descriptor as JOB_START reads it. -/
def tBytes : Bytes := memBytes tStart.hostMem 0x1000000 4800

/-- The descriptor passes the checks of step 1. -/
theorem witness_JobCommandsDescr : jobDescOk tStart tBytes 4800 = true := by
  have keys : (sectEntries tBytes (sectOff tBytes 4) 256 16).all (keyOk (subNat tBytes 0x23 1)) = true := by
    rw [show sectOff tBytes 4 = 0x1C0 from by decide +kernel, show subNat tBytes 0x23 1 = 1 from by decide +kernel]
    have free : ∀ e ∈ tDescr 0x1000000, e.1 < 0x10001C0 ∨ 0x10011C0 ≤ e.1 := by decide +kernel
    have h : sectEntries tBytes 0x1C0 256 16 = List.replicate 256 (zeros 16) := by
      have z : sectEntries tBytes 0x1C0 256 16 = (List.range 256).map fun _ => zeros 16 := by
        unfold sectEntries tBytes
        refine List.map_congr_left fun i hi => ?_
        have := List.mem_range.mp hi
        rw [sub_memBytes _ _ _ _ _ (by omega)]
        exact memBytes_zeros _ _ _ fun e he => by have := free e he; omega
      rw [z]; rfl
    rw [h]; decide +kernel
  have head : jobHeaderOk tBytes 4800 = true := by decide +kernel
  have sects : jobSectsOk tBytes 4800 = true := by decide +kernel
  have entries : jobEntriesOk tStart tBytes = true := by
    unfold jobEntriesOk
    simp only [keys, Bool.and_true, Bool.and_eq_true]
    refine ⟨⟨⟨⟨⟨?_, ?_⟩, ?_⟩, ?_⟩, ?_⟩, ?_⟩ <;> decide +kernel
  unfold jobDescOk
  rw [head, sects, entries]
  decide +kernel

/-- The input of the descriptor. -/
def tInput : JobInput := { obj := 0x100000000, root := zeros 32, copies := [{ obj := 0x100000000 }] }

/-- Its input passes step 3. -/
theorem witness_JobCommandsInput : (inputsCheck tStart [tInput]).1.any (fun x => x.1 = stOk && decide (jobSamples { tJob with inputs := x.2 } = 1)) = true := by decide +kernel

/-- A JOB_START whose descriptor, programs and input pass, for one device and for two; one whose input is still being read, and one that has none. -/
theorem witness_JobCommandsStart :
    let s := tStart
    let w := { s with media := { tMedia with reads := [], mapUnits := [(0, 64 + 2 * 2 ^ 14)] } }
    let o := { s with jobs := [tJob] }
    (Runs s 0 0x22 = true ∧ s.starting = [] ∧ (jobOfDesc s tBytes).programs = [65536] ∧ (programGet s 65536).any (fun p => !p.flags.getLsbD 0) = true ∧ subNat tBytes 0x28 2 = 1 ∧
      (jobOfDesc s tBytes).paced = false ∧ jobsAll s = [] ∧ (jobLaunches tBytes).length = 1 ∧ sectSize tBytes 1 = 0 ∧ launchesOk s 1 [tLaunch] 0 0 = true) ∧
    (jobOfDesc s tBytes).inputs = [tInput] ∧
    ((inputsCheck w [tInput]).1 = none ∧ (inputsCheck { w with media := tMedia } [tInput]).1.any (fun x => x.1 ≠ stOk) = true ∧ jobDescOk s (zeros 64) 64 = false) ∧
    ((∀ y ∈ jobsAll o, y.paced = false) ∧ (jobsAll o).length < 64 ∧ ({ tJob with devices := 2 } : Job).devices ≠ 1 ∧ jobsAll o ≠ []) := by decide +kernel

/-- JOB_STOP at once and at the next commit point, JOB_WAIT of a running, an ended and an unknown job, CHECKPOINT with and without an image. -/
theorem witness_JobCommandsEnd :
    let a := tJobs [(0, 0x23), (0x08, 7)] (some tCfg)
    let w := tJobs [(0, 0x24), (0x08, 7)] none
    let e : ExitRec := { num := 7, status := stOk, delivered := 5, firstNot := 6, fpB := [], fpT := [], substitutions := 0, strict := true, paced := false, consumers := 1, seedCommit := [],
                         hashes := [], roots := [], spare := [] }
    let x := { w with jobs := [], host := { w.host with exits := [e] } }
    let c := { tJobs [(0, 0x25), (0x08, 7), (0x1B, 1), (0x21, 1)] (some tCfg) with images := [tImg] }
    (Runs a 0 0x23 = true ∧ areaNat (slotGet a 0) 0x10 8 = 0 ∧ (jobArg a 7).isSome = true ∧ commitNext { tJob with commit := some tCfg } ≠ none ∧ commitNext tJob = none ∧
      jobArg x 7 = none ∧ exitOf x 7 = some e ∧ exitOf a 7 = none ∧ Runs x 0 0x24 = true ∧ Runs w 0 0x24 = true ∧ jobArg w 7 ≠ none) ∧
    (Runs c 0 0x25 = true ∧ jobArg c 7 ≠ none ∧ (c.images.filter fun i => i.job.toNat = 7 && i.complete) = [tImg] ∧ (a.images.filter fun i => i.job.toNat = 7 && i.complete) = [] ∧
      0x80 + tImg.length ≤ 256 ∧ areaNat (slotGet c 0) 0x20 8 = 256 ∧ (physRead c tImg.base (0x80 + tImg.length)).1 = stOk ∧ (physRead c tImg.base (0x80 + tImg.length)).2.2.host = c.host) := by
  decide +kernel


/-- SPARE_REMAP of a failed tile, of a running one, and onto a slot that is no spare; pairing; joining and leaving. -/
theorem witness_JobCommandsUnits :
    let r := { tHost1 [(0, 0x26), (0x10, 0xFF)] with units := [(64, { st := .failed })] }
    let l := { tJobs [(0, 0x27), (0x08, 7), (0x28, 1)] (some tCfg) with qps := [(0, { state := .ready })] }
    let g := tHost1 [(0, 0x28), (0x08, 1), (0x10, 2)]
    let h := tHost1 [(0, 0x28), (0x08, 1), (0x10, 2), (0x19, 1), (0x21, 8), (0x28, 5), (0x2F, 0x80)]
    let v := { tHost1 [(0, 0x29), (0x08, 1)] with devGroup := 1 }
    (Runs r 0 0x26 = true ∧ r.host.remap = none ∧ r.flt.busy = false ∧ (unitGet r (tileUcb 0)).st = .failed ∧ (unitGet r (tileUcb 0)).busy = false ∧ (unitGet g (tileUcb 0)).st = .running ∧
      (sparesOf r 0).head?.isSome = true ∧ 3 ∉ sparesOf r 0 ∧ slotOf r 0 ∉ sparesOf r 0 ∧ sparesOf { r with slotStates := (List.range 18).map fun i => (i, .fieldRetired) } 0 = []) ∧
    (Runs l 0 0x27 = true ∧ (slotGet l 0).phase ≠ 1 ∧ (jobArg l 7).isSome = true ∧ commitNext { tJob with commit := some tCfg } ≠ none ∧ l.flt.lsState = 0 ∧ (qpGet l 0).state ≠ .free ∧
      (qpGet l 0).transport.toNat < 2 ∧ (qpGet l 1).state = .free ∧ Runs (tHost1 [(0, 0x27), (0x08, 7)]) 0 0x27 = true ∧ jobArg g 7 = none) ∧
    (Runs g 0 0x28 = true ∧ jobsAll g = [] ∧ g.devGroup = 0xFF ∧ Runs h 0 0x28 = true ∧ bitOf (areaNat (slotGet h 0) 0x28 8) 63 = true ∧ bitsAt (areaNat (slotGet h 0) 0x28 8) 8 55 = 0 ∧
      2048 ≤ areaNat (slotGet h 0) 0x20 8 ∧ Runs v 0 0x29 = true ∧ v.devGroup.toNat = 1) := by decide +kernel


/-- An agreement of device 1 that has read its verdict, good and bad. -/
theorem witness_JobCommandsAgreement :
    let x : Starting := { slot := 0, job := { tJob with self := 1, devices := 2 }, list := [], launches := [], param := 0, paramData := [], oldMult := 16, oldVcore := 750, wrote := true, sink := some 3 }
    let s := { tHost1 [(0, 0x22)] with starting := [x], sinks := [(3, { status := some stOk, data := [(2, 1)] })] }
    (s.starting.find? fun y => y.slot = (0 : Fin 8192).val) = some x ∧ (slotGet s 0).state = 1 ∧ x.job.self ≠ 0 ∧ x.wrote = true ∧ x.sink = some 3 ∧
      memNat [(2, 1)] 2 1 = 1 ∧ memNat [(2, 1)] 0 2 = 0 ∧ memNat [(0, 5), (2, 1)] 0 2 ≠ 0 ∧ memNat [(0, 5), (2, 1)] 2 1 = 1 ∧ (∀ y ∈ s.starting, y.slot ≠ (1 : Fin 8192).val) := by decide +kernel

/-! ## Memory health, commits and recovery -/

/-- A Lehr pass at rest and running; a canary at its limit and below; health records. -/
theorem witness_MemoryAndRecoveryLehr :
    let l := { tDev with lehr := { start := 64, len := 4096 } }
    let b := { tDev with lehr := { busy := true, len := 4096, pass := (4096, 4096, 0) } }
    let c := { tDev with flt := { canaryLimit := 1 }, silicon := [(slotUcb 0, { mass := 5 })] }
    (l.lehr.busy = false ∧ l.lehr.len.toNat ≠ 0 ∧ l.lehr.len.toNat % 64 = 0 ∧ oneHbmRange (l.lehr.start.toNat * 64) l.lehr.len.toNat = true ∧ (fld 0x1 8 5 : BitVec 5).toNat ≤ 20 ∧
      oneHbmRange (State.reset.lehr.start.toNat * 64) State.reset.lehr.len.toNat = true ∧ State.reset.lehr.len.toNat = 0) ∧
    (b.lehr.busy = true ∧ (1 : Word).getLsbD 1 = false ∧ b.lehr.ctrEn = false ∧ b.hbmErr = [] ∧ ({ b with lehr := { b.lehr with ctrEn := true } } : State).lehr.ctrEn = true) ∧
    (backed c 0 = true ∧ backed { c with unbacked := [0] } 0 = false ∧ slotIdx c 0 < 864 ∧ c.flt.canaryLimit.toNat ≤ 1 ∧ (siliconGet c (slotUcb (slotIdx c 0))).trDone = false ∧
      ¬ tDev.flt.canaryLimit.toNat ≤ 1 ∧ kvGet c.silicon (slotUcb 0) = some { mass := 5 }) := by decide +kernel

/-- A fault block: opcode, job or slot, and what else is given. -/
def tBlock (op : Byte) (l : Mem) : Bytes := memBytes ((0, op) :: l) 0 128
/-- The fault unit holds this block. -/
def tFault (b : Bytes) (js : List Job) : State := { tDev with flt := { busy := true, block := some b }, jobs := js }

/-- Fault commands waiting and accepted; MARGIN on a spare slot with and without failures; COMMIT_SET; RECOVER of each kind. -/
theorem witness_MemoryAndRecoveryFaults :
    let w := { tDev with hbm := [(0, 3), (2, 1), (0x8000, 3), (0x10000, 0x3D)], flt := { cmdAddr := 0x100 } }
    let m := tBlock 3 [(4, 16), (8, 1), (9, 15)]
    let c := tBlock 1 [(2, 9), (4, 10), (0x12, 0x10), (0x1A, 0x20), (0x21, 0x10), (0x2A, 0x30), (0x30, 1)]
    let r := tBlock 2 [(2, 7), (8, 10)]
    let x := { tJob with commit := some tCfg }
    let v := tFault r [x]
    let i := { v with images := [tImg], units := [(64, { st := .running })] }
    (w.flt.busy = false ∧ fltOp w = 3 ∧ fltOp tDev ≠ 1 ∧ inHbm w (w.flt.cmdAddr.toNat * 128) 128 = true ∧ (physRead w (w.flt.cmdAddr.toNat * 128) 128).1 = stOk ∧
      (physRead w (w.flt.cmdAddr.toNat * 128) 128).2.2.host = w.host) ∧
    (let s := tFault m []
     s.flt.busy = true ∧ s.host.remap = none ∧ subNat m 0 1 = 3 ∧ blkZero m 1 4 = true ∧ subNat m 4 4 < 864 ∧ subNat m 8 8 % 16 ≠ 0 ∧ bitsAt (subNat m 8 8) 4 4 = 0 ∧ subNat m 8 8 < 2 ^ 12 ∧
      blkZero m 0x10 0x80 = true ∧ marginSlot s (subNat m 4 4) = true ∧ (0 : BitVec 4) &&& BitVec.ofNat 4 (subNat m 8 8 / 2 ^ 8) = 0 ∧ (2 : BitVec 4) &&& BitVec.ofNat 4 (subNat m 8 8 / 2 ^ 8) ≠ 0 ∧
      marginSlot s 0 = false) ∧
    (let s := tFault c []
     let n := subNat c 0x30 4
     subNat c 0 1 = 1 ∧ blkZero c 1 2 = true ∧ subNat c 2 2 ≠ 0xFFFF ∧ subNat c 4 4 ≤ 65536 ∧ blkZero c 8 0x10 = true ∧ subNat c 0x10 8 % 4096 = 0 ∧ inHbm s (subNat c 0x10 8) (subNat c 0x20 8) = true ∧
      subNat c 0x18 8 % 4096 = 0 ∧ inHbm s (subNat c 0x18 8) (subNat c 0x20 8) = true ∧ n ≤ 4096 ∧ blkZero c 0x34 0x80 = true ∧ s.host.commits.length < 64 ∧
      inHbm s (subNat c 0x28 8) (16 * n) = true ∧ (physRead s (subNat c 0x28 8) (16 * n)).1 = stOk ∧ (physRead s (subNat c 0x28 8) (16 * n)).2.2.host = s.host ∧ inHbm s 0 0 = true) ∧
    (subNat r 0 1 = 2 ∧ blkZero r 1 2 = true ∧ blkZero r 4 8 = true ∧ blkZero r 0x10 0x80 = true ∧ subNat r 8 8 = 10 ∧ jobOf v 7 = some x ∧ jobOf (tFault r []) 7 = none ∧ tJob.commit = none ∧
      v.images = [] ∧ x.strict = true ∧ tCfg.k ≠ 0 ∧ (i.images.find? fun i => i.job = 7 && i.complete && i.batch.toNat = 10) = some tImg ∧
      (∀ L ∈ jobTiles x, backed i L = true ∧ (unitGet i (tileUcb L)).st ≠ .failed) ∧ (∃ L ∈ jobTiles x, (unitGet { i with units := [(64, { st := .failed })] } (tileUcb L)).st = .failed) ∧
      (let s2 := jobUpd (recoverStop { i with flt := { i.flt with block := none } } x) 7 fun y => { y with epoch := y.epoch + 1, replay := some (10, jobHorizon { i with flt := { i.flt with block := none } } 7, i.pace.tick.toNat), agree := none }
       let q := recoverRestore s2 { x with epoch := x.epoch + 1 } tImg tCfg.regions
       q.1 = true ∧ (jobOf q.2 7).isSome = true) ∧ x.devices = 1) := by decide +kernel

/-- A commit point due and drained, held by a pool, written; agreements begun, late and released. -/
theorem witness_MemoryAndRecoveryCommits :
    let x := { tJob with commit := some tCfg }
    let s := { tDev with jobs := [x] }
    let a := { x with self := 1, devices := 2, agree := some (9, 1, 0, false), agWrote := true, agSink := some 3 }
    let e := memOfBytes 0 (agreeEntry a 9 1)
    let g := { tDev with jobs := [a], sinks := [(3, { status := some stOk, data := e })] }
    let k := { a with agree := some (9, 2, 0, true) }
    let p := { s with cul := { pools := [(0, { en := true, fresh := 1, sbase := 0x50 })] }, hbm := [(0, 3), (2, 1), (0x10000, 0x3D), (0x50005, 1), (0x50007, 0x80)] }
    (jobOf tDev 7 = none ∧ jobOf s 7 = some x ∧ commitNext x = some 9 ∧ jobDrained s 7 9 = true ∧ x.agree = none ∧ x.stopAt = false ∧ poolsHeld s (jobQuotas x) = false ∧ commitNext x ≠ some 8) ∧
    (poolsHeld p (jobQuotas x) = true ∧ jobDrained p 7 9 = true ∧ jobOf p 7 = some x) ∧
    (jobOf g 7 = some a ∧ a.agree = some (9, 1, 0, false) ∧ a.self ≠ 0 ∧ a.agWrote = true ∧ kvGet g.sinks 3 = some { status := some stOk, data := e } ∧ memBytes e 0 16 = agreeEntry a 9 1 ∧
      k.agree = some (9, 2, 0, true) ∧ memBytes (memOfBytes 0 (agreeEntry k 9 2)) 0 16 = agreeEntry k 9 2) := by decide +kernel

/-- The image of a commit point fits its area, and does not. -/
theorem witness_MemoryAndRecoveryImage :
    let x := { tJob with commit := some tCfg, units := [] }
    let s := { tDev with jobs := [x] }
    (imageWrite s x tCfg 9).1 = stOk ∧ jobOf (imageWrite s x tCfg 9).2 7 = some x ∧ (imageWrite s x { tCfg with cap := 0 } 9).1 = stCommitSmall ∧
      jobOf (imageWrite s x { tCfg with cap := 0 } 9).2 7 = some x := by decide +kernel

/-- Pairing begun with an equal and a different fingerprint; digests that agree, differ and miss. -/
theorem witness_MemoryAndRecoveryLockstep :
    let s := { tHost1 [(0, 0x27)] with flt := { lsState := 1, lsJob := 7, lsSlot := 0 }, jobs := [tJob] }
    let q := { s with flt := { lsState := 2, own := [(5, 3, zeros 32)] } }
    (s.flt.lsState = 1 ∧ (jobOf s s.flt.lsJob).any (fun j => j.fpB = zeros 32) = true ∧ (jobOf s s.flt.lsJob).any (fun j => j.fpB = [1]) = false ∧ (slotGet s s.flt.lsSlot).state = 1 ∧
      State.reset.flt.lsState ≠ 1 ∧ State.reset.flt.lsState.toNat < 2) ∧
    ((5 : Nat) ≠ lsKeyFpB ∧ q.flt.lsState = 2 ∧ (∀ p ∈ q.flt.peer, ∀ o ∈ q.flt.own, p.1 ≠ o.1) ∧ q.flt.own = [(5, 3, zeros 32)] ∧ (∀ o ∈ q.flt.own, o.1 ≠ 6) ∧ zeros 32 ≠ [1] ∧
      ({ q.flt with own := [] } : Fault17).own = []) := by decide +kernel

/-! ## Reset and power -/

/-- Bring-up stands after this step. -/
def tStage (n : BitVec 4) : State := { pwr := { asserted := false, stage := n } }
def tFuses : Fuses := { good := [0, 1, 2, 3, 4], blocks := [], serial := [], stepping := 0, mac := 0, speedBin := 0, map := [], bad := [], keyd := [], revoked := 0, fwMin := 0, rtMin := 0 }

/-- A pulse during a cold reset in progress and on a running device; each step of bring-up in its turn and out of it. -/
theorem witness_ResetAndBringUp :
    let w := { tStage 2 with pwr := { asserted := false, stage := 2, warm := true } }
    let q := { tHost [(0, 1)] with host := { (tHost [(0, 1)]).host with latchedGo := [3] } }
    (resetting State.reset = true ∧ State.reset.pwr.warm = false ∧ resetting q = false ∧ (slotGet q 0).state = 1 ∧ (slotGet q 3).state ≠ 1) ∧
    (State.reset.pwr.asserted = true ∧ stageIs (tStage 1) 1 = true ∧ (tStage 1).pwr.refclk = true ∧ stageIs (tStage 2) 1 = false ∧ stageIs (tStage 2) 2 = true ∧ w.pwr.warm = true ∧
      fusesGood tFuses = true ∧ fusesGood { tFuses with good := [0, 1, 2, 3] } = false ∧ stageIs (tStage 3) 3 = true ∧ stageIs (tStage 4) 4 = true ∧ stageIs w 2 = true ∧
      stageIs (tStage 5) 5 = true ∧ (0xFFFFFE : BitVec 24) ≠ BitVec.allOnes 24 ∧ stageIs (tStage 7) 7 = true ∧ stageIs (tStage 8) 7 = false) ∧
    ((tStage 6).pwr.asserted = false ∧ (tStage 6).pwr.failed = false ∧ (tStage 6).pwr.fuseFail = false ∧ (tStage 6).pwr.stage.toNat < 8 ∧ 3 ∈ q.host.latchedGo ∧ 0 ∉ q.host.latchedGo) ∧
    (let r := imgCheck (tStage 7) 2 (bankImage (tStage 7) (tStage 7).sec.booted 2)
     r ≠ 0 ∧ (∃ i, i < 864 ∧ slotStateOf (tStage 7) i ≠ .factoryRetired ∧ slotStateOf (tStage 7) i ≠ .fieldRetired)) := by
  refine ⟨by decide +kernel, by decide +kernel, by decide +kernel, by decide +kernel, 0, by decide +kernel⟩


/-- A POWER_STATE to state `t` in slot 0 of a device at stage 8; an entry of that slot with flash at rest. -/
def tPs (t : Byte) (p : Power) : State := { tHost1 [(0, 8), (8, t)] with pwr := { p with asserted := false, stage := 8, holdNand := false }, units := [] }
def tEnter (t : BitVec 2) : State := { tPs 1 { entering := true, psSlot := some 0, target := t } with media := { tMedia with progs := [], erases := [], reads := [] } }

/-- POWER_STATE refused, waiting, accepted and entering each state. -/
theorem witness_PowerStates :
    let e := { tPs 1 {} with host := { (tPs 1 {}).host with slots := (tPs 1 {}).host.slots ++ [(5, { state := 1, jsn := 7 })] } }
    let d := { tPs 1 {} with media := { tMedia with state := 1 } }
    let r := tPs 3 { ret := 5 }
    (Runs (tPs 0 {}) 0 8 = true ∧ Runs (tPs 1 {}) 0 8 = true ∧ Runs (tPs 3 {}) 0 8 = true ∧ (tPs 3 {}).pwr.ret = 0 ∧ mediaUp (tPs 1 {}) = true ∧ jobsAll (tPs 1 {}) = [] ∧
      lowerJsn (tPs 1 {}) 0 = false ∧ lowerJsn e 0 = true ∧ Runs e 0 8 = true ∧ slotRuns (tPs 4 {}) 0 8 = true ∧ Runs d 0 8 = true ∧ mediaUp d = false ∧ Runs r 0 8 = true ∧ r.pwr.ret ≠ 0) ∧
    (∀ t ∈ [(1 : BitVec 2), 2, 3], (tEnter t).pwr.entering = true ∧ (tEnter t).pwr.psSlot = some 0 ∧ (slotGet (tEnter t) 0).state = 1 ∧ psQuiet (tEnter t) = true ∧ (psDurable (tEnter t)).1 = true) ∧
    (psQuiet { tEnter 2 with lehr := { busy := true } } = false ∧ (psDurable { tEnter 2 with media := tMedia }).1 = false) := by decide +kernel

/-- Tiles out of service with no contexts need no saving. -/
theorem ps3_nothing (s : State) (ht : s.tiles = []) : ∀ ls : List Nat, (∀ L ∈ ls, backed s L = false) → ls.foldl ps3SaveTile (stOk, s) = (stOk, s)
  | [], _ => rfl
  | L :: r, h => by
    have e : ps3SaveTile (stOk, s) L = (stOk, s) := by
      simp [ps3SaveTile, tileGet, kvGet, ht, h L (List.mem_cons_self ..)]
    rw [List.foldl_cons, e]
    exact ps3_nothing s ht r fun x hx => h x (List.mem_cons_of_mem _ hx)

/-- A save that has failed stays failed. -/
theorem ps3_failed (a : Status × State) (h : a.1 ≠ stOk) : ∀ ls : List Nat, ls.foldl ps3SaveTile a = a
  | [] => rfl
  | L :: r => by
    have e : ps3SaveTile a L = a := by simp [ps3SaveTile, h]
    rw [List.foldl_cons, e]
    exact ps3_failed a h r

/-- An entry to PS3 with no tile in service; one with a context whose save area does not exist. -/
def tPs3 : State := { tEnter 3 with unbacked := List.range 768 }
def tPs3Bad : State := { tPs3 with tiles := [(0, { hws := [(0, { areaLo := 2 ^ 48, areaHi := 2 ^ 48 })] })] }

/-- PS3 entered with its save done and failed. -/
theorem witness_PowerStatesPs3 :
    ((List.range 768).foldl ps3SaveTile (stOk, psLatch (psDurable tPs3).2)).1 = stOk ∧ ((List.range 768).foldl ps3SaveTile (stOk, psLatch (psDurable tPs3Bad).2)).1 ≠ stOk ∧
      psQuiet tPs3 = true ∧ (psDurable tPs3).1 = true ∧ (psDurable tPs3Bad).1 = true := by
  refine ⟨?_, ?_, by decide +kernel, by decide +kernel, by decide +kernel⟩
  · have h : (psLatch (psDurable tPs3).2).unbacked = List.range 768 := by decide +kernel
    rw [ps3_nothing _ (by decide +kernel) _ fun L hL => by simp [backed, h, List.mem_range.mp hL]]
  · obtain ⟨r, hr⟩ : ∃ r, List.range 768 = 0 :: r := ⟨_, rfl⟩
    have h : (ps3SaveTile (stOk, psLatch (psDurable tPs3Bad).2) 0).1 ≠ stOk := by decide +kernel
    rw [hr, List.foldl_cons, ps3_failed _ h]
    exact h

/-- Wakes during and after an entry; pads, clocks and operating point. -/
theorem witness_PowerStatesWake :
    let p := { tPs 0 { state := 1, wakeEn := 0xF, wakeTimer := 5, wakeStep := 1 } with sec := { gaffer := true } }
    let g := { tPs 0 { coreVrEn := true } with glob := { capW := 100, vcore := 700, trip := 1050 } }
    (inPs0 p = false ∧ inPs0 (tPs 0 {}) = true ∧ p.pwr.wakeTimer ≠ 0 ∧ p.pwr.state ≠ 0 ∧ p.pwr.wakeEn.getLsbD 3 = true ∧ p.pwr.wakeEn.getLsbD 0 = true ∧ p.pwr.fuseFail = false ∧
      p.pwr.wakeStep ≠ 0 ∧ p.pwr.ps3Saved = false ∧ p.sec.gaffer = true) ∧
    (relOk (tPs 0 {}) = true ∧ relOk State.reset = false ∧ (tPs 0 {}).pwr.refclk = true ∧ (tPs 0 { refclk := false }).pwr.refclk = false) ∧
    (g.pwr.coreVrEn = true ∧ capInForce { g.glob with tjMax := 500, powerW := 200 } = some 100 ∧ (100 : Nat) < (200 : BitVec 12).toNat ∧ 550 < min g.glob.vcore.toNat (opPoint g).1 ∧
       100 * (90 : BitVec 12).toNat ≤ 98 * 100 ∧ (500 : BitVec 16).toInt + 20 ≤ (opPoint g).2 ∧ g.glob.tripped = false ∧ g.glob.trip.toInt ≤ (1050 : BitVec 16).toInt ∧
       (900 : BitVec 16).toInt ≤ g.glob.trip.toInt - 100 ∧ (3000 : BitVec 16).toNat ≤ 3000 ∧ 3000 < (3001 : BitVec 16).toNat) := by decide +kernel

/-! ## Security and registers -/

/-- A security block at 0x8000 with these bytes, on a device whose firmware runs, over a trained link. -/
def tSec (l : Mem) : State :=
  { tHost1 [] with
    pwr := { asserted := false, stage := 8 }, sec := { gaffer := true, cmdAddr := 0x100, spdm := { phase := 3, kex := true, session := true }, chain := zeros 8 }
    hbm := [(0, 3), (2, 1)] ++ l ++ [(0x10000, 0x3D)], jobs := [tJob] }

/-- A security block that reads, of each opcode with what it needs; a busy unit. -/
theorem witness_SecurityAndRegistersBlock :
    (∀ l ∈ [[(0x8000, 1), (0x800A, 1), (0x8010, 64)], [(0x8000, 2)], [(0x8000, 3)], [(0x8000, 4), (0x8002, 7), (0x800A, 1), (0x8012, 1)], [(0x8000, 5), (0x8004, (3 : Byte))]],
      let s := tSec l
      s.sec.busy = false ∧ s.sec.gaffer = true ∧ stageIs s 8 = true ∧ inHbm s (s.sec.cmdAddr.toNat * 128) 128 = true ∧ (physRead s (s.sec.cmdAddr.toNat * 128) 128).1 = stOk) ∧
    (let s := tSec [(0x8000, 1), (0x800A, 1), (0x8010, 64)]
     inHbm s 0x10000 64 = true ∧ 64 ≤ 2 ^ 24 ∧ (physRead s 0x10000 64).1 = stOk ∧ inHbm s (2 ^ 48) 64 = false ∧ s.sec.booted = s.sec.active ∧ s.sec.fallback = false ∧
       s.sec.fwKey.toNat ≠ 3 ∧ s.sec.rtKey.toNat ≠ 3 ∧ s.sec.fwKey.toNat = 0 ∧ (attJob s 7).isSome = true ∧ attJob s 8 = none) ∧
    ((attJob (tSec []) 7).all (fun x => decide (attLen x ≤ 0x10000) && decide (0 < attLen x)) = true ∧ inHbm (tSec []) 0x10000 0x10000 = true) := by decide +kernel

/-- SPDM requests heard in their phases, with and without a session. -/
theorem witness_SecurityAndRegistersSpdm :
    let s := tSec []
    let p := { s with sec := { s.sec with spdm := {} } }
    (∀ c ∈ [0x84, 0xE1, 0xE3, 0x81, 0x82, 0x83, 0xE0, 0xE4, 0xE5, (0xEC : Byte)],
      s.host.trained = true ∧ s.sec.gaffer = true ∧ ([0x13, c, 0, 0xFF] ++ zeros 40 : Bytes).getD 1 0 = c ∧ 4 ≤ ([0x13, c, 0, 0xFF] ++ zeros 40 : Bytes).length ∧ 3 ≤ s.sec.spdm.phase) ∧
    (p.sec.spdm.phase < 1 ∧ p.sec.spdm.kex = false ∧ p.sec.spdm.session = false ∧ s.sec.spdm.kex = true ∧ s.sec.spdm.session = true ∧ State.reset.host.trained = false) ∧
    (([0x13, 0x83, 0, 0xFF] ++ zeros 40 : Bytes).getD 2 0 = 0 ∧ 44 ≤ ([0x13, 0x83, 0, 0xFF] ++ zeros 40 : Bytes).length ∧ s.sec.chain.length = 8 ∧ attJob s (BitVec.ofNat 16 (0x81 - 0x80)) = none) := by
  decide +kernel

/-- Register writes over BAR0 and by the device, in each block; the HDM window open and closed; the link. -/
theorem witness_SecurityAndRegistersWrites :
    let s := tSec []
    let bar := fun (o : Nat) => (BitVec.ofNat 64 (2 ^ 63 + o) : Word)
    ((bar 8).getLsbD 63 = true ∧ s.host.trained = true ∧ bitsAt (bar 8).toNat 0 22 = 8 ∧ (bar 8).getLsbD 62 = false ∧ bitsAt (bar 0x1000F8).toNat 0 22 = 0x100000 + 0x80 * 1 + 0x78 ∧
      (slotGet s 0).state = 1 ∧ (slotGet s 1).state ≠ 1 ∧ (1 : Word).getLsbD 0 = true) ∧
    (s.host.linkCxl = true ∧ s.host.hdmLocked = true ∧ (64 : Word).toNat + 64 ≤ s.host.hdmSize.toNat * 2 ^ 30 ∧ (physRead s (hdmBase s * 2 ^ 30 + 64) 64).1 = stOk ∧
      (physPut s (hdmBase s * 2 ^ 30 + 64) [1, 2]).1 = stOk) ∧
    (s.host.perst = true ∧ linkOk true 16 128 = true ∧ linkOk true 2 128 = false ∧ linkOk false 2 8 = true) := by decide +kernel

/-- Device physical addresses of registers and of a unit's block. -/
theorem witness_SecurityAndRegistersPlaces :
    let s := tSec []
    (∀ r ∈ [(0, 0x040), (0, 0x048), (0, 0x080), (2, 0), (3, 0x018), (6, 0x028), (7, 0x1010), (8, 0x1C0), (9, 0x040), (9, 0x028), (11, 0x008), (12, 0)],
      resolve s (0x0E0000000000 + 0x10000 * r.1 + r.2) = .reg r.1 r.2) ∧ (∀ r ∈ [(64, 0x020), (64, 0x188), (1887, 0x020)], resolve s (0x0C0000000000 + 4096 * r.1 + r.2) = .ucb r.1 r.2) ∧ regNoWrite 0 0x040 = false ∧ regNoWrite 12 0 = true := by decide +kernel

/-! ## Steps -/

/-- A queue with a command in front, an empty one with and without the reference clock; memories and tiles in their forms. -/
theorem witness_StepRunsFront :
    let s := { tHost [(0, 1)] with pending := [.bringUp, .wake], tiles := [(0, { hws := [(0, tCtx)] }), (5, {})], ctrs := [(3, 1)], hostMem := [(64, 7)] }
    let n := { s with pending := [], pwr := { s.pwr with refclk := false } }
    s.pending = .bringUp :: [.wake] ∧ n.pending = [] ∧ n.pwr.refclk = false ∧ State.reset.pending = [] ∧ State.reset.pwr.refclk = true ∧ State.reset.nowFrac < 2 ^ 40 ∧ State.reset.ptpRate = 0 ∧
      State.reset.ptpSlew = 0 := by decide +kernel

/-- The same state has its memories and tiles in their forms, and a step answers. -/
theorem witness_StructuresKept :
    let s := { tHost [(0, 1)] with pending := [.bringUp, .wake], tiles := [(0, { hws := [(0, tCtx)] }), (5, {})], ctrs := [(3, 1)], hostMem := [(64, 7)] }
    s.memInv ∧ s.tilesWf = true ∧ ∃ t, step s = .next t := ⟨by unfold State.memInv; decide +kernel, by decide +kernel, _, rfl⟩

/-! ## Values worked out in the manual -/

/-- 01, R26: the tile store of d3.c5.t12, the hole behind it, and counter 1,000. -/
theorem test_addresses : resolve State.reset 0x080077000000 = .tile 476 0 ∧ resolve State.reset 0x080077300000 = .hole ∧ resolve State.reset 0x0F000000FA00 = .ctr 1000 0 := by decide
/-- 16, "The flat interleave table". -/
theorem test_interleave : stackOf State.reset 0x40000000 = (18, 0x2AAA000) ∧ flatOf State.reset 18 0x2AAA000 = 0x40000000 := by decide +kernel
/-- 16, R461: the check byte of word 1, a data bit flipped, two flipped. -/
theorem test_ts_check : tsCheck 1 1 = 0x5C ∧ tsSyn 1 = 0x07 ∧ tsDecode 3 = .uncorrectable := by decide +kernel
/-- 06, R183 and R185. -/
theorem test_scg : scgCounter 0x10 0xABCDEF0123 5 = 0x0010000000ABCDEF0123000000000005 ∧
    scgRound 0 0 0 (0x10, 0x12345678, 0x100, 0x9ABCDEF0) = (0x9ABCDE17, 0x65201A31, 0x12345672, 0x869E360B) := by decide +kernel
/-- 05, R157: 1 + 3/512 in BF16 with two random words. -/
theorem test_stochastic : rndsLa 8 0x12345678 0x101800000 = 0x3F80 ∧ rndsLa 8 0x9ABCDEF0 0x101800000 = 0x3F81 := by decide +kernel
/-- The five products of 05's worked example: 2^24, 1, 1, -2^24 and 0.5. -/
def tProducts : List (FV × FV) :=
  [(0x45800000, 0x45800000), (0x3F800000, 0x3F800000), (0x3F800000, 0x3F800000), (0xC5800000, 0x45800000), (0x3F000000, 0x3F800000)].map fun p => (fpDecode fp32 p.1, fpDecode fp32 p.2)
def tLane (l : List (FV × FV)) : Lane := { l.foldl (fun a p => laneProd a p.1 p.2) ({} : Lane) with terms := l.length }
/-- 05: XDOT and XRND give 2.5 and the lane is split (a)'s; the wide TMMA gives 1.5. -/
theorem test_exact_sum : laneRnd 10 (tLane tProducts) = 0x40200000 ∧ laneRecord 0 (tLane tProducts) = leBytes 8 0xA0440 ++ leBytes 8 0x0A0000000000 ∧
    treeSum 64 (tProducts.map (fun p => fpTo 10 (fvMulV p.1 p.2)) ++ List.replicate 27 0) = 0x3FC00000 := by decide +kernel
/-- 05: the records of splits A and B, and an empty lane 1. -/
theorem test_records : laneRecord 0 (tLane (tProducts.take 2)) = leBytes 8 0x40540 ++ leBytes 8 0x040000000000 ++ leBytes 8 4 ∧
    laneRecord 0 (tLane ((tProducts.drop 2).take 2)) = leBytes 8 0x40548 ++ leBytes 8 0x040000000000 ++ leBytes 8 0xFFFFFFFFFFFFFFFC ∧
    laneRecord 1 { terms := 2 } = leBytes 8 0x48001 := by decide +kernel
/-- 04: the budgets of the TMMA and of the TRND at MULT 16. -/
theorem test_budgets : budgetFixed 2 + tmmaSize 6 6 0 4096 = 707 ∧ budgetFixed 2 + 2 = 26 ∧ budgetFixed 5 = 260 := by decide
/-- 09: the frame of "banana_banana_banana" at level 4: 66 bytes with these ten at its end. -/
theorem test_brl : (brlFrame (ascii "banana_banana_banana").toArray 4 16).length = 66 ∧
    (brlFrame (ascii "banana_banana_banana").toArray 4 16).drop 56 = [0x06, 0x62, 0x61, 0x6E, 0x61, 0x6E, 0x61, 0x5F, 0x89, 0x06] := by decide +kernel
/-- 09: the FRB block of five BF16 values, and what it decodes to. -/
theorem test_frb :
    let b := (frbEncBlock 8 1 (([0x3FC0, 0xBE80, 0x4040, 0x7FC0, 0x3DCD] ++ List.replicate 59 0).map (elemDecode 8))).1
    b.take 13 = leBytes 8 0x108010001 ++ [0x18, 0x22, 0x0C, 0x28, 0x00] ∧ b.length = 64 ∧
      (frbDecBlock 8 1 b).map (·.take 5) = some ([0x3FC0, 0xBE80, 0x4040, 0x7FC0, 0x3E00].map (leBytes 2)) := by decide +kernel
/-- 08: the least input of the claimed PNG. -/
theorem test_png_least : (pngPlan { w := 16384, h := 16384, depth := 8, color := 6, inter := false } 0).least = 1040470 := by decide +kernel
/-- 12: a handle, its buffer, and the levels' bounds. -/
theorem test_cullet :
    let p : Pool := { bufLog2 := 16, addr := 0x800000, count := 4096, wm1 := 16384, wm2 := 8192, wm3 := 2048, hyst := 2048 }
    mkHandle 5 1234 7 = 0x714000004D2 ∧ bufAddr p 1234 = 0x84D20000 ∧ poolLevel p 1024 = 0 ∧ poolLevel p 1023 = 1 ∧ poolLevel p 511 = 2 ∧ poolLevel p 127 = 3 ∧
      poolLevel { p with level := 1 } 1151 = 1 ∧ poolLevel { p with level := 1 } 1152 = 0 := by decide
/-- 12: the modular comparison at the wrap. -/
theorem test_reached : reached 0x10 0xFFFFFFFFFFFFFFF8 = true ∧ reached 0x10 0x18 = false := by decide
/-- 17: three residue mismatches in a day, and the score's climb on the fifth day. -/
theorem test_health : nextScore 12000 1000 50 = 813 ∧ nextScore 9270 813 50 = 813 ∧ nextScore 8691 813 50 = 865 ∧ nextScore 8148 865 50 = 865 ∧ 12000 - 12000 / 2 ^ 4 = 11250 := by decide
/-- 10: "Go", " E", "NDx" with the stop string "END". -/
theorem test_stop :
    let r := detRun [ascii "END"] [ascii "Go", ascii " E", ascii "NDx"] {}
    r.out = ascii "Go " ∧ r.hit = some { id := 0, start := 3, stop := 6 } ∧ r.split = true ∧ r.taken = 3 ∧ (detRun [ascii "END"] [ascii "Go", ascii " E"] {}).held = ascii "E" := by decide +kernel
/-- 07: the FIRSTFIT placements of positions 24 to 31. -/
theorem test_firstfit :
    let c : StreamCfg := { b := 8, c := 2, rows := 4, rowLen := 16, tokenBytes := 2, pack := 2 }
    let l := [(24, 9, 0), (25, 1, 5), (26, 12, 0), (27, 1, 6), (28, 5, 0), (29, 7, 0), (30, 20, 0), (31, 4, 0)].map fun (x : Nat × Nat × Nat) =>
      ((some x.1, some { bytes := leBytes 6 x.1 ++ zeros 18 ++ leBytes 2 x.2.2 ++ zeros 40 }), zeros (2 * x.2.1))
    (packFirstFit c l).1.map (fun p => (p.row, p.start, p.len)) =
      [(some 0, 0, 9), (none, 0, 0), (some 1, 0, 12), (none, 0, 0), (some 0, 9, 5), (some 2, 0, 7), (some 3, 0, 16), (some 1, 12, 4)] := by decide +kernel
/-- 14, R416: the victim scores of units A, B and C by the manual's v, a and e. -/
theorem test_gc : (16 : Int) * (1024 - 256) + 2 * 42 - 4 * 512 = 10324 ∧ 1024 * 6144 / 24576 = 256 ∧ 172800 / 2 ^ 12 = 42 ∧ 1024 * 1500 / 3000 = 512 := by decide
/-- The check value of CRC-32C, and the CRC of 32 zero bytes (09, FILL). -/
theorem test_crc : crc32c (ascii "123456789") = 0xE3069283 ∧ crc32c (zeros 32) = 0x8A9136AA := by decide +kernel
/-- 03, R88: the table indices of the worked example's address. -/
theorem test_indices : bitsAt 0xA3C1F2E4D8C 43 13 = 1 ∧ bitsAt 0xA3C1F2E4D8C 30 13 = 2288 ∧ bitsAt 0xA3C1F2E4D8C 21 9 = 249 ∧ bitsAt 0xA3C1F2E4D8C 16 5 = 14 := by decide

/-! ## Ill-formed commands are refused -/

theorem test_wf_unit : (Instr.holdRelease 4096).wf = false ∧ (Instr.holdRelease 4095).wf = true ∧ (Instr.quiesceDrained 0xF0CA).wf = false ∧ (Instr.quiesceTimeout 0xF0C9).wf = true := by decide
theorem test_wf_slip : (Instr.slip 64 0 0 0).wf = false ∧ (Instr.slip 64 0 1 0).wf = true := by decide
theorem test_wf_codes : (Instr.jpeg 48).wf = false ∧ (Instr.jpeg 47).wf = true ∧ (Instr.tokLoad 63).wf = false ∧ (Instr.mask 111).wf = true ∧ (Instr.marverPermutation 127).wf = false ∧
    (Instr.marverPermutation 175).wf = true ∧ (Instr.submit 198).wf = false ∧ (Instr.submit 197).wf = true := by decide
theorem test_wf_packet : (Instr.writePacket { pkt0 with type := 2 }).wf = false ∧ (Instr.ackPacket { pkt0 with type := 0x10, plen := 1 }).wf = false ∧ (Instr.ackPacket { pkt0 with type := 0x10 }).wf = true := by decide
theorem test_wf_roce :
    let p : RocePkt := { op := .ack, first := true, last := false, dqpn := 0, psn := 0, va := 0, rkey := 0, dmaLen := 0, imm := 0, swapAdd := 0, compare := 0, payload := [] }
    (Instr.roceV2Packet p).wf = false ∧ (Instr.roceV2Packet { p with last := true }).wf = true ∧ (Instr.roceV2Packet { p with op := .write }).wf = true := by decide
theorem test_wf_member :
    let m : Member := { answered := true, state := 8, spares := 0, tdc := 0, counts := [], score := 1000, conf := 0 }
    (Instr.groupRefresh 0 [{ m with state := 9 }]).wf = false ∧ (Instr.groupRefresh 0 [{ m with score := 1001 }]).wf = false ∧ (Instr.groupRefresh 0 [{ m with counts := [(64, 1)] }]).wf = false ∧
      (Instr.groupRefresh 0 (List.replicate 257 m)).wf = false ∧ (Instr.groupRefresh 0 [m]).wf = true := by decide
theorem test_wf_stream : (Instr.reportForward 192 (.request 0 0 0 5 4)).wf = false ∧ (Instr.reportForward 192 (.request 0 0 0 4 5)).wf = true := by decide
theorem test_wf_media :
    let r : MediaFound := { targets := [1023], odd := [], erased := false, anchor := true, newer := false, older := true, planes := 1, cwpp := 1, pages := 0, units := 0, luns := 0, tgts := 0, peLimit := 0,
                            retries := 0, bad := [], mirror := true }
    (Instr.mediaRecovery { r with targets := [1024] }).wf = false ∧ (Instr.mediaRecovery { r with odd := [1024] }).wf = false ∧ (Instr.mediaRecovery { r with anchor := false }).wf = false ∧
      (Instr.mediaRecovery r).wf = true := by decide
theorem test_wf_fuses : (Instr.fuseLoad { tFuses with good := [5] }).wf = false ∧ (Instr.fuseLoad { tFuses with map := [(768, 0)] }).wf = false ∧ (Instr.fuseLoad { tFuses with bad := [864] }).wf = false ∧
    (Instr.fuseLoad tFuses).wf = true := by decide
theorem test_wf_launch : (Instr.runtimeLaunch { tLaunch with area := 1 }).wf = false ∧ (Instr.jobStart 0 [{ tLaunch with tsBase := 700, tsSize := 69 }] 0).wf = false ∧ (Instr.runtimeLaunch tLaunch).wf = true := by decide
theorem test_wf_spdm : (Instr.getVersion [0x10, 0xE1, 0, 0]).wf = false ∧ (Instr.getVersion [0x10, 0x84, 0]).wf = false ∧ (Instr.getVersion [0x10, 0x84, 0, 0]).wf = true := by decide
theorem test_wf_digest : (Instr.lockstepDigest 0 0 (zeros 31)).wf = false ∧ (Instr.lockstepDigest 0 0 (zeros 32)).wf = true := by decide
theorem test_wf_host : (Instr.hdmAccess 60 none 8).wf = false ∧ (Instr.hdmAccess 0 (some [1]) 2).wf = false ∧ (Instr.hdmAccess 0 none 0).wf = false ∧ (Instr.hdmAccess 56 none 8).wf = true ∧
    (Instr.registerWrite 4 0 1).wf = false ∧ (Instr.registerWrite 0xC000000000000004 0 1).wf = true ∧ (Instr.registerWrite 0x0E0000000000 0 1).wf = true := by decide
theorem test_wf_frame : (Instr.frameReceived 0 (zeros 13) true 0).wf = false ∧ (Instr.frameReceived 0 (zeros 14) true 0).wf = true := by decide
theorem test_wf_path : (Instr.rtoExpiry 0 64).wf = false ∧ (Instr.probeTimer 0 63).wf = true := by decide
/-- No word of the table spells a command. -/
theorem test_table : decodeTableWord 32 0 = none := by decide

end Sys2Proof.Machine
end

/-! ## Proofs: one idle period and the front of the queue (O58) -/

namespace Sys2Proof.Machine

/-- With nothing left to correct, no slew is applied (R396). -/
@[simp] theorem slewStep_zero : slewStep 0 = 0 := by decide

/-- Without trim and slew one reference period is a whole number of nanoseconds. -/
theorem timeStep_untrimmed (s : State) (hf : s.nowFrac < 2 ^ 40) (hr : s.ptpRate = 0) (hs : s.ptpSlew = 0) :
    (timeStep s).now = s.now + BitVec.ofNat 64 Config.refPeriodNs ∧ (timeStep s).nowFrac = s.nowFrac := by
  have hx : (s.nowFrac : Int) + nsUnit * Config.refPeriodNs + Config.refPeriodNs * (0 : BitVec 32).toInt + 0 = s.nowFrac + 10 * 2 ^ 40 := by
    simp [nsUnit, Config.refPeriodNs]
  have hq : ((s.nowFrac : Int) + 10 * 2 ^ 40) / nsUnit = 10 := by unfold nsUnit; omega
  have hm : (((s.nowFrac : Int) + 10 * 2 ^ 40) % nsUnit).toNat = s.nowFrac := by unfold nsUnit; omega
  simp only [timeStep, hr, hs, slewStep_zero, hx, hq, hm, and_true]
  rfl

/-- The pace generator's tick after one period (R24, R78). -/
theorem paceStep_tick (s : State) : (paceStep s).pace.tick = if s.pace.running then s.pace.tick + s.pace.mult.setWidth 64 else s.pace.tick := by
  unfold paceStep
  split <;> rfl

/-- The pace generator touches nothing but its tick. -/
theorem paceStep_frame (s : State) :
    (paceStep s).pending = s.pending ∧ (paceStep s).hbm = s.hbm ∧ (paceStep s).now = s.now ∧ (paceStep s).nowFrac = s.nowFrac := by
  unfold paceStep
  split <;> exact ⟨rfl, rfl, rfl, rfl⟩

/-- One idle period with the reference clock: time and pace advance, then events are delivered. -/
theorem tick_of_refclk {s : State} (h : s.pwr.refclk = true) : tick s = eventsDeliver (paceStep (timeStep s)) := by simp [tick, h]

/-- Without the reference clock no time passes; events are delivered all the same (R548). -/
theorem tick_of_no_refclk {s : State} (h : s.pwr.refclk = false) : tick s = eventsDeliver s := by simp [tick, h]

/-- A step runs the command at the front of the queue. -/
theorem step_cons {s : State} {c : Instr} {r : List Instr} (h : s.pending = c :: r) : step s = exec c { s with pending := r } := by simp only [step, h]

/-- A step on an empty queue is one idle period. -/
theorem step_nil {s : State} (h : s.pending = []) : step s = .next (tick s) := by simp only [step, h]

/-- Settles O58: the two arms of `step`, and what an idle period is with and without the reference clock. -/
theorem stepRunsFront : Obligations.StepRunsFront := by
  unfold Obligations.StepRunsFront
  refine ⟨fun _ _ _ h => step_cons h, fun s h => ⟨tick s, step_nil h, rfl⟩, fun s h hc t ht => ?_, fun s h hc => ?_, fun _ _ _ => ⟨rfl, rfl⟩⟩
  · rw [step_nil h, tick_of_no_refclk hc] at ht
    injection ht with ht
    exact ht.symm
  · obtain ⟨hp, hm, hn, hf⟩ := paceStep_frame (timeStep s)
    refine ⟨paceStep (timeStep s), by rw [step_nil h, tick_of_refclk hc], hp.trans h, hm, paceStep_tick _, fun h1 h2 h3 => ?_⟩
    rw [hn, hf]
    exact timeStep_untrimmed s h1 h2 h3

end Sys2Proof.Machine

/-! ## Proofs: entries that may be absent, by key (O17) -/

namespace Sys2Proof.Machine

section Keys
variable {β : Type}

/-- An entry is absent where no key is its own. -/
theorem kvGet_eq_none {m : List (Nat × β)} {k : Nat} (h : ∀ e ∈ m, e.1 ≠ k) : kvGet m k = none := by
  induction m with
  | nil => rfl
  | cons e r ih =>
    simp only [kvGet, h e (List.mem_cons_self ..), if_false]
    exact ih fun x hx => h x (List.mem_cons_of_mem _ hx)

/-- Dropping entries by key hides those entries alone. -/
theorem kvGet_filter_key (q : Nat → Bool) (m : List (Nat × β)) (k : Nat) : kvGet (m.filter fun e => q e.1) k = if q k then kvGet m k else none := by
  induction m with
  | nil => simp [kvGet]
  | cons e r ih =>
    by_cases he : e.1 = k
    · subst he
      cases hq : q e.1 <;> simp [hq, kvGet, ih]
    · cases hq : q e.1 <;> simp [hq, kvGet, ih, he]

/-- Removing an entry. -/
theorem kvGet_kvDel (m : List (Nat × β)) (k j : Nat) : kvGet (kvDel m k) j = if j = k then none else kvGet m j := by
  split
  · subst j
    exact kvGet_eq_none fun e he => ((mem_tabErase m k e).1 he).2
  · rename_i h
    exact kvGet_erase m k j h

/-- Where no key stands twice, an entry listed is the one found. -/
theorem kvGet_of_mem {m : List (Nat × β)} (hn : (m.map (·.1)).Nodup) {e : Nat × β} (he : e ∈ m) : kvGet m e.1 = some e.2 := by
  induction m with
  | nil => cases he
  | cons x r ih =>
    obtain ⟨hx, hr⟩ := List.nodup_cons.1 hn
    rcases List.mem_cons.1 he with rfl | he
    · simp [kvGet]
    · have hne : x.1 ≠ e.1 := fun h => hx (List.mem_map.2 ⟨e, he, h.symm⟩)
      simp only [kvGet, hne, if_false]
      exact ih hr he

/-- Where no key stands twice, the entries of one key are the one found or none. -/
theorem filter_key_eq {m : List (Nat × β)} (hn : (m.map (·.1)).Nodup) (k : Nat) :
    (m.filter fun e => decide (e.1 = k)) = ((kvGet m k).map fun v => (k, v)).toList := by
  induction m with
  | nil => rfl
  | cons x r ih =>
    obtain ⟨hx, hr⟩ := List.nodup_cons.1 hn
    by_cases h : x.1 = k
    · subst h
      have hnone : (r.filter fun e => decide (e.1 = x.1)) = [] :=
        List.filter_eq_nil_iff.2 fun e he => by simpa using fun h : e.1 = x.1 => hx (List.mem_map.2 ⟨e, he, h⟩)
      simp [kvGet, hnone]
    · simp [kvGet, h, ih hr]

end Keys

/-! ## Reads of one byte -/

/-- XOR with nothing, in the spelling of a byte's zero that `tabGet` uses. -/
theorem byte_xor_zero (b : Byte) : b ^^^ 0 = b := BitVec.xor_zero

/-- A number of one byte is that byte. -/
theorem memNat_one (m : Mem) (i : Nat) : memNat m i 1 = (tabGet 0 m i).toNat := by simp [memNat, memBytes, leNat]

/-- The first byte of a slice that is not empty. -/
theorem tabGet_memSlice_zero (m : Mem) (a len : Nat) (h : 0 < len) : tabGet 0 (memSlice m a len) 0 = tabGet 0 m a := by
  unfold memSlice
  induction m with
  | nil => rfl
  | cons e r ih =>
    obtain ⟨j, v⟩ := e
    by_cases hj : a ≤ j ∧ j < a + len
    · have hz : j - a = 0 ↔ j = a := by omega
      rw [List.filter_cons_of_pos (by simpa using hj), List.map_cons]
      simp only [tabGet, ih, hz]
    · have hne : j ≠ a := by omega
      rw [List.filter_cons_of_neg (by simpa using hj), ih]
      simp only [tabGet, hne, if_false]

/-! ## Memories under an error code

HBM and the tile stores are read and written alike: units of 64 or 8 bytes, and beside the cells the error patterns of damaged units. The rules of a write are proved once, for any such code. -/

/-- A code over units of bytes: what a read of a unit with a given error pattern answers, and what it XORs into the unit's bytes, from base address `base`. -/
structure EccCode (P : Type) where
  size : Nat
  size_pos : 0 < size
  status : P → Status
  mask : P → Nat → Byte
  apply : Mem → Nat → Nat → P → Mem
  get_apply : ∀ m base j p i, tabGet 0 (apply m base j p) i = tabGet 0 m i ^^^ (if (base + i) / size = j then mask p ((base + i) % size) else 0)

namespace EccCode
variable {P : Type} (C : EccCode P)

/-- Status and value of a read of the byte at `a`. -/
def byte (m : Mem) (errs : List (Nat × P)) (a : Nat) : Status × Byte :=
  match kvGet errs (a / C.size) with
  | none => (stOk, tabGet 0 m a)
  | some p => (C.status p, tabGet 0 m a ^^^ C.mask p (a % C.size))

/-- Unit `j` holds a byte of the range, or the empty range lies inside it. -/
def hit (f len j : Nat) : Bool := decide (j * C.size < f + len ∧ f < j * C.size + C.size)

/-- The range holds all of unit `j`. -/
def covered (f len j : Nat) : Prop := f ≤ j * C.size ∧ j * C.size + C.size ≤ f + len

/-- The merge read of one damaged unit that a write of `[f, f + len)` touches (R460, R462). -/
def mergeStep (f len : Nat) (acc : Status × Mem × List (Nat × P)) (e : Nat × P) : Status × Mem × List (Nat × P) :=
  if f ≤ e.1 * C.size ∧ e.1 * C.size + C.size ≤ f + len then acc
  else if C.status e.2 = stOk then (acc.1, C.apply acc.2.1 0 e.1 e.2, kvDel acc.2.2 e.1)
  else (if acc.1 = stOk then C.status e.2 else acc.1, acc.2.1, acc.2.2)

/-- The merge reads of a write. -/
def merge (f len : Nat) (m : Mem) (errs : List (Nat × P)) : Status × Mem × List (Nat × P) :=
  (errs.filter fun e => C.hit f len e.1).foldl (C.mergeStep f len) (stOk, m, errs)

/-- A write: the merge reads, then the bytes, and no error left in the units written. -/
def write (f len : Nat) (src m : Mem) (errs : List (Nat × P)) : Status × Mem × List (Nat × P) :=
  let r := C.merge f len m errs
  if r.1 = stOk then (stOk, memBlit r.2.1 f len src, r.2.2.filter fun e => !C.hit f len e.1) else r

/-- One merge read keeps or removes its unit's pattern and leaves every other. -/
theorem kvGet_mergeStep {f len : Nat} (acc : Status × Mem × List (Nat × P)) (e : Nat × P) {j : Nat} (h : j ≠ e.1) :
    kvGet (C.mergeStep f len acc e).2.2 j = kvGet acc.2.2 j := by
  unfold mergeStep
  split
  · rfl
  · split
    · simp [kvGet_kvDel, h]
    · rfl

/-- One merge read adds no pattern. -/
theorem mergeStep_sublist {f len : Nat} (acc : Status × Mem × List (Nat × P)) (e : Nat × P) : (C.mergeStep f len acc e).2.2.Sublist acc.2.2 := by
  unfold mergeStep
  split
  · exact List.Sublist.refl _
  · split
    · exact List.filter_sublist
    · exact List.Sublist.refl _

/-- No byte reads otherwise after one merge read: what its pattern gave now stands in the cells. -/
theorem byte_mergeStep {f len : Nat} (acc : Status × Mem × List (Nat × P)) {e : Nat × P} (h : kvGet acc.2.2 e.1 = some e.2) (a : Nat) :
    C.byte (C.mergeStep f len acc e).2.1 (C.mergeStep f len acc e).2.2 a = C.byte acc.2.1 acc.2.2 a := by
  unfold mergeStep
  split
  · rfl
  · split
    · rename_i hst
      by_cases ha : a / C.size = e.1
      · simp only [byte, kvGet_kvDel, C.get_apply, Nat.zero_add, ha, h, hst, if_true]
      · simp only [byte, kvGet_kvDel, C.get_apply, Nat.zero_add, ha, if_false, byte_xor_zero]
    · rfl

/-- A status that is not success stays. -/
theorem mergeStep_ok {f len : Nat} {acc : Status × Mem × List (Nat × P)} {e : Nat × P} (h : (C.mergeStep f len acc e).1 = stOk) : acc.1 = stOk := by
  unfold mergeStep at h
  split at h
  · exact h
  · split at h
    · exact h
    · refine Decidable.byContradiction fun hne => hne ?_
      dsimp only at h
      rwa [if_neg hne] at h

/-- A unit in part under the range, after its merge read answered success, has no pattern. -/
theorem kvGet_mergeStep_none {f len : Nat} {acc : Status × Mem × List (Nat × P)} {e : Nat × P} (h : (C.mergeStep f len acc e).1 = stOk) (hc : ¬ C.covered f len e.1) :
    kvGet (C.mergeStep f len acc e).2.2 e.1 = none := by
  have h0 := C.mergeStep_ok h
  unfold covered at hc
  unfold mergeStep at h ⊢
  rw [if_neg hc] at h ⊢
  split
  · simp [kvGet_kvDel]
  · rename_i hst
    simp [hst, h0] at h

section Fold
variable {f len : Nat}

theorem foldl_mergeStep_sublist (l : List (Nat × P)) (acc : Status × Mem × List (Nat × P)) : (l.foldl (C.mergeStep f len) acc).2.2.Sublist acc.2.2 := by
  induction l generalizing acc with
  | nil => exact List.Sublist.refl _
  | cons e r ih => exact (ih _).trans (C.mergeStep_sublist acc e)

theorem foldl_mergeStep_ok {l : List (Nat × P)} {acc : Status × Mem × List (Nat × P)} (h : (l.foldl (C.mergeStep f len) acc).1 = stOk) : acc.1 = stOk := by
  induction l generalizing acc with
  | nil => exact h
  | cons e r ih => exact C.mergeStep_ok (ih h)

theorem kvGet_foldl_mergeStep {l : List (Nat × P)} {j : Nat} (acc : Status × Mem × List (Nat × P)) (h : ∀ e ∈ l, e.1 ≠ j) :
    kvGet (l.foldl (C.mergeStep f len) acc).2.2 j = kvGet acc.2.2 j := by
  induction l generalizing acc with
  | nil => rfl
  | cons e r ih => exact (ih _ fun x hx => h x (List.mem_cons_of_mem _ hx)).trans (C.kvGet_mergeStep acc e (h e (List.mem_cons_self ..)).symm)

/-- Merge reads of different units change no byte's read. -/
theorem byte_foldl_mergeStep {l : List (Nat × P)} (hn : (l.map (·.1)).Nodup) (acc : Status × Mem × List (Nat × P)) (h : ∀ e ∈ l, kvGet acc.2.2 e.1 = some e.2) (a : Nat) :
    C.byte (l.foldl (C.mergeStep f len) acc).2.1 (l.foldl (C.mergeStep f len) acc).2.2 a = C.byte acc.2.1 acc.2.2 a := by
  induction l generalizing acc with
  | nil => rfl
  | cons e r ih =>
    obtain ⟨he, hr⟩ := List.nodup_cons.1 hn
    refine (ih hr _ fun x hx => ?_).trans (C.byte_mergeStep acc (h e (List.mem_cons_self ..)) a)
    have hne : x.1 ≠ e.1 := fun h => he (List.mem_map.2 ⟨x, hx, h⟩)
    rw [C.kvGet_mergeStep acc e hne]
    exact h x (List.mem_cons_of_mem _ hx)

/-- Merge reads that all answer success leave no pattern in the units that are in part under the range. -/
theorem kvGet_foldl_mergeStep_none {l : List (Nat × P)} (hn : (l.map (·.1)).Nodup) {acc : Status × Mem × List (Nat × P)} (h : (l.foldl (C.mergeStep f len) acc).1 = stOk)
    {e : Nat × P} (he : e ∈ l) (hc : ¬ C.covered f len e.1) : kvGet (l.foldl (C.mergeStep f len) acc).2.2 e.1 = none := by
  induction l generalizing acc with
  | nil => cases he
  | cons x r ih =>
    obtain ⟨hx, hr⟩ := List.nodup_cons.1 hn
    rcases List.mem_cons.1 he with rfl | he
    · rw [List.foldl_cons, C.kvGet_foldl_mergeStep _ fun y hy h => hx (List.mem_map.2 ⟨y, hy, h⟩)]
      exact C.kvGet_mergeStep_none (C.foldl_mergeStep_ok h) hc
    · exact ih hr h he

end Fold

/-! ### The write -/

/-- A byte of the range lies in a unit the range touches. -/
theorem hit_of_mem {f len a : Nat} (h1 : f ≤ a) (h2 : a < f + len) : C.hit f len (a / C.size) = true := by
  have := Nat.div_mul_le_self a C.size
  have := Nat.lt_div_mul_add (a := a) C.size_pos
  simp only [hit, decide_eq_true_eq]
  omega

/-- The unit of a byte outside the range is not all under it. -/
theorem not_covered_of_not_mem {f len a : Nat} (h : a < f ∨ f + len ≤ a) : ¬ C.covered f len (a / C.size) := by
  have := Nat.div_mul_le_self a C.size
  have := Nat.lt_div_mul_add (a := a) C.size_pos
  unfold covered
  omega

theorem nodup_hits {f len : Nat} {errs : List (Nat × P)} (hn : (errs.map (·.1)).Nodup) : ((errs.filter fun e => C.hit f len e.1).map (·.1)).Nodup :=
  hn.sublist (List.filter_sublist.map _)

/-- The merge reads of a write change no byte's read. -/
theorem byte_merge {f len : Nat} {m : Mem} {errs : List (Nat × P)} (hn : (errs.map (·.1)).Nodup) (a : Nat) :
    C.byte (C.merge f len m errs).2.1 (C.merge f len m errs).2.2 a = C.byte m errs a :=
  C.byte_foldl_mergeStep (C.nodup_hits hn) _ (fun _ he => kvGet_of_mem hn (List.mem_filter.1 he).1) a

/-- A write leaves no unit with two patterns. -/
theorem nodup_write {f len : Nat} {src m : Mem} {errs : List (Nat × P)} (hn : (errs.map (·.1)).Nodup) : ((C.write f len src m errs).2.2.map (·.1)).Nodup := by
  have hm := hn.sublist ((C.foldl_mergeStep_sublist (f := f) (len := len) (errs.filter fun e => C.hit f len e.1) (stOk, m, errs)).map (·.1))
  dsimp only [write]
  split
  · exact hm.sublist (List.filter_sublist.map _)
  · exact hm

/-- After a write that answers success a byte of the range reads without error as the byte given. -/
theorem byte_write_in {f len : Nat} {src m : Mem} {errs : List (Nat × P)} {a : Nat} (h1 : f ≤ a) (h2 : a < f + len) (hok : (C.write f len src m errs).1 = stOk) :
    C.byte (C.write f len src m errs).2.1 (C.write f len src m errs).2.2 a = (stOk, tabGet 0 src (a - f)) := by
  dsimp only [write] at hok ⊢
  split at hok
  · rename_i hr
    have hb := tabGet_blit_in (C.merge f len m errs).2.1 f len src (a - f) (by omega)
    rw [Nat.add_sub_cancel' h1] at hb
    simp only [hr, if_true, byte, kvGet_filter_key (fun j => !C.hit f len j), C.hit_of_mem h1 h2, Bool.not_true, Bool.false_eq_true, if_false, hb]
  · contradiction

/-- After a write, whatever its status, a byte outside the range reads as before. -/
theorem byte_write_out {f len : Nat} {src m : Mem} {errs : List (Nat × P)} (hn : (errs.map (·.1)).Nodup) {a : Nat} (h : a < f ∨ f + len ≤ a) :
    C.byte (C.write f len src m errs).2.1 (C.write f len src m errs).2.2 a = C.byte m errs a := by
  rw [← C.byte_merge (f := f) (len := len) (m := m) hn a]
  dsimp only [write]
  split
  · rename_i hr
    have hk : kvGet ((C.merge f len m errs).2.2.filter fun e => !C.hit f len e.1) (a / C.size) = kvGet (C.merge f len m errs).2.2 (a / C.size) := by
      rw [kvGet_filter_key fun j => !C.hit f len j]
      cases hh : C.hit f len (a / C.size) with
      | false => simp
      | true =>
        suffices hnone : kvGet (C.merge f len m errs).2.2 (a / C.size) = none by simp [hnone]
        by_cases hmem : ∃ e ∈ errs, e.1 = a / C.size
        · obtain ⟨e, he, hea⟩ := hmem
          rw [← hea] at hh ⊢
          exact C.kvGet_foldl_mergeStep_none (C.nodup_hits hn) hr (List.mem_filter.2 ⟨he, hh⟩) (hea ▸ C.not_covered_of_not_mem h)
        · have habs : ∀ e ∈ errs, e.1 ≠ a / C.size := fun e he hea => hmem ⟨e, he, hea⟩
          exact (C.kvGet_foldl_mergeStep _ fun e he => habs e (List.mem_filter.1 he).1).trans (kvGet_eq_none habs)
    simp only [byte, hk, tabGet_blit_out _ _ _ _ _ h]
  · rfl

/-- The damaged units that a read of one byte touches: its own, where it has a pattern. -/
theorem hits_one {errs : List (Nat × P)} (hn : (errs.map (·.1)).Nodup) (a : Nat) :
    (errs.filter fun e => C.hit a 1 e.1) = ((kvGet errs (a / C.size)).map fun p => (a / C.size, p)).toList := by
  rw [← filter_key_eq hn]
  refine List.filter_congr fun e _ => ?_
  have h1 := Nat.div_mul_le_self a C.size
  have h2 := Nat.lt_div_mul_add (a := a) C.size_pos
  simp only [hit, decide_eq_decide]
  constructor
  · rintro ⟨h3, h4⟩
    exact (Nat.div_eq_of_lt_le (by omega) (by rw [Nat.succ_mul]; omega)).symm
  · intro h
    rw [h]
    omega

end EccCode

/-! ## The two codes -/

/-- XOR into a byte of a memory that starts at address `base`. -/
theorem tabGet_xorAt (m : Mem) (base t : Nat) (v : Byte) (i : Nat) :
    tabGet 0 (if base ≤ t then tabSet 0 m (t - base) (tabGet 0 m (t - base) ^^^ v) else m) i = tabGet 0 m i ^^^ (if base + i = t then v else 0) := by
  split
  · rw [tabGet_set]
    by_cases hi : i = t - base
    · have : base + i = t := by omega
      simp [← hi, this]
    · have : base + i ≠ t := by omega
      simp [hi, this]
  · have : base + i ≠ t := by omega
    simp [this]

/-- What an error pattern of a sector puts into its byte `q` (R457: data at positions 8 to 71). -/
def patMask : List (Nat × Byte) → Nat → Byte
  | [], _ => 0
  | e :: r, q => (if e.1 = q + 8 then e.2 else 0) ^^^ patMask r q

theorem tabGet_patApply (m : Mem) (base sector : Nat) (p : List (Nat × Byte)) (i : Nat) :
    tabGet 0 (patApply m base sector p) i = tabGet 0 m i ^^^ (if (base + i) / 64 = sector then patMask p ((base + i) % 64) else 0) := by
  induction p generalizing m with
  | nil => simp [patApply, patMask]
  | cons e r ih =>
    refine (ih _).trans ?_
    have hstep : tabGet 0 (if 8 ≤ e.1 ∧ e.1 < 72 ∧ base ≤ sector * 64 + (e.1 - 8) then
        tabSet 0 m (sector * 64 + (e.1 - 8) - base) (tabGet 0 m (sector * 64 + (e.1 - 8) - base) ^^^ e.2) else m) i =
        tabGet 0 m i ^^^ (if (base + i) / 64 = sector ∧ e.1 = (base + i) % 64 + 8 then e.2 else 0) := by
      by_cases hd : 8 ≤ e.1 ∧ e.1 < 72
      · have hiff : base + i = sector * 64 + (e.1 - 8) ↔ (base + i) / 64 = sector ∧ e.1 = (base + i) % 64 + 8 := by omega
        simp only [hd.1, hd.2, true_and, tabGet_xorAt, hiff]
      · have h1 : ¬ (8 ≤ e.1 ∧ e.1 < 72 ∧ base ≤ sector * 64 + (e.1 - 8)) := fun h => hd ⟨h.1, h.2.1⟩
        have h2 : ¬ ((base + i) / 64 = sector ∧ e.1 = (base + i) % 64 + 8) := by omega
        simp [h1, h2]
    rw [hstep]
    by_cases hs : (base + i) / 64 = sector <;> simp [hs, patMask, BitVec.xor_assoc]

theorem tabGet_tsApply (m : Mem) (base word : Nat) (e : BitVec 72) (i : Nat) :
    tabGet 0 (tsApply m base word e) i = tabGet 0 m i ^^^ (if (base + i) / 8 = word then (e >>> (8 * ((base + i) % 8))).setWidth 8 else 0) := by
  have key : ∀ n ≤ 8, tabGet 0 ((List.range n).foldl (fun m i =>
      if base ≤ word * 8 + i then tabSet 0 m (word * 8 + i - base) (tabGet 0 m (word * 8 + i - base) ^^^ (e >>> (8 * i)).setWidth 8) else m) m) i =
      tabGet 0 m i ^^^ (if (base + i) / 8 = word ∧ (base + i) % 8 < n then (e >>> (8 * ((base + i) % 8))).setWidth 8 else 0) := by
    intro n hn
    induction n with
    | zero => simp
    | succ n ih =>
      rw [List.range_succ, List.foldl_append, List.foldl_cons, List.foldl_nil, tabGet_xorAt, ih (by omega)]
      by_cases hw : base + i = word * 8 + n
      · have h1 : (word * 8 + n) / 8 = word := by omega
        have h2 : (word * 8 + n) % 8 = n := by omega
        simp [hw, h1, h2]
      · have hlt : ((base + i) / 8 = word ∧ (base + i) % 8 < n + 1) ↔ ((base + i) / 8 = word ∧ (base + i) % 8 < n) := by omega
        simp only [hw, hlt, if_false, byte_xor_zero]
  have h := key 8 (Nat.le_refl _)
  simp only [Nat.mod_lt _ (show 8 > 0 by omega), and_true] at h
  exact h

/-- The pattern a sector's bytes keep after a read (R458). -/
def rsKept (p : List (Nat × Byte)) : List (Nat × Byte) :=
  match rsDecode p with
  | .clean => p
  | .corrected left => left
  | _ => []

/-- The pattern a word's bytes keep after a read (R462). -/
def tsKept (e : BitVec 72) : BitVec 72 :=
  match tsDecode e with
  | .clean => e
  | .corrected _ => tsLeft e
  | _ => 0

/-- The sector code of HBM. -/
def hbmCode : EccCode (List (Nat × Byte)) where
  size := 64
  size_pos := by decide
  status p := eccStatus (rsDecode p)
  mask p := patMask (rsKept p)
  apply m base j p := patApply m base j (rsKept p)
  get_apply m base j p i := tabGet_patApply m base j (rsKept p) i

/-- The word code of the tile stores. -/
def tsCode : EccCode (BitVec 72) where
  size := 8
  size_pos := by decide
  status e := tsStatus (tsDecode e)
  mask e q := (tsKept e >>> (8 * q)).setWidth 8
  apply m base j e := tsApply m base j (tsKept e)
  get_apply m base j e i := tabGet_tsApply m base j (tsKept e) i

/-! ## The model's operations are those of the codes -/

theorem addTrouble_stores (s : State) (key k : Nat) :
    (addTrouble s key k).hbm = s.hbm ∧ (addTrouble s key k).hbmErr = s.hbmErr ∧ (addTrouble s key k).ts = s.ts ∧ (addTrouble s key k).tsErr = s.tsErr := by
  unfold addTrouble
  split <;> exact ⟨rfl, rfl, rfl, rfl⟩

theorem bumpEvent_stores (s : State) (c : BitVec 48) (n blk off : Nat) : (bumpEvent s c n blk off).hbm = s.hbm ∧ (bumpEvent s c n blk off).hbmErr = s.hbmErr := by
  unfold bumpEvent
  split <;> exact ⟨rfl, rfl⟩

/-- Counting an outcome leaves HBM alone. -/
@[simp] theorem countEcc_hbm (s : State) (sector : Nat) (o : EccOut) : (countEcc s sector o).hbm = s.hbm := by
  cases o <;> simp [countEcc, (addTrouble_stores _ _ _).1, (bumpEvent_stores _ _ _ _ _).1]

@[simp] theorem countEcc_hbmErr (s : State) (sector : Nat) (o : EccOut) : (countEcc s sector o).hbmErr = s.hbmErr := by
  cases o <;> simp [countEcc, (addTrouble_stores _ _ _).2.1, (bumpEvent_stores _ _ _ _ _).2]

/-- Counting an outcome leaves the tile stores alone. -/
@[simp] theorem tsCount_ts (s : State) (word : Nat) (o : EccOut) : (tsCount s word o).ts = s.ts := by
  cases o <;> simp [tsCount, (addTrouble_stores _ _ _).2.2.1]

@[simp] theorem tsCount_tsErr (s : State) (word : Nat) (o : EccOut) : (tsCount s word o).tsErr = s.tsErr := by
  cases o <;> simp [tsCount, (addTrouble_stores _ _ _).2.2.2]

theorem stAddrMismatch_ne_ok : stAddrMismatch ≠ stOk := by decide
theorem stUncSector_ne_ok : stUncSector ≠ stOk := by decide
theorem stUncWord_ne_ok : stUncWord ≠ stOk := by decide

/-- HBM as its code sees it. -/
def hbmView (r : Status × State) : Status × Mem × List (Nat × List (Nat × Byte)) := (r.1, r.2.hbm, r.2.hbmErr)
/-- The tile stores as their code sees them. -/
def tsView (r : Status × State) : Status × Mem × List (Nat × BitVec 72) := (r.1, r.2.ts, r.2.tsErr)

/-- The merge reads of a write of HBM are those of its code. -/
theorem hbmView_merge (s : State) (f len : Nat) : hbmView (hbmMerge s f len) = hbmCode.merge f len s.hbm s.hbmErr := by
  refine (List.foldl_hom hbmView fun acc e => ?_).symm
  by_cases hc : f ≤ e.1 * 64 ∧ e.1 * 64 + 64 ≤ f + len
  · simp [EccCode.mergeStep, hbmCode, hbmView, hc]
  · cases ho : rsDecode e.2 with
    | clean | corrected => simp [EccCode.mergeStep, hbmCode, hbmView, hc, ho, eccStatus, rsKept]
    | mismatch | uncorrectable => by_cases h : acc.1 = stOk <;> simp [EccCode.mergeStep, hbmCode, hbmView, hc, ho, eccStatus, h, stAddrMismatch_ne_ok, stUncSector_ne_ok]

/-- The merge reads of a write of a tile store are those of its code. -/
theorem tsView_merge (s : State) (a len : Nat) : tsView (tsMerge s a len) = tsCode.merge a len s.ts s.tsErr := by
  refine (List.foldl_hom tsView fun acc e => ?_).symm
  by_cases hc : a ≤ e.1 * 8 ∧ e.1 * 8 + 8 ≤ a + len
  · simp [EccCode.mergeStep, tsCode, tsView, hc]
  · cases ho : tsDecode e.2 with
    | clean | corrected => simp [EccCode.mergeStep, tsCode, tsView, hc, ho, tsStatus, tsKept]
    | mismatch | uncorrectable => by_cases h : acc.1 = stOk <;> simp [EccCode.mergeStep, tsCode, tsView, hc, ho, tsStatus, h, stAddrMismatch_ne_ok, stUncWord_ne_ok]

/-- A write of HBM is that of its code. -/
theorem hbmView_write (s : State) (f len : Nat) (src : Mem) : hbmView (hbmWrite s f len src) = hbmCode.write f len src s.hbm s.hbmErr := by
  have hm := hbmView_merge s f len
  simp only [EccCode.write, ← hm]
  unfold hbmWrite
  split
  · rename_i h
    have he : hbmHits s f len = [] := List.isEmpty_iff.1 h
    have hkeep : (s.hbmErr.filter fun e => !hbmCode.hit f len e.1) = s.hbmErr :=
      List.filter_eq_self.2 fun e hm => by rw [Bool.not_eq_true']; exact Bool.eq_false_iff.2 (List.filter_eq_nil_iff.1 he e hm)
    simp [hbmView, hbmMerge, he, hkeep]
  · by_cases hok : (hbmMerge s f len).1 = stOk
    · simp only [hbmView, hok, if_true]
      rfl
    · simp [hbmView, hok]

/-- A write of a tile store is that of its code. -/
theorem tsView_write (s : State) (slot off len : Nat) (src : Mem) :
    tsView (tsWrite s slot off len src) = tsCode.write (tsAddr slot off) len src s.ts s.tsErr := by
  have hm := tsView_merge s (tsAddr slot off) len
  simp only [EccCode.write, ← hm]
  unfold tsWrite
  dsimp only
  split
  · rename_i h
    have he : tsHits s (tsAddr slot off) len = [] := List.isEmpty_iff.1 h
    have hkeep : (s.tsErr.filter fun e => !tsCode.hit (tsAddr slot off) len e.1) = s.tsErr :=
      List.filter_eq_self.2 fun e hm => by rw [Bool.not_eq_true']; exact Bool.eq_false_iff.2 (List.filter_eq_nil_iff.1 he e hm)
    simp [tsView, tsMerge, he, hkeep]
  · by_cases hok : (tsMerge s (tsAddr slot off) len).1 = stOk
    · simp only [tsView, hok, if_true]
      rfl
    · simp [tsView, hok]

/-- A read of one byte of HBM is that of its code. -/
theorem hbmRead_byte {s : State} (hn : (s.hbmErr.map (·.1)).Nodup) (a : Nat) :
    (hbmRead s a 1).1 = (hbmCode.byte s.hbm s.hbmErr a).1 ∧
    ((hbmRead s a 1).1 = stOk → memNat (hbmRead s a 1).2.1 0 1 = (hbmCode.byte s.hbm s.hbmErr a).2.toNat) := by
  have hh : hbmHits s a 1 = ((kvGet s.hbmErr (a / 64)).map fun p => (a / 64, p)).toList := hbmCode.hits_one hn a
  have hslice : tabGet 0 (memSlice s.hbm a 1) 0 = tabGet 0 s.hbm a := tabGet_memSlice_zero _ _ _ Nat.one_pos
  have hsize : hbmCode.size = 64 := rfl
  simp only [hbmRead, EccCode.byte, hh, hsize]
  cases kvGet s.hbmErr (a / 64) with
  | none => exact ⟨rfl, fun _ => by rw [memNat_one]; exact congrArg _ hslice⟩
  | some p =>
    cases ho : rsDecode p <;>
      simp only [Option.map_some, Option.toList_some, List.foldl_cons, List.foldl_nil, ho, hbmCode, eccStatus, rsKept, memNat_one, tabGet_patApply, hslice, Nat.add_zero, if_true,
        implies_true, and_true, stAddrMismatch_ne_ok, stUncSector_ne_ok, false_implies]

/-- A read of one byte of a tile store is that of its code. -/
theorem tsRead_byte {s : State} (hn : (s.tsErr.map (·.1)).Nodup) (slot off : Nat) :
    (tsRead s slot off 1).1 = (tsCode.byte s.ts s.tsErr (tsAddr slot off)).1 ∧
    ((tsRead s slot off 1).1 = stOk → memNat (tsRead s slot off 1).2.1 0 1 = (tsCode.byte s.ts s.tsErr (tsAddr slot off)).2.toNat) := by
  have hh : tsHits s (tsAddr slot off) 1 = ((kvGet s.tsErr (tsAddr slot off / 8)).map fun p => (tsAddr slot off / 8, p)).toList := tsCode.hits_one hn _
  have hslice : tabGet 0 (memSlice s.ts (tsAddr slot off) 1) 0 = tabGet 0 s.ts (tsAddr slot off) := tabGet_memSlice_zero _ _ _ Nat.one_pos
  have hsize : tsCode.size = 8 := rfl
  simp only [tsRead, EccCode.byte, hh, hsize]
  cases kvGet s.tsErr (tsAddr slot off / 8) with
  | none => exact ⟨rfl, fun _ => by rw [memNat_one]; exact congrArg _ hslice⟩
  | some p =>
    cases ho : tsDecode p <;>
      simp only [Option.map_some, Option.toList_some, List.foldl_cons, List.foldl_nil, ho, tsCode, tsStatus, tsKept, memNat_one, tabGet_tsApply, hslice, Nat.add_zero, if_true,
        implies_true, and_true, stAddrMismatch_ne_ok, stUncWord_ne_ok, false_implies]

/-! ## The statement -/

/-- Writes of HBM: the bytes written, and every other byte. -/
theorem hbmWrite_bytes (s : State) (f n : Nat) (src : Mem) (hn : (s.hbmErr.map (·.1)).Nodup) :
    (∀ a, f ≤ a → a < f + n → (hbmWrite s f n src).1 = stOk →
      (hbmRead (hbmWrite s f n src).2 a 1).1 = stOk ∧ memNat (hbmRead (hbmWrite s f n src).2 a 1).2.1 0 1 = (tabGet 0 src (a - f)).toNat) ∧
    (∀ a, a < f ∨ f + n ≤ a →
      (hbmRead (hbmWrite s f n src).2 a 1).1 = (hbmRead s a 1).1 ∧
      ((hbmRead s a 1).1 = stOk → memNat (hbmRead (hbmWrite s f n src).2 a 1).2.1 0 1 = memNat (hbmRead s a 1).2.1 0 1)) := by
  have hv := hbmView_write s f n src
  obtain ⟨hst, hm, he⟩ : _ = _ ∧ _ = _ ∧ _ = _ := by simpa only [hbmView, Prod.ext_iff] using hv
  have hw : ((hbmWrite s f n src).2.hbmErr.map (·.1)).Nodup := he ▸ hbmCode.nodup_write hn
  refine ⟨fun a h1 h2 hok => ?_, fun a h => ?_⟩
  · obtain ⟨hs, hb⟩ := hbmRead_byte hw a
    rw [hm, he, hbmCode.byte_write_in h1 h2 (hst ▸ hok)] at hs hb
    exact ⟨hs, hb hs⟩
  · obtain ⟨hs, hb⟩ := hbmRead_byte hw a
    obtain ⟨hs0, hb0⟩ := hbmRead_byte hn a
    rw [hm, he, hbmCode.byte_write_out hn h] at hs hb
    exact ⟨hs.trans hs0.symm, fun h0 => (hb (hs.trans (hs0.symm.trans h0))).trans (hb0 h0).symm⟩

/-- Writes of a tile store: the bytes written, and every other byte of any slot. -/
theorem tsWrite_bytes (s : State) (slot off n : Nat) (src : Mem) (hn : (s.tsErr.map (·.1)).Nodup) :
    (∀ a, off ≤ a → a < off + n → (tsWrite s slot off n src).1 = stOk →
      (tsRead (tsWrite s slot off n src).2 slot a 1).1 = stOk ∧ memNat (tsRead (tsWrite s slot off n src).2 slot a 1).2.1 0 1 = (tabGet 0 src (a - off)).toNat) ∧
    (∀ slot2 a, tsAddr slot2 a < tsAddr slot off ∨ tsAddr slot off + n ≤ tsAddr slot2 a →
      (tsRead (tsWrite s slot off n src).2 slot2 a 1).1 = (tsRead s slot2 a 1).1 ∧
      ((tsRead s slot2 a 1).1 = stOk → memNat (tsRead (tsWrite s slot off n src).2 slot2 a 1).2.1 0 1 = memNat (tsRead s slot2 a 1).2.1 0 1)) := by
  have hv := tsView_write s slot off n src
  obtain ⟨hst, hm, he⟩ : _ = _ ∧ _ = _ ∧ _ = _ := by simpa only [tsView, Prod.ext_iff] using hv
  have hw : ((tsWrite s slot off n src).2.tsErr.map (·.1)).Nodup := he ▸ tsCode.nodup_write hn
  refine ⟨fun a h1 h2 hok => ?_, fun slot2 a h => ?_⟩
  · obtain ⟨hs, hb⟩ := tsRead_byte hw slot a
    have hlo : tsAddr slot off ≤ tsAddr slot a := Nat.add_le_add_left h1 _
    have hhi : tsAddr slot a < tsAddr slot off + n := by unfold tsAddr; omega
    have ha : tsAddr slot a - tsAddr slot off = a - off := Nat.add_sub_add_left ..
    rw [hm, he, tsCode.byte_write_in hlo hhi (hst ▸ hok), ha] at hs hb
    exact ⟨hs, hb hs⟩
  · obtain ⟨hs, hb⟩ := tsRead_byte hw slot2 a
    obtain ⟨hs0, hb0⟩ := tsRead_byte hn slot2 a
    rw [hm, he, tsCode.byte_write_out hn h] at hs hb
    exact ⟨hs.trans hs0.symm, fun h0 => (hb (hs.trans (hs0.symm.trans h0))).trans (hb0 h0).symm⟩

/-- Settles O17: the rules of a write under an error code, for the sector code of HBM and the word code of the tile stores. -/
theorem storesInMemory : Obligations.StoresInMemory := by
  unfold Obligations.StoresInMemory
  exact ⟨fun s f n src _ hn => hbmWrite_bytes s f n src hn, fun s slot off n src _ hn => tsWrite_bytes s slot off n src hn⟩

end Sys2Proof.Machine

/-! ## Proofs: the security commands (O57; R527, R528, R530) -/

namespace Sys2Proof.Machine

/-- Each security command is a GO of the unit that takes its own OP alone (R527). -/
theorem exec_security (s : State) (ok : Bool) :
    ∀ r ∈ [(1, Instr.stage ok), (2, .activate ok), (3, .commitSvn), (4, .attest), (5, .revokeKey)], ∃ k, exec r.2 s = .next (secGo s (some r.1) k) := by
  simp only [List.forall_mem_cons, List.not_mem_nil, false_implies, implies_true, and_true]
  exact ⟨⟨ok, rfl⟩, ⟨ok, rfl⟩, ⟨true, rfl⟩, ⟨true, rfl⟩, ⟨true, rfl⟩⟩

/-- Address of the command block. -/
def secBlockAddr (s : State) : Nat := s.sec.cmdAddr.toNat * 128

/-- A unit that is busy or not in service, or a block that does not read, takes no command. -/
theorem secGo_blocked {s : State} {x : Nat} {ok : Bool}
    (h : s.sec.busy = true ∨ s.sec.gaffer = false ∨ stageIs s 8 = false ∨ inHbm s (secBlockAddr s) 128 = false ∨ (physRead s (secBlockAddr s) 128).1 ≠ stOk) :
    secGo s (some x) ok = s := by
  unfold secBlockAddr at h
  rcases h with h | h | h | h | h <;> simp [secGo, h]

/-- The unit is free and in service, and its block reads as `m`, which leaves `s1`. -/
structure SecReady (s : State) (m : Mem) (s1 : State) : Prop where
  free : s.sec.busy = false
  gaffer : s.sec.gaffer = true
  stage : stageIs s 8 = true
  inHbm : inHbm s (secBlockAddr s) 128 = true
  read : physRead s (secBlockAddr s) 128 = (stOk, m, s1)

/-- The command an OP names, on the block's bytes. -/
def secRun (s : State) (b : Bytes) (ok : Bool) : Nat → State
  | 1 => secStage s b ok
  | 2 => secActivate s ok
  | 3 => secCommit s
  | 4 => secAttest s b
  | 5 => secRevoke s b
  | _ => secDone s 6 0

section
variable {s s1 : State} {m : Mem} (h : SecReady s m s1)
include h

/-- A GO on a block that reads looks at its OP. -/
theorem secGo_ready (x : Nat) (ok : Bool) :
    secGo s (some x) ok = if x ≠ subNat (memBytes m 0 128) 0 1 then s else secRun s1 (memBytes m 0 128) ok (subNat (memBytes m 0 128) 0 1) := by
  obtain ⟨hfree, hgaffer, hstage, hin, hread⟩ := h
  have hserves : ¬ (s.sec.busy || !s.sec.gaffer || !stageIs s 8) = true := by simp [hfree, hgaffer, hstage]
  have hreads : ¬ (!inHbm s (secBlockAddr s) 128 ∨ (physRead s (secBlockAddr s) 128).1 ≠ stOk) := by simp [hin, hread]
  have hx : (some x).any (fun x => x ≠ subNat (memBytes m 0 128) 0 1) = decide (x ≠ subNat (memBytes m 0 128) 0 1) := rfl
  refine (if_neg hserves).trans ((if_neg hreads).trans ?_)
  simp only [show s.sec.cmdAddr.toNat * 128 = secBlockAddr s from rfl, hread, hx, decide_eq_true_eq]
  exact ite_congr rfl (fun _ => rfl) fun _ => rfl

/-- A GO on a block with the OP asked for runs that command. -/
theorem secGo_op {x : Nat} (hx : subNat (memBytes m 0 128) 0 1 = x) (ok : Bool) : secGo s (some x) ok = secRun s1 (memBytes m 0 128) ok x := by
  rw [secGo_ready h, hx, if_neg fun h => h rfl]

/-- A GO on a block with another OP does nothing. -/
theorem secGo_other {x : Nat} (hx : subNat (memBytes m 0 128) 0 1 ≠ x) (ok : Bool) : secGo s (some x) ok = s := by
  rw [secGo_ready h, if_pos hx.symm]

theorem exec_stage_op (hx : subNat (memBytes m 0 128) 0 1 = 1) (ok : Bool) : exec (.stage ok) s = .next (secStage s1 (memBytes m 0 128) ok) :=
  congrArg Host.Outcome.next (secGo_op h hx ok)
theorem exec_activate_op (hx : subNat (memBytes m 0 128) 0 1 = 2) (ok : Bool) : exec (.activate ok) s = .next (secActivate s1 ok) :=
  congrArg Host.Outcome.next (secGo_op h hx ok)
theorem exec_commitSvn_op (hx : subNat (memBytes m 0 128) 0 1 = 3) : exec .commitSvn s = .next (secCommit s1) := congrArg Host.Outcome.next (secGo_op h hx true)
theorem exec_attest_op (hx : subNat (memBytes m 0 128) 0 1 = 4) : exec .attest s = .next (secAttest s1 (memBytes m 0 128)) :=
  congrArg Host.Outcome.next (secGo_op h hx true)
theorem exec_revokeKey_op (hx : subNat (memBytes m 0 128) 0 1 = 5) : exec .revokeKey s = .next (secRevoke s1 (memBytes m 0 128)) :=
  congrArg Host.Outcome.next (secGo_op h hx true)

end

/-- A command that ended with a reason and result and changed nothing in the store. -/
def SecEnds (s t : State) (reason result : Nat) : Prop :=
  t.sec.busy = false ∧ t.sec.reason = BitVec.ofNat 8 reason ∧ t.sec.result = BitVec.ofNat 48 result ∧
  t.sec.active = s.sec.active ∧ t.sec.images = s.sec.images ∧ t.sec.fwMin = s.sec.fwMin ∧ t.sec.revoked = s.sec.revoked

theorem secDone_ends (s : State) (reason result : Nat) : SecEnds s (secDone s reason result) reason result := ⟨rfl, rfl, rfl, rfl, rfl, rfl, rfl⟩

/-! ### STAGE -/

theorem secStage_outside {s : State} {b : Bytes} {ok : Bool} (h : inHbm s (subNat b 8 8) (subNat b 0x10 8) = false) : SecEnds s (secStage s b ok) 6 0 := by
  simp only [secStage, h, Bool.not_false, if_true]
  exact secDone_ends s 6 0

theorem secStage_large {s : State} {b : Bytes} {ok : Bool} (h : inHbm s (subNat b 8 8) (subNat b 0x10 8) = true) (hn : 2 ^ 24 < subNat b 0x10 8) :
    SecEnds s (secStage s b ok) 1 0 := by
  have hn : 16 * 2 ^ 20 < subNat b 0x10 8 := hn
  simp only [secStage, h, Bool.not_true, Bool.false_eq_true, if_false, if_pos hn]
  exact secDone_ends s 1 0

/-- What the check of a staged image answers. -/
def stageCheck (s : State) (img : Bytes) : Nat := if subNat img 4 1 = 1 ∨ subNat img 4 1 = 2 then imgCheck s (subNat img 4 1) img else 1
/-- The place of an image in the other bank. -/
def stageSlot (s : State) (img : Bytes) : Nat := 2 * b2n (!s.sec.booted) + (subNat img 4 1 - 1)

/-- An image that reads is checked, then stored or cut short. -/
theorem secStage_image {s s2 : State} {b : Bytes} {m : Mem} (ok : Bool) (h : inHbm s (subNat b 8 8) (subNat b 0x10 8) = true) (hn : subNat b 0x10 8 ≤ 2 ^ 24)
    (hr : physRead s (subNat b 8 8) (subNat b 0x10 8) = (stOk, m, s2)) :
    secStage s b ok =
      let img := memBytes m 0 (subNat b 0x10 8)
      let k := stageSlot s img
      if stageCheck s2 img ≠ 0 then secDone s2 (stageCheck s2 img) 0
      else if ok then secDone { s2 with sec := { s2.sec with images := kvSet s2.sec.images k img } } 0 0
      else secDone { s2 with sec := { s2.sec with images := kvDel s2.sec.images k } } 5 0 := by
  have hn : ¬ 16 * 2 ^ 20 < subNat b 0x10 8 := Nat.not_lt.2 hn
  simp only [secStage, h, hr, hn, Bool.not_true, Bool.false_eq_true, if_false, ne_eq, not_true_eq_false]
  rfl

/-- What STAGE leaves of an image that reads. -/
theorem secStage_result {s s2 : State} {b : Bytes} {m : Mem} (ok : Bool) (h : inHbm s (subNat b 8 8) (subNat b 0x10 8) = true) (hn : subNat b 0x10 8 ≤ 2 ^ 24)
    (hr : physRead s (subNat b 8 8) (subNat b 0x10 8) = (stOk, m, s2)) :
    let img := memBytes m 0 (subNat b 0x10 8)
    let c := stageCheck s2 img
    let t := secStage s b ok
    t.sec.active = s2.sec.active ∧ t.sec.reason = BitVec.ofNat 8 (if c ≠ 0 then c else if ok then 0 else 5) ∧ (c ≠ 0 → t.sec.images = s2.sec.images) ∧
    (c = 0 → kvGet t.sec.images (stageSlot s img) = (if ok then some img else none) ∧ ∀ i, i ≠ stageSlot s img → kvGet t.sec.images i = kvGet s2.sec.images i) := by
  dsimp only
  rw [secStage_image ok h hn hr]
  dsimp only
  generalize memBytes m 0 (subNat b 0x10 8) = img
  by_cases hc : stageCheck s2 img = 0
  · simp only [hc, ne_eq, not_true_eq_false, if_false]
    cases ok with
    | true => exact ⟨rfl, rfl, fun h => h.elim, fun _ => ⟨(kvGet_kvSet ..).trans (if_pos rfl), fun i hi => (kvGet_kvSet ..).trans (if_neg hi)⟩⟩
    | false => exact ⟨rfl, rfl, fun h => h.elim, fun _ => ⟨(kvGet_kvDel ..).trans (if_pos rfl), fun i hi => (kvGet_kvDel ..).trans (if_neg hi)⟩⟩
  · rw [if_pos hc, if_pos hc]
    exact ⟨rfl, rfl, fun _ => rfl, fun h => absurd h hc⟩

/-! ### ACTIVATE, COMMIT_SVN and REVOKE_KEY -/

/-- Both images of the other bank pass their checks. -/
abbrev otherBankGood (s : State) : Prop := imgCheck s 1 (bankImage s (!s.sec.booted) 1) = 0 ∧ imgCheck s 2 (bankImage s (!s.sec.booted) 2) = 0

/-- ACTIVATE takes the other bank where it is good. -/
theorem secActivate_result (s : State) :
    let t := secActivate s true
    t.sec.reason = (if otherBankGood s then 0 else 6) ∧ t.sec.active = (if otherBankGood s then !s.sec.booted else s.sec.active) ∧ t.sec.images = s.sec.images := by
  by_cases hg : otherBankGood s
  · have hn : ¬ (imgCheck s 1 (bankImage s (bankOther s) 1) ≠ 0 ∨ imgCheck s 2 (bankImage s (bankOther s) 2) ≠ 0) :=
      fun h => h.elim (fun h => h hg.1) fun h => h hg.2
    simp only [secActivate, Bool.not_true, Bool.false_eq_true, if_false, if_neg hn, if_pos hg]
    exact ⟨rfl, rfl, rfl⟩
  · have hn : imgCheck s 1 (bankImage s (bankOther s) 1) ≠ 0 ∨ imgCheck s 2 (bankImage s (bankOther s) 2) ≠ 0 := Decidable.not_and_iff_or_not.1 hg
    simp only [secActivate, Bool.not_true, Bool.false_eq_true, if_false, if_pos hn, if_neg hg]
    exact ⟨rfl, rfl, rfl⟩

theorem secCommit_refused {s : State} (h : s.sec.booted ≠ s.sec.active ∨ s.sec.fallback = true) : SecEnds s (secCommit s) 6 0 := by
  simp only [secCommit, if_pos h]
  exact secDone_ends s 6 0

/-- COMMIT_SVN raises the minimum versions to those booted (R527). -/
theorem secCommit_result {s : State} (hb : s.sec.booted = s.sec.active) (hf : s.sec.fallback = false) :
    let t := secCommit s
    t.sec.reason = 0 ∧ t.sec.revoked = s.sec.revoked ∧ t.sec.fwMin = BitVec.ofNat 8 (max s.sec.fwMin.toNat s.sec.fwSvn.toNat) ∧
    t.sec.rtMin = BitVec.ofNat 8 (max s.sec.rtMin.toNat s.sec.rtSvn.toNat) := by
  have hn : ¬ (s.sec.booted ≠ s.sec.active ∨ s.sec.fallback = true) := by simp [hb, hf]
  simp only [secCommit, if_neg hn]
  exact ⟨rfl, rfl, rfl, rfl⟩

theorem secRevoke_refused {s : State} {b : Bytes} (h : 3 < subNat b 4 4 ∨ s.sec.fwKey.toNat = subNat b 4 4 ∨ s.sec.rtKey.toNat = subNat b 4 4) :
    SecEnds s (secRevoke s b) 6 0 := by
  simp only [secRevoke, if_pos h]
  exact secDone_ends s 6 0

/-- Setting one bit of a word. -/
theorem getLsbD_setBit {w : Nat} (v : BitVec w) (k i : Nat) : (v ||| (1#w <<< k)).getLsbD i = (v.getLsbD i || (decide (k < w) && decide (k = i))) := by
  rw [← BitVec.twoPow_eq, BitVec.getLsbD_or, BitVec.getLsbD_twoPow]

/-- REVOKE_KEY sets the bit of its key alone. -/
theorem secRevoke_result {s : State} {b : Bytes} (hk : subNat b 4 4 ≤ 3) (hf : s.sec.fwKey.toNat ≠ subNat b 4 4) (hr : s.sec.rtKey.toNat ≠ subNat b 4 4) :
    let t := secRevoke s b
    t.sec.reason = 0 ∧ t.sec.revoked.getLsbD (subNat b 4 4) = true ∧ ∀ i, i ≠ subNat b 4 4 → t.sec.revoked.getLsbD i = s.sec.revoked.getLsbD i := by
  have hn : ¬ (3 < subNat b 4 4 ∨ s.sec.fwKey.toNat = subNat b 4 4 ∨ s.sec.rtKey.toNat = subNat b 4 4) := by omega
  simp only [secRevoke, if_neg hn]
  refine ⟨rfl, (getLsbD_setBit ..).trans ?_, fun i hi => (getLsbD_setBit ..).trans ?_⟩
  · simp [Nat.lt_succ_of_le hk]
  · simp [Ne.symm hi]

/-! ### ATTEST -/

theorem secAttest_noJob {s : State} {b : Bytes} (h : attJob s (BitVec.ofNat 16 (subNat b 2 2)) = none) : SecEnds s (secAttest s b) 8 0 := by
  simp only [secAttest, h]
  exact secDone_ends s 8 0

section
variable {s : State} {b : Bytes} {x : AttJob} (hx : attJob s (BitVec.ofNat 16 (subNat b 2 2)) = some x)
include hx

theorem secAttest_short (h : subNat b 0x10 8 < attLen x) : SecEnds s (secAttest s b) 7 (attLen x) := by
  simp only [secAttest, hx, if_pos h]
  exact secDone_ends s 7 _

theorem secAttest_outside (hn : attLen x ≤ subNat b 0x10 8) (h : inHbm s (subNat b 8 8) (attLen x) = false) : SecEnds s (secAttest s b) 6 0 := by
  simp only [secAttest, hx, if_neg (Nat.not_lt.2 hn), h, Bool.not_false, if_true]
  exact secDone_ends s 6 0

theorem secAttest_stores (hn : attLen x ≤ subNat b 0x10 8) (h : inHbm s (subNat b 8 8) (attLen x) = true) :
    secAttest s b =
      let r := attReport s (BitVec.ofNat 16 (subNat b 2 2)) (sub b 0x20 32) x
      let w := physPut r.2 (subNat b 8 8) r.1
      if w.1 = stOk then secDone w.2 0 (attLen x) else secDone w.2 6 0 := by
  simp only [secAttest, hx, if_neg (Nat.not_lt.2 hn), h, Bool.not_true, Bool.false_eq_true, if_false]

/-- ATTEST stores the report and ends with what the store answers. -/
theorem secAttest_stored (hn : attLen x ≤ subNat b 0x10 8) (h : inHbm s (subNat b 8 8) (attLen x) = true) :
    let r := attReport s (BitVec.ofNat 16 (subNat b 2 2)) (sub b 0x20 32) x
    let w := physPut r.2 (subNat b 8 8) r.1
    let t := secAttest s b
    t.hbm = w.2.hbm ∧ t.sec.reason = (if w.1 = stOk then 0 else 6) ∧ t.sec.result = (if w.1 = stOk then BitVec.ofNat 48 (attLen x) else 0) := by
  intro r w t
  have ht : t = if w.1 = stOk then secDone w.2 0 (attLen x) else secDone w.2 6 0 := secAttest_stores hx hn h
  clear_value t w
  subst ht
  split <;> exact ⟨rfl, rfl, rfl⟩

end

/-- A report is its signed part with a signature behind it; one more signature counts. -/
theorem attReport_result (s : State) (j : BitVec 16) (nonce : Bytes) (x : AttJob) :
    (attReport s j nonce x).1.take (attBody s j nonce x).length = attBody s j nonce x ∧ (attReport s j nonce x).2.sec.spdm.signs = s.sec.spdm.signs + 1 :=
  ⟨List.take_left, rfl⟩

end Sys2Proof.Machine

/-! ## Proofs: SPDM (O57; R529) -/

namespace Sys2Proof.Machine

/-- A request with this code reaches the responder: the link is up, the firmware runs, and the message has its header. -/
def SpdmHeard (s : State) (m : Bytes) (code : Byte) : Prop := s.host.trained = true ∧ s.sec.gaffer = true ∧ m.getD 1 0 = code ∧ 4 ≤ m.length

theorem SpdmHeard.code_eq {s : State} {m : Bytes} {code : Byte} (h : SpdmHeard s m code) : m.getD 1 0 = code := h.2.2.1

theorem spdmTake_unheard {s : State} {m : Bytes} {code : Byte} {phase : Nat} {f : State → State} (h : ¬ SpdmHeard s m code) : spdmTake s m code phase f = s := by
  refine if_pos (Decidable.byContradiction fun hc => h ?_)
  simp only [Bool.or_eq_true, not_or, Bool.not_eq_true', Bool.not_eq_false, decide_eq_true_eq, Decidable.not_not, Nat.not_lt, ne_eq, and_assoc] at hc
  exact hc

section
variable {s : State} {m : Bytes} {code : Byte} {phase : Nat} {f : State → State} (h : SpdmHeard s m code)
include h

theorem spdmTake_heard : spdmTake s m code phase f = if s.sec.spdm.phase < phase then spdmError s 0x04 else f s := by
  obtain ⟨h1, h2, h3, h4⟩ := h
  refine if_neg ?_
  simp only [h1, h2, h3, Nat.not_lt.2 h4]
  simp

theorem spdmTake_early (hp : s.sec.spdm.phase < phase) : spdmTake s m code phase f = spdmError s 0x04 := (spdmTake_heard h).trans (if_pos hp)
theorem spdmTake_inPhase (hp : phase ≤ s.sec.spdm.phase) : spdmTake s m code phase f = f s := (spdmTake_heard h).trans (if_neg (Nat.not_lt.2 hp))

end

/-- `t` is `s` with one reply sent; the connection is left as `p` says. -/
def SpdmAnswered (s t : State) (b : Bytes) (p : Spdm → Prop) : Prop :=
  t.out = s.out ++ [.doe b] ∧ t.sec.spdm.replies = s.sec.spdm.replies + 1 ∧ p t.sec.spdm ∧ t.hbm = s.hbm

/-- A reply after a change of the connection that sends and stores nothing itself. -/
theorem spdmReply_answered (s : State) (f : Spdm → Spdm) (b : Bytes) (p : Spdm → Prop) (hr : (f s.sec.spdm).replies = s.sec.spdm.replies)
    (hp : p { f s.sec.spdm with replies := (f s.sec.spdm).replies + 1 }) : SpdmAnswered s (spdmReply (spdmUpd s f) b) b p := by
  refine ⟨?_, congrArg (· + 1) hr, hp, ?_⟩ <;> simp only [spdmReply, spdmUpd, send]

/-- An ERROR reply leaves the connection as it was, but for the count of replies. -/
theorem spdmError_answered (s : State) (code : Byte) (p : Spdm → Prop) (hp : p { s.sec.spdm with replies := s.sec.spdm.replies + 1 }) :
    SpdmAnswered s (spdmError s code) [0x13, 0x7F, code, 0] p := spdmReply_answered s id _ p rfl hp

/-- A signature changes the count of signatures alone. -/
theorem idSign_state (s : State) (m : Bytes) : (idSign s m).2 = spdmUpd s fun x => { x with signs := x.signs + 1 } := rfl

/-- Two changes of the connection in turn. -/
theorem spdmUpd_spdmUpd (s : State) (f g : Spdm → Spdm) : spdmUpd (spdmUpd s f) g = spdmUpd s fun x => g (f x) := rfl

/-- The requests that are one `spdmTake`, with their codes and the phases they need. -/
theorem exec_spdm (s : State) (m : Bytes) :
    ∀ r ∈ [((0x84 : Byte), 0, Instr.getVersion m), (0xE1, 1, .getCapabilities m), (0xE3, 2, .negotiateAlgorithms m), (0x81, 3, .getDigests m), (0x82, 3, .getCertificate m),
      (0x83, 3, .challenge m), (0xE0, 3, .getMeasurements m)], ∃ f, exec r.2.2 s = .next (spdmTake s m r.1 r.2.1 f) := by
  simp only [List.forall_mem_cons, List.not_mem_nil, false_implies, implies_true, and_true]
  exact ⟨⟨_, rfl⟩, ⟨_, rfl⟩, ⟨_, rfl⟩, ⟨_, rfl⟩, ⟨_, rfl⟩, ⟨_, rfl⟩, ⟨_, rfl⟩⟩

/-- A request that is not heard is dropped; one out of order gets an ERROR. -/
theorem spdmTake_unheard_early {s : State} {m : Bytes} {code : Byte} {phase : Nat} {c : Instr} (h : ∃ f, exec c s = .next (spdmTake s m code phase f)) :
    (¬ SpdmHeard s m code → exec c s = .next s) ∧
    (SpdmHeard s m code → s.sec.spdm.phase < phase → ∃ t, exec c s = .next t ∧ SpdmAnswered s t [0x13, 0x7F, 0x04, 0] fun y => y.phase = s.sec.spdm.phase) := by
  obtain ⟨f, hf⟩ := h
  exact ⟨fun h => hf.trans (congrArg _ (spdmTake_unheard h)), fun h hp => ⟨_, hf.trans (congrArg _ (spdmTake_early h hp)), spdmError_answered s 0x04 (·.phase = s.sec.spdm.phase) rfl⟩⟩

/-- Bytes the responder is free to choose are as many as asked for. -/
theorem replyFree_length (s : State) (k n : Nat) : (replyFree s k n).length = n := by simp [replyFree]

/-- A request that is heard in its phase runs. -/
theorem next_spdmTake {s : State} {m : Bytes} {code : Byte} {phase : Nat} {f : State → State} (h : SpdmHeard s m code) (hp : phase ≤ s.sec.spdm.phase) :
    (Host.Outcome.next (spdmTake s m code phase f) : Out_) = .next (f s) := congrArg _ (spdmTake_inPhase h hp)

section
variable {s : State} {m : Bytes}

theorem getVersion_answered (h : SpdmHeard s m 0x84) :
    ∃ t, execGetVersion m s = .next t ∧
      SpdmAnswered s t [0x10, 0x04, 0, 0, 0, 1, 0x00, 0x13] fun y => y.phase = 1 ∧ y.session = false ∧ y.kex = false ∧ y.mb = [] ∧ y.meas = [] :=
  ⟨_, next_spdmTake h (Nat.zero_le _), spdmReply_answered s _ _ _ rfl ⟨rfl, rfl, rfl, rfl, rfl⟩⟩

theorem getCapabilities_answered (h : SpdmHeard s m 0xE1) (hp : 1 ≤ s.sec.spdm.phase) :
    ∃ r, r.length = 16 ∧ ∃ t, execGetCapabilities m s = .next t ∧ SpdmAnswered s t ([0x13, 0x61, 0, 0] ++ r) fun y => y.phase = 2 :=
  ⟨_, replyFree_length s 4 16, _, next_spdmTake h hp, spdmReply_answered s _ _ _ rfl rfl⟩

theorem negotiateAlgorithms_answered (h : SpdmHeard s m 0xE3) (hp : 2 ≤ s.sec.spdm.phase) :
    ∃ r, r.length = 34 ∧ ∃ t, execNegotiateAlgorithms m s = .next t ∧ SpdmAnswered s t ([0x13, 0x63] ++ r) fun y => y.phase = 3 :=
  ⟨_, replyFree_length s 2 34, _, next_spdmTake h hp, spdmReply_answered s _ _ _ rfl rfl⟩

theorem getDigests_answered (h : SpdmHeard s m 0x81) (hp : 3 ≤ s.sec.spdm.phase) :
    ∃ t, execGetDigests m s = .next t ∧ SpdmAnswered s t ([0x13, 0x01, 0, 1] ++ shake s.sec.chain) fun y => y.phase = s.sec.spdm.phase :=
  ⟨_, next_spdmTake h hp, spdmReply_answered s _ _ _ rfl rfl⟩

/-! ### Certificates and challenges -/

theorem getCertificate_refused (h : SpdmHeard s m 0x82) (hp : 3 ≤ s.sec.spdm.phase) (hc : m.getD 2 0 ≠ 0 ∨ m.length < 8 ∨ s.sec.chain.length < subNat m 4 2) :
    ∃ t, execGetCertificate m s = .next t ∧ SpdmAnswered s t [0x13, 0x7F, 0x01, 0] fun y => y.mb = s.sec.spdm.mb :=
  ⟨spdmError s 0x01, (next_spdmTake h hp).trans (congrArg _ (if_pos hc)), spdmError_answered s 0x01 _ rfl⟩

/-- A slice that lies in a byte string needs no padding. -/
theorem sub_eq_take_drop (b : Bytes) (i n : Nat) (h : n ≤ b.length - i) : sub b i n = (b.drop i).take n := by
  simp [sub, zeros, Nat.min_eq_left h]

theorem getCertificate_answered (h : SpdmHeard s m 0x82) (hp : 3 ≤ s.sec.spdm.phase)
    (h0 : m.getD 2 0 = 0) (h8 : 8 ≤ m.length) (ho : subNat m 4 2 ≤ s.sec.chain.length) :
    let off := subNat m 4 2
    let n := min (subNat m 6 2) (s.sec.chain.length - off)
    ∃ t, execGetCertificate m s = .next t ∧
      SpdmAnswered s t ([0x13, 0x02, 0, 0] ++ leBytes 2 n ++ leBytes 2 (min 0xFFFF (s.sec.chain.length - off - n)) ++ (s.sec.chain.drop off).take n) fun y => y.phase = s.sec.spdm.phase := by
  intro off n
  have hc : ¬ (m.getD 2 0 ≠ 0 ∨ m.length < 8 ∨ s.sec.chain.length < subNat m 4 2) := fun hc => hc.elim (fun h => h h0) fun hc => hc.elim (Nat.not_lt.2 h8) (Nat.not_lt.2 ho)
  rw [← sub_eq_take_drop s.sec.chain off n (Nat.min_le_right ..)]
  exact ⟨_, (next_spdmTake h hp).trans (congrArg _ (if_neg hc)), spdmReply_answered s _ _ _ rfl rfl⟩

theorem challenge_refused (h : SpdmHeard s m 0x83) (hp : 3 ≤ s.sec.spdm.phase) (hc : m.getD 2 0 ≠ 0 ∨ m.length < 44) :
    ∃ t, execChallenge m s = .next t ∧ SpdmAnswered s t [0x13, 0x7F, 0x01, 0] fun y => y.signs = s.sec.spdm.signs :=
  ⟨spdmError s 0x01, (next_spdmTake h hp).trans (congrArg _ (if_pos hc)), spdmError_answered s 0x01 _ rfl⟩

theorem challenge_answered (h : SpdmHeard s m 0x83) (hp : 3 ≤ s.sec.spdm.phase) (h0 : m.getD 2 0 = 0) (hl : 44 ≤ m.length) :
    ∃ r, ∃ t, execChallenge m s = .next t ∧ SpdmAnswered s t ([0x13, 0x03, 0, 1] ++ shake s.sec.chain ++ r) fun y => y.signs = s.sec.spdm.signs + 1 ∧ y.mb = [] := by
  have hc : ¬ (m.getD 2 0 ≠ 0 ∨ m.length < 44) := fun hc => hc.elim (fun h => h h0) (Nat.not_lt.2 hl)
  have hx : execChallenge m s = _ := (next_spdmTake h hp).trans (congrArg _ (if_neg hc))
  simp only [idSign_state, spdmUpd_spdmUpd, List.append_assoc] at hx
  simp only [List.append_assoc]
  exact ⟨_, _, hx, spdmReply_answered s _ _ _ rfl ⟨rfl, rfl⟩⟩

/-! ### Measurements -/

/-- Measurement block `i` of M0 to M3. -/
def measOne (s : State) (i : Nat) : Bytes := measBlock i (BitVec.ofNat 8 (min i 1)) (s.sec.meas.getD i (zeros 32))

theorem measBlocks_one {k : Nat} (nonce : Bytes) (h : k < 4) : measBlocks s k nonce = (some [measOne s k], s) := if_pos h

theorem measBlocks_all (nonce : Bytes) : measBlocks s 0xFF nonce = (some [measOne s 0, measOne s 1, measOne s 2, measOne s 3], s) := rfl

theorem measBlocks_reserved {k : Nat} (nonce : Bytes) (h4 : 4 ≤ k) (h : k < 0x80) : measBlocks s k nonce = (none, s) := by
  have h1 : ¬ k < 4 := by omega
  have h2 : ¬ k = 0xFF := by omega
  have h3 : ¬ 0x80 ≤ k := by omega
  simp only [measBlocks, if_neg h1, if_neg h2, if_neg h3]

theorem measBlocks_noJob {k : Nat} (nonce : Bytes) (h : 0x80 ≤ k) (hk : k < 0xFF) (hj : attJob s (BitVec.ofNat 16 (k - 0x80)) = none) : measBlocks s k nonce = (none, s) := by
  have h1 : ¬ k < 4 := by omega
  have h2 : ¬ k = 0xFF := by omega
  simp only [measBlocks, if_neg h1, if_neg h2, if_pos h, hj]

/-- A request for blocks that exist is answered with them, and signed where it asks for that. -/
theorem getMeasurements_answered {bs : List Bytes} (h : SpdmHeard s m 0xE0) (hp : 3 ≤ s.sec.spdm.phase)
    (hb : ∀ nonce, measBlocks s (m.getD 3 0).toNat nonce = (some bs, s)) :
    let sign := bitOf (m.getD 2 0).toNat 0
    ∃ r, ∃ t, execGetMeasurements m s = .next t ∧ SpdmAnswered s t ([0x13, 0x60, 0, 0, BitVec.ofNat 8 bs.length] ++ leBytes 3 bs.flatten.length ++ bs.flatten ++ r) fun y =>
      y.signs = s.sec.spdm.signs + (if sign then 1 else 0) ∧ (sign = true → y.meas = []) := by
  have hx : execGetMeasurements m s = _ := next_spdmTake h hp
  dsimp only
  cases hs : bitOf (m.getD 2 0).toNat 0 with
  | false =>
    simp only [hb, hs, Bool.false_eq_true, if_false, List.append_assoc] at hx
    simp only [List.append_assoc]
    exact ⟨_, _, hx, spdmReply_answered s _ _ _ rfl ⟨rfl, fun h => nomatch h⟩⟩
  | true =>
    simp only [hb, hs, if_true, idSign_state, spdmUpd_spdmUpd, List.append_assoc] at hx
    simp only [List.append_assoc]
    exact ⟨_, _, hx, spdmReply_answered s _ _ _ rfl ⟨rfl, fun _ => rfl⟩⟩

/-- A request for a block that does not exist gets an ERROR. -/
theorem getMeasurements_refused (h : SpdmHeard s m 0xE0) (hp : 3 ≤ s.sec.spdm.phase) (hb : ∀ nonce, measBlocks s (m.getD 3 0).toNat nonce = (none, s)) :
    ∃ t, execGetMeasurements m s = .next t ∧ SpdmAnswered s t [0x13, 0x7F, 0x01, 0] fun y => y.meas = s.sec.spdm.meas := by
  have hx : execGetMeasurements m s = _ := next_spdmTake h hp
  simp only [hb] at hx
  exact ⟨_, hx, spdmError_answered s 0x01 _ rfl⟩

/-! ### Sessions and link keys -/

/-- Each session request is one `spdmTake` of its code. -/
theorem secureSession_keyExchange (hm : m.getD 1 0 = 0xE4) :
    execSecureSession m s = .next (spdmTake s m 0xE4 3 fun s => spdmReply (spdmUpd s fun x => { x with kex := true }) ([0x13, 0x64] ++ replyFree s 2 38)) := by
  unfold execSecureSession
  rw [hm]
  rfl

theorem secureSession_finish (hm : m.getD 1 0 = 0xE5) :
    execSecureSession m s = .next (spdmTake s m 0xE5 3 fun s =>
      if s.sec.spdm.kex then spdmReply (spdmUpd s fun x => { x with kex := false, session := true }) [0x13, 0x65, 0, 0] else spdmError s 0x04) := by
  unfold execSecureSession
  rw [hm]
  rfl

theorem secureSession_end (hm : m.getD 1 0 = 0xEC) :
    execSecureSession m s = .next (spdmTake s m 0xEC 3 fun s =>
      if s.sec.spdm.session then spdmReply (spdmUpd s fun x => { x with session := false }) [0x13, 0x6C, 0, 0] else spdmError s 0x04) := by
  unfold execSecureSession
  rw [hm]
  rfl

theorem secureSession_unheard (h4 : ¬ SpdmHeard s m 0xE4) (h5 : ¬ SpdmHeard s m 0xE5) (hc : ¬ SpdmHeard s m 0xEC) : execSecureSession m s = .next s := by
  unfold execSecureSession
  split
  · exact congrArg _ (spdmTake_unheard h4)
  · exact congrArg _ (spdmTake_unheard h5)
  · exact congrArg _ (spdmTake_unheard hc)
  · rfl

/-- Before the algorithms are negotiated each session request gets an ERROR. -/
theorem secureSession_early (h : SpdmHeard s m 0xE4 ∨ SpdmHeard s m 0xE5 ∨ SpdmHeard s m 0xEC) (hp : s.sec.spdm.phase < 3) :
    ∃ t, execSecureSession m s = .next t ∧ SpdmAnswered s t [0x13, 0x7F, 0x04, 0] fun y => y.kex = s.sec.spdm.kex ∧ y.session = s.sec.spdm.session := by
  refine ⟨spdmError s 0x04, ?_, spdmError_answered s 0x04 _ ⟨rfl, rfl⟩⟩
  rcases h with h | h | h
  · exact (secureSession_keyExchange h.code_eq).trans (congrArg _ (spdmTake_early h hp))
  · exact (secureSession_finish h.code_eq).trans (congrArg _ (spdmTake_early h hp))
  · exact (secureSession_end h.code_eq).trans (congrArg _ (spdmTake_early h hp))

theorem keyExchange_answered (h : SpdmHeard s m 0xE4) (hp : 3 ≤ s.sec.spdm.phase) :
    ∃ r, ∃ t, execSecureSession m s = .next t ∧ SpdmAnswered s t ([0x13, 0x64] ++ r) fun y => y.kex = true ∧ y.session = s.sec.spdm.session :=
  ⟨_, _, (secureSession_keyExchange h.code_eq).trans (next_spdmTake h hp), spdmReply_answered s _ _ _ rfl ⟨rfl, rfl⟩⟩

theorem finish_answered (h : SpdmHeard s m 0xE5) (hp : 3 ≤ s.sec.spdm.phase) :
    (s.sec.spdm.kex = true → ∃ t, execSecureSession m s = .next t ∧ SpdmAnswered s t [0x13, 0x65, 0, 0] fun y => y.kex = false ∧ y.session = true) ∧
    (s.sec.spdm.kex = false → ∃ t, execSecureSession m s = .next t ∧ SpdmAnswered s t [0x13, 0x7F, 0x04, 0] fun y => y.session = s.sec.spdm.session) := by
  have hx := (secureSession_finish h.code_eq).trans (next_spdmTake h hp)
  refine ⟨fun hk => ?_, fun hk => ?_⟩
  · exact ⟨_, hx.trans (congrArg _ (if_pos hk)), spdmReply_answered s _ _ _ rfl ⟨rfl, rfl⟩⟩
  · exact ⟨_, hx.trans (congrArg _ (if_neg (Bool.eq_false_iff.1 hk))), spdmError_answered s 0x04 _ rfl⟩

theorem endSession_answered (h : SpdmHeard s m 0xEC) (hp : 3 ≤ s.sec.spdm.phase) :
    (s.sec.spdm.session = true → ∃ t, execSecureSession m s = .next t ∧ SpdmAnswered s t [0x13, 0x6C, 0, 0] fun y => y.session = false) ∧
    (s.sec.spdm.session = false → ∃ t, execSecureSession m s = .next t ∧ SpdmAnswered s t [0x13, 0x7F, 0x04, 0] fun y => y.session = false) := by
  have hx := (secureSession_end h.code_eq).trans (next_spdmTake h hp)
  refine ⟨fun hk => ?_, fun hk => ?_⟩
  · exact ⟨_, hx.trans (congrArg _ (if_pos hk)), spdmReply_answered s _ _ _ rfl rfl⟩
  · exact ⟨_, hx.trans (congrArg _ (if_neg (Bool.eq_false_iff.1 hk))), spdmError_answered s 0x04 _ hk⟩

/-- Inside a session a request for link keys is taken. -/
theorem ideKm_answered (ht : s.host.trained = true) (hg : s.sec.gaffer = true) (hs : s.sec.spdm.session = true) :
    ∃ r, r.length = 8 ∧ ∃ t, execIdeKm m s = .next t ∧ SpdmAnswered s t r fun y => y.ide = s.sec.spdm.ide ++ [m] := by
  have hx : (s.host.trained && s.sec.gaffer && s.sec.spdm.session) = true := by simp [ht, hg, hs]
  exact ⟨_, replyFree_length s 0 8, _, congrArg Host.Outcome.next (if_pos hx), spdmReply_answered s _ _ _ rfl rfl⟩

theorem ideKm_ignored (h : s.host.trained = false ∨ s.sec.gaffer = false ∨ s.sec.spdm.session = false) : execIdeKm m s = .next s := by
  have hx : ¬ (s.host.trained && s.sec.gaffer && s.sec.spdm.session) = true := by rcases h with h | h | h <;> simp [h]
  exact congrArg Host.Outcome.next (if_neg hx)

end

end Sys2Proof.Machine

/-! ## Proofs: writes of registers (O57; R6, R427, R431, R532, R559) -/

namespace Sys2Proof.Machine

/-! ### BAR0 -/

/-- Width in bytes of a host access to BAR0. -/
def barWidth (pa : Word) : Nat := if pa.getLsbD 62 then 4 else 8

theorem registerWrite_bar (s : State) {pa : Word} (v : Word) (priv : BitVec 2) (h : pa.getLsbD 63 = true) :
    exec (.registerWrite pa v priv) s = .next (barWrite s (bitsAt pa.toNat 0 22) (barWidth pa) v) := if_pos h

theorem barWidth_cases (pa : Word) : barWidth pa = 4 ∨ barWidth pa = 8 := by
  unfold barWidth
  split <;> decide

/-- Without a link, or unaligned, a host write does nothing. -/
theorem barWrite_ignored {s : State} {o n : Nat} (v : Word) (h : s.host.trained = false ∨ o % n ≠ 0) : barWrite s o n v = s := by
  refine if_pos ?_
  rcases h with h | h <;> simp [h]

/-- A host write over the link at an aligned offset, by the range it falls in. -/
theorem barWrite_taken {s : State} {o n : Nat} (v : Word) (ht : s.host.trained = true) (ho : o % n = 0) :
    barWrite s o n v =
      if o < 0x1000 then hostWrite s (o / 8 * 8) (halfMerge (regRead s 1 (o / 8 * 8)) v (n = 4) (o % 8 = 4) (hostOnes (o / 8 * 8)))
      else if 0x100000 ≤ o ∧ o < 0x200000 then slotWrite s ((o - 0x100000) / 0x80) ((o - 0x100000) % 0x80) n v
      else if 0x200000 ≤ o ∧ o < 0x200400 then msixWrite s (o - 0x200000) n v
      else s := by
  refine if_neg ?_
  simp [ht, ho]

/-- An 8-byte host write of HI_DRV is HI_DRV_ENABLE. -/
theorem barWrite_hiDrv {s : State} (v : Word) (ht : s.host.trained = true) : barWrite s 8 8 v = hiDrv s v :=
  (barWrite_taken v ht rfl).trans rfl

/-- A host write inside slot k's 128 bytes. -/
theorem barWrite_slot {s : State} {k off n : Nat} (v : Word) (ht : s.host.trained = true) (hk : k < 8192) (ho : off < 0x80) (hn : n = 4 ∨ n = 8) (ha : off % n = 0) :
    barWrite s (0x100000 + 0x80 * k + off) n v = slotWrite s k off n v := by
  have h1 : ¬ 0x100000 + 0x80 * k + off < 0x1000 := by omega
  have h2 : 0x100000 ≤ 0x100000 + 0x80 * k + off ∧ 0x100000 + 0x80 * k + off < 0x200000 := by omega
  have h3 : (0x100000 + 0x80 * k + off - 0x100000) / 0x80 = k := by omega
  have h4 : (0x100000 + 0x80 * k + off - 0x100000) % 0x80 = off := by omega
  have h5 : (0x100000 + 0x80 * k + off) % n = 0 := by rcases hn with rfl | rfl <;> omega
  rw [barWrite_taken v ht h5, if_neg h1, if_pos h2, h3, h4]

/-! ### Slots -/

@[simp] theorem slotGet_slotSet (s : State) (k j : Nat) (x : Slot) : slotGet (slotSet s k x) j = if j = k then x else slotGet s j := by
  simp only [slotGet, slotSet, kvGet_kvSet]
  split <;> rfl

/-- A read of bytes, byte by byte. -/
theorem memBytes_eq_of_get {m : Mem} {i : Nat} {b : Bytes} (h : ∀ j, j < b.length → tabGet 0 m (i + j) = b.getD j 0) : memBytes m i b.length = b := by
  induction b generalizing i with
  | nil => rfl
  | cons x r ih =>
    have h0 : tabGet 0 m i = x := h 0 (Nat.zero_lt_succ _)
    have hr : memBytes m (i + 1) r.length = r := ih fun j hj => by
      have := h (j + 1) (Nat.succ_lt_succ hj)
      rwa [show i + (j + 1) = i + 1 + j by omega] at this
    simp only [List.length_cons, memBytes, h0, hr]

/-- A byte string reads back where it was written. -/
theorem memBytes_memWrite (m : Mem) (base : Nat) (b : Bytes) : memBytes (memWrite m base b) base b.length = b :=
  memBytes_eq_of_get fun j hj => by
    have h := tabGet_memOfBytes b 0 j
    rw [Nat.zero_add] at h
    exact (tabGet_blit_in m base b.length _ j hj).trans h

/-- GO of a slot. -/
theorem slotWrite_go (s : State) (k n : Nat) {v : Word} (h : v.getLsbD 0 = true) : slotWrite s k 0x78 n v = slotGo s k := by
  simp [slotWrite, h]

/-- The command area of an accepted command takes no write (R431). -/
theorem slotWrite_accepted {s : State} {k off : Nat} (n : Nat) (v : Word) (ho : off < 0x40) (hs : (slotGet s k).state = 1) :
    slotWrite s k off n v = slotSet s k { slotGet s k with wrIgnored := true } := by
  simp only [slotWrite, if_pos ho, if_pos hs]

/-- The command area of any other slot takes the bytes, and nothing else changes. -/
theorem slotWrite_area {s : State} {k off : Nat} (n : Nat) (v : Word) (ho : off < 0x40) (hs : (slotGet s k).state ≠ 1) :
    let t := slotWrite s k off n v
    memBytes (slotGet t k).area off n = leBytes n v.toNat ∧ (slotGet t k).state = (slotGet s k).state ∧
      (∀ i, i < off ∨ off + n ≤ i → tabGet 0 (slotGet t k).area i = tabGet 0 (slotGet s k).area i) ∧ ∀ i, i ≠ k → slotGet t i = slotGet s i := by
  have hlen := leBytes_length n v.toNat
  have hb := memBytes_memWrite (slotGet s k).area off (leBytes n v.toNat)
  have hout := tabGet_blit_out (slotGet s k).area off (leBytes n v.toNat).length (memOfBytes 0 (leBytes n v.toNat))
  rw [hlen] at hb hout
  simp only [slotWrite, if_pos ho, if_neg hs, slotGet_slotSet, if_true]
  refine ⟨hb, trivial, fun i hi => ?_, fun i hi => if_neg hi⟩
  unfold memWrite
  rw [hlen]
  exact hout i hi

/-! ### Registers of the blocks -/

/-- A device write that the bars of R32, R455 and R532 let pass. -/
theorem registerWrite_reg {s : State} {pa : Word} {priv : BitVec 2} {blk off : Nat} (v : Word) (h : pa.getLsbD 63 = false) (hr : resolve s pa.toNat = .reg blk off)
    (hp : priv ≠ 0) (hp1 : priv = 1 → regNoWrite blk off = false) : exec (.registerWrite pa v priv) s = .next (regWrite s blk off v) := by
  have hb : ¬ (priv = 0 ∨ (priv = 1 ∧ regNoWrite blk off = true)) := by
    rintro (h0 | ⟨h1, h2⟩)
    · exact hp h0
    · rw [hp1 h1] at h2
      cases h2
  show execRegisterWrite pa v priv s = _
  simp only [execRegisterWrite, h, hr, Bool.false_eq_true, if_false, if_neg hb]

theorem registerWrite_barred {s : State} {pa : Word} {priv : BitVec 2} {blk off : Nat} (v : Word) (h : pa.getLsbD 63 = false) (hr : resolve s pa.toNat = .reg blk off)
    (hb : priv = 0 ∨ (priv = 1 ∧ regNoWrite blk off = true)) : exec (.registerWrite pa v priv) s = .next s := by
  show execRegisterWrite pa v priv s = _
  simp only [execRegisterWrite, h, hr, Bool.false_eq_true, if_false, if_pos hb]

/-- An offset or block that names no register takes no write (R8, R531). -/
theorem regWrite_none {s : State} {blk off : Nat} (v : Word) (h : off % 8 ≠ 0 ∨ 12 ≤ blk) : regWrite s blk off v = s := by
  unfold regWrite
  split
  · rfl
  · have hb : 12 ≤ blk := by omega
    obtain ⟨k, rfl⟩ := Nat.exists_eq_add_of_le' hb
    rfl

/-- A bit of a field of a written word. -/
theorem fld_getLsbD (v : Word) (lo w i : Nat) : (fld v lo w).getLsbD i = (decide (i < w) && v.getLsbD (lo + i)) := by
  simp [fld, BitVec.getLsbD_setWidth]

/-- A W1C field with no event: a bit stays where it is not written. -/
theorem w1c_fld_getLsbD {w : Nat} (old : BitVec w) (v : Word) (lo : Nat) {i : Nat} (hi : i < w) :
    (w1c old (fld v lo w) 0).getLsbD i = (old.getLsbD i && !v.getLsbD (lo + i)) := by
  simp only [w1c, BitVec.ofNat_eq_ofNat, BitVec.or_zero, BitVec.getLsbD_and, BitVec.getLsbD_not, fld_getLsbD, hi, decide_true, Bool.true_and]

/-- A field with range `[0, hi]` (R559). -/
theorem rwIn_zero {w : Nat} (old new : BitVec w) (hi : Nat) : rwIn old new 0 hi = if new.toNat ≤ hi then new else old := by simp [rwIn]

/-- MULT takes a value in its range while it is not locked (R78). -/
theorem mult_write (lock : Bool) (old new : BitVec 6) :
    (if lock then old else rwIn old new 8 24) = if lock = false ∧ 8 ≤ new.toNat ∧ new.toNat ≤ 24 then new else old := by
  cases lock <;> simp [rwIn]

/-- Writing GO again over GO changes nothing. -/
theorem or_one_of_bit0 {v : Word} (h : v.getLsbD 0 = true) : v ||| 1 = v := by
  refine BitVec.eq_of_getLsbD_eq fun i _ => ?_
  by_cases hi : i = 0
  · subst hi
    simp [h]
  · simp [hi]

/-! ### Unit control blocks -/

/-- An HBM byte is HBM or a hole. -/
theorem hbmKind_ne_ucb (s : State) (f u off : Nat) : hbmKind s f ≠ .ucb u off := by
  unfold hbmKind
  split <;> exact fun h => nomatch h

/-- Only a unit that exists resolves to its block. -/
theorem ucbKind_of_resolve {s : State} {pa u off : Nat} (h : resolve s pa = .ucb u off) : (ucbKind s u).isSome = true := by
  unfold resolve at h
  dsimp only at h
  repeat' split at h
  all_goals simp only [hbmKind_ne_ucb, reduceCtorEq, PaKind.ucb.injEq] at h
  obtain ⟨rfl, rfl⟩ := h
  assumption

/-- A unit below 2,048 is no group. -/
theorem ucbKind_ne_group {s : State} {u : Nat} (h : u < 2048) : ucbKind s u ≠ some 4 := by
  have hg : ¬ (2048 ≤ u ∧ u < 2304 ∧ (kvGet s.groups (u - 2048)).isSome = true) := by omega
  unfold ucbKind
  rw [if_neg hg]
  repeat' split
  all_goals decide

/-- A device write of a unit control block with the privilege it needs. -/
theorem registerWrite_ucb {s : State} {pa : Word} {priv : BitVec 2} {u off : Nat} (v : Word) (h : pa.getLsbD 63 = false) (hr : resolve s pa.toNat = .ucb u off) :
    exec (.registerWrite pa v priv) s = .next (if priv = 0 then s else ucbWrite s u off v) := by
  show execRegisterWrite pa v priv s = _
  simp only [execRegisterWrite, h, hr, Bool.false_eq_true, if_false]

/-- A write of UCB_CMD with code 1 is QUIESCE (R35). -/
theorem ucbWrite_quiesce {s : State} {u : Nat} {v : Word} (hu : u < 4096) (hc : (fld v 0 8).toNat = 1) :
    (Host.Outcome.next (ucbWrite s u 0x020 v) : Out_) = exec (.quiesce (BitVec.ofNat 12 u) (fld v 16 16)) s := by
  show _ = Host.Outcome.next (ucbCmd s (BitVec.ofNat 12 u).toNat 1 (fld v 16 16))
  rw [BitVec.toNat_ofNat, Nat.mod_eq_of_lt hu, ← hc]
  rfl

/-- A write of UCB_TROUBLE_CLR is that command (R37). -/
theorem ucbWrite_troubleClr {s : State} {u : Nat} (v : Word) (hu : u < 2048) (hk : (ucbKind s u).isSome = true) :
    (Host.Outcome.next (ucbWrite s u 0x188 v) : Out_) = exec (.ucbTroubleClr (BitVec.ofNat 12 u) v 0) s := by
  show _ = execUcbTroubleClr (BitVec.ofNat 12 u) v 0 s
  have hw : ucbWrite s u 0x188 v = troubleClear s (siliconKey s u) v 0 := if_neg (Nat.not_le.2 hu)
  unfold execUcbTroubleClr
  rw [hw, BitVec.toNat_ofNat, Nat.mod_eq_of_lt (by omega)]
  split
  · rename_i hnone
    rw [hnone] at hk
    cases hk
  · rename_i hgroup
    exact absurd hgroup (ucbKind_ne_group hu)
  · rfl

/-- A host write inside slot k. -/
theorem registerWrite_slot {s : State} {pa : Word} {k off : Nat} (v : Word) (priv : BitVec 2) (hb : pa.getLsbD 63 = true) (ht : s.host.trained = true) (hk : k < 8192) (ho : off < 0x80)
    (he : bitsAt pa.toNat 0 22 = 0x100000 + 0x80 * k + off) (ha : off % barWidth pa = 0) :
    exec (.registerWrite pa v priv) s = .next (slotWrite s k off (barWidth pa) v) := by
  rw [registerWrite_bar s v priv hb, he, barWrite_slot v ht hk ho (barWidth_cases pa) ha]

end Sys2Proof.Machine

/-! ## Proofs: the HDM window and the link (O57; R425-R429, R460) -/

namespace Sys2Proof.Machine

/-- The HDM window takes an access of `n` bytes at offset `a`. -/
def HdmOpen (s : State) (a : Word) (n : Nat) : Prop :=
  s.host.trained = true ∧ s.host.linkCxl = true ∧ s.host.hdmLocked = true ∧ a.toNat + n ≤ s.host.hdmSize.toNat * 2 ^ 30

/-- The model's test of an access that the window does not take. -/
theorem hdmOpen_iff (s : State) (a : Word) (n : Nat) :
    ¬ (!s.host.trained || !s.host.linkCxl || !s.host.hdmLocked || decide (s.host.hdmSize.toNat * 2 ^ 30 < a.toNat + n)) = true ↔ HdmOpen s a n := by
  simp only [HdmOpen, Bool.or_eq_true, not_or, Bool.not_eq_true', Bool.not_eq_false, decide_eq_true_eq, Nat.not_lt, and_assoc]

/-- Address of offset `a` of the window. -/
def hdmAddr (s : State) (a : Word) : Nat := hdmBase s * 2 ^ 30 + a.toNat

section
variable {s : State} {a : Word}

theorem hdmWrite_closed {b : Bytes} (len : Nat) (h : ¬ HdmOpen s a b.length) : execHdmAccess a (some b) len s = .next s :=
  if_pos (Decidable.byContradiction fun hc => h ((hdmOpen_iff s a _).1 hc))

theorem hdmRead_closed {len : Nat} (h : ¬ HdmOpen s a len) : execHdmAccess a none len s = .next s :=
  if_pos (Decidable.byContradiction fun hc => h ((hdmOpen_iff s a _).1 hc))

/-- A write through the window writes memory and answers whether it could. -/
theorem hdmWrite_taken {b : Bytes} (len : Nat) (h : HdmOpen s a b.length) :
    execHdmAccess a (some b) len s = .next (let r := physPut s (hdmAddr s a) b; send r.2 (.host (r.1 = stOk) [])) := if_neg ((hdmOpen_iff s a _).2 h)

/-- A read through the window answers the bytes, or poison with an event. -/
theorem hdmRead_taken {len : Nat} (h : HdmOpen s a len) :
    execHdmAccess a none len s =
      let r := physRead s (hdmAddr s a) len
      if r.1 = stOk then .next (send r.2.2 (.host true (memBytes r.2.1 0 len))) else .next (send (deviceError r.2.2 r.1 0 (leBytes 8 (hdmAddr s a))) (.host false [])) :=
  if_neg ((hdmOpen_iff s a _).2 h)

theorem hdmWrite_result {b : Bytes} (len : Nat) {st : Status} {w : State} (h : HdmOpen s a b.length) (hw : physPut s (hdmAddr s a) b = (st, w)) :
    execHdmAccess a (some b) len s = .next (send w (.host (st = stOk) [])) := by rw [hdmWrite_taken len h, hw]

theorem hdmRead_result {len : Nat} {st : Status} {m : Mem} {w : State} (h : HdmOpen s a len) (hr : physRead s (hdmAddr s a) len = (st, m, w)) :
    execHdmAccess a none len s =
      if st = stOk then .next (send w (.host true (memBytes m 0 len))) else .next (send (deviceError w st 0 (leBytes 8 (hdmAddr s a))) (.host false [])) := by
  rw [hdmRead_taken h, hr]

end

/-- DEVICE_ERROR raises an event with its status. -/
theorem deviceError_raises (s : State) (st : Status) (subject : Nat) (detail : Bytes) : ∃ e ∈ (deviceError s st subject detail).evq, e.type = 9 ∧ e.status = st :=
  ⟨_, List.mem_append_right _ (List.mem_singleton_self _), rfl, rfl⟩

/-! ### The link -/

theorem decoderCommit_ignored {s : State} (up : Bool) (h : s.host.trained = false ∨ s.host.linkCxl = false) : execHdmDecoderCommit up s = .next s := by
  refine congrArg Host.Outcome.next (if_neg ?_)
  rcases h with h | h <;> simp [h]

theorem decoderCommit_taken {s : State} (up : Bool) (ht : s.host.trained = true) (hc : s.host.linkCxl = true) :
    ∃ t, execHdmDecoderCommit up s = .next t ∧ t.host.hdmLocked = up ∧ t.host.hdmSize = s.host.hdmSize :=
  ⟨_, congrArg Host.Outcome.next (if_pos (by simp [ht, hc])), rfl, rfl⟩

section
variable {s : State} {cxl : Bool} {lanes : BitVec 5} {gtps : BitVec 8}

/-- The link stays as it is while PERST_N is low, or where the width or rate is none it has. -/
theorem linkTraining_refused (h : s.host.perst = false ∨ linkOk cxl lanes gtps = false) : execCxlLinkTraining true cxl lanes gtps s = .next s := by
  refine congrArg Host.Outcome.next (if_neg ?_)
  rcases h with h | h <;> simp [h]

theorem linkTraining_up (hp : s.host.perst = true) (hl : linkOk cxl lanes gtps = true) :
    ∃ t, execCxlLinkTraining true cxl lanes gtps s = .next t ∧ t.host.trained = true ∧ t.host.linkCxl = cxl ∧ t.host.lanes = lanes ∧ t.host.gtps = gtps ∧ t.host.slots = s.host.slots :=
  ⟨_, congrArg Host.Outcome.next (if_pos (by simp [hp, hl])), rfl, rfl, rfl, rfl, rfl⟩

theorem linkTraining_down : ∃ t, execCxlLinkTraining false cxl lanes gtps s = .next t ∧ t.host.trained = false ∧ t.host.slots = s.host.slots := ⟨_, rfl, rfl, rfl⟩

/-- In CXL mode the link has three widths and three rates (R425). -/
theorem linkOk_cxl (h : linkOk true lanes gtps = true) : (lanes = 16 ∨ lanes = 8 ∨ lanes = 4) ∧ (gtps = 128 ∨ gtps = 64 ∨ gtps = 32) := by
  simpa [linkOk, or_assoc] using h

end

/-- PERST_N low takes the link down and resets nothing else. -/
theorem perstN_result (s : State) (up : Bool) :
    ∃ t, execPerstN up s = .next t ∧ t.host.perst = up ∧ (up = false → t.host.trained = false) ∧ (up = true → t.host.trained = s.host.trained) ∧
      t.host.slots = s.host.slots ∧ t.host.enable = s.host.enable ∧ t.hbm = s.hbm := by
  cases up with
  | true => exact ⟨_, rfl, rfl, fun h => absurd h (by decide), fun _ => rfl, rfl, rfl, rfl⟩
  | false => exact ⟨_, rfl, rfl, fun _ => rfl, fun h => absurd h (by decide), rfl, rfl, rfl⟩

/-! ### The statement -/

/-- Settles O57: each row by the lemmas of its unit above. -/
theorem securityAndRegisters : Obligations.SecurityAndRegisters := by
  unfold Obligations.SecurityAndRegisters
  refine ⟨fun s ok => ⟨fun r hr h => ?blocked, fun m s1 h1 h2 h3 h4 h5 => ?block⟩, fun s m => ?spdm,
    fun s pa v priv => ⟨fun hb => ?bar, fun blk off hb hr => ⟨registerWrite_barred v hb hr, fun hp hp1 => ?registers⟩, fun u off hb hr hu => ?ucb⟩, fun s a b len => ?window, fun s up cxl lanes gtps => ?link⟩
  case blocked =>
    obtain ⟨k, hk⟩ := exec_security s ok r hr
    rw [hk, secGo_blocked h]
  case block =>
    have hs : SecReady s m s1 := ⟨h1, h2, h3, h4, h5⟩
    refine ⟨fun r hr h => ?other, fun h => ?stage, fun h => ?activate, fun h => ?commit, fun h => ?revoke, fun h => ?attest⟩
    case other =>
      obtain ⟨k, hk⟩ := exec_security s ok r hr
      rw [hk, secGo_other hs h]
    case stage =>
      have hx := exec_stage_op hs h ok
      exact ⟨fun hp => ⟨_, hx, secStage_outside hp⟩, fun hp hn => ⟨_, hx, secStage_large hp hn⟩, fun m2 s2 hp hn hr => ⟨_, hx, secStage_result ok hp hn hr⟩⟩
    case activate =>
      cases ok with
      | false => exact ⟨fun _ => ⟨_, exec_activate_op hs h false, secDone_ends s1 5 0⟩, fun hok => absurd hok (by decide)⟩
      | true => exact ⟨fun hok => absurd hok (by decide), fun _ => ⟨_, exec_activate_op hs h true, secActivate_result s1⟩⟩
    case commit =>
      have hx := exec_commitSvn_op hs h
      exact ⟨fun hc => ⟨_, hx, secCommit_refused hc⟩, fun hb hf => ⟨_, hx, secCommit_result hb hf⟩⟩
    case revoke =>
      have hx := exec_revokeKey_op hs h
      exact ⟨fun hk => ⟨_, hx, secRevoke_refused hk⟩, fun hk hf hr => ⟨_, hx, secRevoke_result hk hf hr⟩⟩
    case attest =>
      have hx := exec_attest_op hs h
      refine ⟨fun hj => ⟨_, hx, secAttest_noJob hj⟩, fun x hj => ⟨fun hn => ⟨_, hx, secAttest_short hj hn⟩, fun hn hp => ⟨_, hx, secAttest_outside hj hn hp⟩, fun hn hp => ?_⟩⟩
      obtain ⟨hbody, hsigns⟩ := attReport_result s1 (BitVec.ofNat 16 (subNat (memBytes m 0 128) 2 2)) (sub (memBytes m 0 128) 0x20 32) x
      exact ⟨hbody, hsigns, _, hx, secAttest_stored hj hn hp⟩
  case spdm =>
    exact ⟨fun r hr => spdmTake_unheard_early (exec_spdm s m r hr), getVersion_answered, getCapabilities_answered, negotiateAlgorithms_answered, getDigests_answered,
      fun h hp => ⟨getCertificate_refused h hp, getCertificate_answered h hp⟩, fun h hp => ⟨challenge_refused h hp, challenge_answered h hp⟩,
      fun h hp => ⟨fun hk => getMeasurements_answered h hp fun nonce => measBlocks_one nonce hk, fun hk => getMeasurements_answered h hp fun nonce => hk ▸ measBlocks_all nonce,
        fun h4 hk => getMeasurements_refused h hp fun nonce => measBlocks_reserved nonce h4 hk, fun h8 hk hj => getMeasurements_refused h hp fun nonce => measBlocks_noJob nonce h8 hk hj⟩,
      keyExchange_answered, finish_answered, endSession_answered, secureSession_early, secureSession_unheard, ideKm_answered, ideKm_ignored⟩
  case bar =>
    refine ⟨fun h => ?ignored, fun ht ho hn => ?hiDrv, fun k off ho ht he ha => ?slot⟩
    case ignored => exact (registerWrite_bar s v priv hb).trans (congrArg _ (barWrite_ignored v h))
    case hiDrv =>
      refine (registerWrite_bar s v priv hb).trans (congrArg Host.Outcome.next ?_)
      rw [show barWidth pa = 8 from hn, ho]
      exact barWrite_hiDrv v ht
    case slot =>
      have hx := registerWrite_slot v priv hb ht k.isLt ho he ha
      refine ⟨fun h78 hv => ?_, fun h40 hs => hx.trans (congrArg _ (slotWrite_accepted _ v h40 hs)), fun h40 hs => ⟨_, hx, slotWrite_area _ v h40 hs⟩⟩
      subst h78
      exact hx.trans (congrArg Host.Outcome.next ((slotWrite_go s _ _ hv).trans (if_pos ht).symm))
  case registers =>
    have hx := registerWrite_reg v hb hr hp hp1
    refine ⟨?capW, ?vset, ?evtSeen, ?mult, ?xpCmd, ?format, ?lehr, ?canary, ?blkReset, ?wakeSeen, ?ptpStep, fun h => hx.trans (congrArg _ (regWrite_none v h))⟩ <;> rintro rfl rfl
    case capW => exact ⟨_, hx, rwIn_zero .., rfl, rfl⟩
    case evtSeen => exact ⟨_, hx, fun i hi => (w1c_fld_getLsbD _ v 1 hi).trans (by rw [Nat.add_comm])⟩
    case mult => exact ⟨_, hx, mult_write ..⟩
    case xpCmd => exact ⟨_, hx, rfl, rfl⟩
    case lehr => exact fun hv => hx.trans (congrArg (fun w => Host.Outcome.next (lehrCtrl s w)) (or_one_of_bit0 hv).symm)
    case canary => exact ⟨_, hx, rfl⟩
    case wakeSeen => exact ⟨_, hx, fun i hi => (w1c_fld_getLsbD _ v 0 hi).trans (by rw [Nat.zero_add])⟩
    case vset | format | blkReset | ptpStep => exact hx
  case ucb =>
    have hx := registerWrite_ucb (priv := priv) v hb hr
    refine ⟨fun hp => hx.trans (congrArg _ (if_pos hp)), fun hp h20 hc => ?quiesce, fun hp h188 hu2 => ?trouble⟩
    case quiesce =>
      subst h20
      exact (hx.trans (congrArg _ (if_neg hp))).trans (ucbWrite_quiesce hu hc)
    case trouble =>
      subst h188
      exact (hx.trans (congrArg _ (if_neg hp))).trans (ucbWrite_troubleClr v hu2 (ucbKind_of_resolve hr))
  case window =>
    exact ⟨hdmWrite_closed len, hdmRead_closed, fun st w h hw => ⟨_, hdmWrite_result len h hw, rfl, rfl⟩, fun st m w h hr =>
      ⟨fun hst => ⟨_, (hdmRead_result h hr).trans (if_pos hst), rfl, rfl⟩, fun hst => ⟨_, (hdmRead_result h hr).trans (if_neg hst), rfl, rfl, deviceError_raises w st 0 _⟩⟩⟩
  case link =>
    exact ⟨decoderCommit_ignored up, decoderCommit_taken up, fun hu h => hu ▸ linkTraining_refused h, fun hu hp hl => hu ▸ linkTraining_up hp hl, fun hu => hu ▸ linkTraining_down,
      linkOk_cxl, perstN_result s up⟩

end Sys2Proof.Machine
